-- ==== Sys2Proof/Word.lean ====
section
/-! DEFINITION. The word types of the T36 model and their plainest conversions: bytes, 32-bit and
64-bit words, and the little-endian byte order of every multi-byte field (00_scope R4). -/

namespace Sys2Proof

/-- One byte. -/
abbrev Byte := BitVec 8

/-- A 32-bit register or parameter word. -/
abbrev Word := BitVec 32

/-- A 64-bit register or address. -/
abbrev DWord := BitVec 64

/-- A time in nanoseconds (log entry 1). -/
abbrev Time := Nat

namespace Word

/-- The low `8 * n` bits of a number as `n` little-endian bytes (R4). -/
def toBytesLE : Nat → Nat → List Byte
  | 0, _ => []
  | n + 1, v => BitVec.ofNat 8 v :: toBytesLE n (v / 256)

/-- The number that little-endian bytes spell (R4). -/
def ofBytesLE : List Byte → Nat
  | [] => 0
  | b :: bs => b.toNat + 256 * ofBytesLE bs

/-- The `len` bytes of `bs` from offset `off`, read as one little-endian number. -/
def fieldLE (bs : List Byte) (off len : Nat) : Nat :=
  ofBytesLE ((bs.drop off).take len)

/-- `n` zero bytes. -/
def zeros (n : Nat) : List Byte := List.replicate n 0

end Word

end Sys2Proof
end

