-- ==== Sys2Proof/Syntax/Types.lean ====
section
/-! DEFINITION. The operand types of the T36's commands: heads, beams, laser levels, opcodes, status codes,
submission entries and what the outside world answers when the T36 reads host memory or the medium. -/

namespace Sys2Proof

/-- The two optical heads (01_hendun_medium, "Disc, sides and layers"). -/
inductive Head where
  | a
  | b
deriving DecidableEq, Repr

/-- A beam of one head, 0 to 17 (Table 1.1). -/
abbrev Beam := Fin 18

/-- One of the four PCI Express functions F0 to F3 (Table 3.2). -/
abbrev FnId := Fin 4

/-- One of the 32 queue pairs of a function (R104). -/
abbrev QId := Fin 32

/-- One of the 64 hardware locks (03_host_link_tenants, "Locks"). -/
abbrev LockId := Fin 64

/-- One of the 16 Loop Engine slots (R369). -/
abbrev LoopId := Fin 16

/-- Laser power levels of Table 8.1. -/
inductive Level where
  | off
  | read
  | cool
  | bias
  | mid
  | write
deriving DecidableEq, Repr

/-- The opcodes of Table 4.4. -/
inductive Opcode where
  | identify
  | getPage
  | getParam
  | setParam
  | keyLoad
  | keyPurge
  | mount
  | unmount
  | clipOpen
  | clipClose
  | frameAppend
  | auxAppend
  | read
  | frameRead
  | metaRead
  | metaWrite
  | lockAcquire
  | lockRelease
  | lockClearAbandoned
  | powerState
  | spindle
  | calibrate
  | verifyCtl
  | fwStage
  | fwActivate
  | attest
  | jtagUnlock
deriving DecidableEq, Repr

/-- The status codes of Table 4.9 (R138). -/
inductive Status where
  | success
  | acquiredAbandoned
  | invalidOpcode
  | functionDenied
  | invalidField
  | dmaError
  | stateConflict
  | bringupInProgress
  | magazineAbsent
  | doorOpen
  | queueHalted
  | lockBusy
  | powerRequestSuperseded
  | profileUnsustainable
  | bufferFullRetry
  | frameOutOfOrder
  | capacityExhausted
  | notWritten
  | abortedPowerFail
  | accessDenied
  | mediaUnrecovered
  | authTagMismatch
  | keyUnwrapFailed
  | keySessionsExhausted
  | magazineFormatUnsupported
  | notRunPrecondition
  | updateRefused
  | unlockRefused
deriving DecidableEq, Repr

/-- The five power states of Table 13.1, shallowest first. -/
inductive PowerState where
  | run
  | doze
  | park
  | torpor
  | hibernate
deriving DecidableEq, Repr

/-- A scatter element of Table 4.2, without its reserved bytes, which are ignored (R692). -/
structure SglElem where
  /-- Bytes 0 to 7. -/
  addr : DWord
  /-- Bytes 8 to 11. -/
  len : Word
deriving DecidableEq, Repr

/-- A submission entry with the fields of Table 4.1 (R121); `params` are P0 to P9. -/
structure Entry where
  /-- Byte 0. -/
  opcode : BitVec 8 := 0
  /-- Byte 1 bit 7. -/
  fence : Bool := false
  /-- Byte 1 bit 6. -/
  sgl : Bool := false
  /-- Byte 1 bits 5 to 0, reserved. -/
  flagsRsvd : BitVec 6 := 0
  /-- Bytes 2 and 3. -/
  cid : BitVec 16 := 0
  /-- Bytes 4 to 7. -/
  length : Word := 0
  /-- Bytes 8 to 15. -/
  dptr : DWord := 0
  /-- Bytes 16 to 19. -/
  sglCount : Word := 0
  /-- Bytes 20 to 23, reserved. -/
  rsvd : Word := 0
  /-- Bytes 24 to 63. -/
  params : Vector Word 10 := Vector.replicate 10 0
  /-- MODEL FIELD, no byte of the entry: the segments that the scatter list names, once the list has been read (R122,
  R692); none for one contiguous buffer. -/
  segments : List SglElem := []
deriving DecidableEq, Repr

/-- What one record of the medium is when a MOUNT finds it (R213, R588): its type, key, index and bytes. -/
structure VolRecord where
  /-- Record type of Table 6.2. -/
  rtype : BitVec 8
  /-- RECORD_KEY of Table 6.2. -/
  key : Word
  /-- RECORD_INDEX of Table 6.2. -/
  index : Word
  /-- The whole record, header included (R208). -/
  bytes : List Byte
deriving DecidableEq, Repr

/-- A stripe as MOUNT finds it on the medium: whether its group began after which stripes ended is told by
the times, in revolutions of the session, and whether every parity sector of it is present (R588). -/
structure StripeScan where
  /-- Stripe sequence. -/
  seq : Nat
  /-- Mount session that wrote it. -/
  session : Nat
  /-- When its group began, on any clock common to the session. -/
  began : Nat
  /-- When its group ended. -/
  ended : Nat
  /-- Every parity sector is present in the sense of R588. -/
  parityPresent : Bool
  /-- The authoritative LSNs it holds (R32). -/
  lsns : List Nat
deriving DecidableEq, Repr

/-- What reading the magazine gives a MOUNT: the identity band sector payload of each side, where a sector
mark was found there, and the contents of the data band (R213, R273, R282, R588). -/
structure MountScan where
  /-- A sector mark was found in the identity band of side A. -/
  markA : Bool := false
  /-- A sector mark was found in the identity band of side B. -/
  markB : Bool := false
  /-- Identity band payload of side A (Table 7.3), as far as read. -/
  bandA : List Byte := []
  /-- Identity band payload of side B. -/
  bandB : List Byte := []
  /-- Highest session number in any session start sector or readable header; 0 when there is none. -/
  highestSession : Nat := 0
  /-- Highest committed counter value, where the magazine holds one (R271). -/
  committedCounter : Option Nat := none
  /-- One more than the highest assigned LSN. -/
  nextLsn : Nat := 0
  /-- One more than the highest system sector number. -/
  nextSysSector : Nat := 0
  /-- One more than the highest stripe sequence. -/
  nextStripe : Nat := 0
  /-- Data slots already occupied (R36). -/
  usedSlots : Nat := 0
  /-- Layer, zone ordinal in the head's sweep and next group of head A. -/
  posA : Nat × Nat × Nat := (0, 0, 0)
  /-- The same for head B. -/
  posB : Nat × Nat × Nat := (0, 0, 0)
  /-- The records of the system sectors, in creation order. -/
  records : List VolRecord := []
  /-- The stripes of the magazine, with what R588 asks of them. -/
  stripes : List StripeScan := []
  /-- Each assigned LSN with the PSA at which it was first placed. -/
  places : List (Nat × Word) := []
deriving DecidableEq, Repr

/-- One command taken up from a queue: which queue, its submission entry, and what the outside world answers
while it is checked and run (log entries 4 and 5). -/
structure Call where
  fn : FnId
  q : QId
  entry : Entry
  /-- The bytes of the scatter list read when SGL is 1: 16 for each element (R122, R692). -/
  sgl : List Byte := []
  /-- The bytes read from host memory, for opcodes whose data come from the host. -/
  data : List Byte := []
  /-- Host address at which the scatter-list read ended in error (R691). -/
  listErr : Option DWord := none
  /-- Host address at which the data read ended in error (R691). -/
  dataErr : Option DWord := none
  /-- Byte address of the named record in the volume map, for META_READ and META_WRITE (R215). -/
  mapAddr : BitVec 31 := 0
  /-- The headers and payloads of the AUX data sectors of the AUX record named, as they are read and decoded from the medium,
  for a META_READ of a record of an earlier mount (R704). -/
  mediumAux : List (List Byte × List Byte) := []
  /-- What reading the magazine gives, for MOUNT. -/
  scan : MountScan := {}
deriving DecidableEq, Repr

/-- What the read channel measures of one sector in verify mode (Table 8.3). -/
structure VerifyMeasure where
  /-- The sector mark was found at all. -/
  markFound : Bool
  /-- Its distance in channel bits from the expected position. -/
  markOffset : Nat
  /-- A field sync was found in every field holding a fragment. -/
  syncsFound : Bool
  /-- Channel-bit disagreements in the header. -/
  headerErrs : Nat
  /-- Channel-bit disagreements in each of the eight codewords. -/
  cwErrs : List Nat
  /-- The measured beta of the sector, in 1/1,024. -/
  beta : Nat
deriving DecidableEq, Repr

/-- What the host asks of a function that is not ready (R698). -/
inductive HostAccess where
  | configRead
  | configWrite
  | configFlr
  | barRead (bytes : Nat)
  | barWrite
deriving DecidableEq, Repr

/-- The register space a register write names: the BAR0 or BAR2 window of a function (R76), or the Loop
Engine's register file (R394). -/
inductive RegSpace where
  | bar0 (fn : FnId)
  | bar2 (fn : FnId)
  | loopEngine
deriving DecidableEq, Repr

/-- Where a parity error of an on-chip memory is found (R66, R67, R202). -/
inductive SramSite where
  | staging (h : Head) (b : Beam)
  | encode (h : Head) (b : Beam)
  | decrypt (psa : Word)
  | codeword (h : Head) (b : Beam)
deriving DecidableEq, Repr

/-- A region of the external buffer with what lies at the damaged burst (Table 5.7). -/
inductive DreyRegion where
  | frame (clip : Word) (number : Nat)
  | review (fn : FnId) (q : QId) (cid : BitVec 16) (lsn : Nat) (twice : Bool)
  | assembly (psa : Word)
  | scurry (lsn : Nat)
  | side (fn : FnId) (q : QId) (cid : BitVec 16) (offset : Nat) (clip : Word) (frame : Word) (stream : Word)
  | volumeMap (line : Nat)
  | relocationList
  | accessList
  | shadow (row : Nat)
  | working
  | selfTest
deriving DecidableEq, Repr

/-- What the memory self-test finds (Table 5.5): steps 1, 2 and 3 passed, and the devices in which step 4 failed. -/
structure SelfTestSense where
  loopOk : Bool := true
  pairsOk : Bool := true
  sramOk : Bool := true
  failed : List (Fin 20) := []
deriving DecidableEq, Repr

/-- The always-on request pins (R473). -/
inductive WakePin where
  | wake0
  | wake1
  | psreq
deriving DecidableEq, Repr

/-- Which parity-protected memory of the metadata cache failed (R254). -/
inductive CacheSite where
  | line (set way : Nat)
  | eviction (index : Nat)
  | hoard (index : Nat)
deriving DecidableEq, Repr

/-- The PLLs of Table 12.3. -/
inductive Island where
  | afe
  | writeLane
  | pcie
  | ddr5
  | slow
deriving DecidableEq, Repr

/-- The type of a crossing bridge (Table 12.4): F, S or E. -/
inductive BridgeKind where
  | fifo
  | snapshot
  | event
deriving DecidableEq, Repr

/-- An SMPTE ST 12-1 time address as an LTC frame carries it (R209, R677). -/
structure TimeAddress where
  hours : Nat
  minutes : Nat
  seconds : Nat
  frames : Nat
  /-- The drop-frame flag. -/
  drop : Bool
deriving DecidableEq, Repr

/-- The side of a crossing bridge that is reset (R460). -/
inductive Side where
  | fabric
  | island
deriving DecidableEq, Repr

/-- A sample offered to a Loop Engine slot: a valid input, an input marked invalid (R373), or a source event
that arrives before the slot's previous sample has begun (R372). -/
inductive LoopSample where
  | valid (y : BitVec 16)
  | invalid
  | overrun
deriving DecidableEq, Repr

/-- What the commutation unit senses during a start (R404 to R406, R410). -/
structure StartSense where
  /-- Zero crossings seen at step 1: whether the rotor turns forward, and its speed in rpm. -/
  turning : Option (Bool × Nat) := none
  /-- For each run of the test pulses (at most three), the time to trip of each of the twelve pulses in µs; a
  pulse that never trips counts as T_TEST_MAX. -/
  runs : List (List Nat) := []
  /-- Twelve consecutive zero crossings were seen within 48 forced steps. -/
  synced : Bool := true
  /-- KE_MEAS of the back-EMF check, in mV per rad/s. -/
  keMeas : Nat := 0
deriving DecidableEq, Repr

/-- What a calibration step finds on one beam or head: the measured values in the order the step's discard
rule names them, in the units of Table 15.1 (R535). -/
structure CalMeasure where
  vals : List Int
  /-- The condition that has no number (stray light, index not found, loop not locked, phase not following). -/
  flag : Bool := false
deriving DecidableEq, Repr

/-- What a focus sweep finds (R428): whether capture succeeds, and the layer the first decoded wedge names. -/
structure CaptureSense where
  locked : Bool
  layer : Nat
deriving DecidableEq, Repr

/-- One step of equaliser adaptation (09_read_channel): the channel bit of the field at which it is made, the equaliser
output, the 24 delayed samples and the five delayed decisions. -/
structure AdaptSample where
  bit : Nat
  y : Int
  xs : List Int
  ds : List Int
deriving DecidableEq, Repr

/-- What a data field gives a read channel (R327 to R341). -/
structure FieldSense where
  /-- The zone that is read. -/
  zone : Fin 24
  /-- Field number counted by the reassembly. -/
  expected : Nat
  /-- Band and wedge index of the decoded wedge address, where one was decoded. -/
  wedge : Option (Nat × Nat)
  /-- The detector's soft values of the NRZ levels (R332), from the level before the bit four channel bits ahead of the place
  that wedge timing predicts for the field sync, to four channel bits past the payload. -/
  nrz : List Int
  /-- AGC gain acquired on the preamble, in 0.25 dB. -/
  gain : Int
  /-- Frequency held by the timing loop at the end of the field. -/
  freq : Int
  /-- The equaliser adaptation steps of the field. -/
  adapt : List AdaptSample
deriving DecidableEq, Repr

/-- A sensor reading given to Vole (Table 17.2). -/
inductive SensorReading where
  | junction (i : Fin 8) (eighths : Int)
  | supply (i : Fin 9) (mv : Int) (outFor1ms : Bool)
  | external (i : Fin 8) (eighths : Int)
  | mr4 (device : Fin 20) (code : BitVec 8)
deriving DecidableEq, Repr

/-- A service-port frame that names an archive or log exchange, as bytes of its payload (Table 17.7). -/
abbrev Payload := List Byte

/-- A test access port instruction (R529). -/
inductive TapInstr where
  | bypass
  | idcode
  | other (code : Nat)
deriving DecidableEq, Repr

end Sys2Proof
end

