-- ==== Sys2Proof/Syntax.lean ====
section
/-! DEFINITION. The commands of the T36, one constructor per row of spec/opcode_table.json. Every command
carries the time `t` (in nanoseconds) at which it comes (log entry 1); the other operands are what the row's
event brings from outside: a register value, a submission entry, a measurement (log entries 4 to 6). -/

namespace Sys2Proof

/-- The commands and events of the part, in the order of spec/opcode_table.json. -/
inductive Instr where
  /-- SQ_TAIL_DOORBELL (03_host_link_tenants R84). -/
  | sqTailDoorbell (t : Time) (fn : FnId) (q : QId) (value : Word)
  /-- CQ_HEAD_DOORBELL (03_host_link_tenants R86). -/
  | cqHeadDoorbell (t : Time) (fn : FnId) (q : QId) (value : Word)
  /-- QUEUE_ENABLE (03_host_link_tenants R81). -/
  | queueEnable (t : Time) (fn : FnId) (q : QId) (ctrl : Word)
  /-- QUEUE_DELETE (03_host_link_tenants R112). -/
  | queueDelete (t : Time) (fn : FnId) (q : QId) (ctrl : Word)
  /-- QUEUE_DELETION_COMPLETE (03_host_link_tenants R113). -/
  | queueDeletionComplete (t : Time) (fn : FnId) (q : QId)
  /-- RESTART (03_host_link_tenants R111). -/
  | restart (t : Time) (fn : FnId) (q : QId) (ctrl : Word)
  /-- COMMAND_FETCH (03_host_link_tenants R90). -/
  | commandFetch (t : Time) (entries : List (List Byte))
  /-- FETCH_READ_ERROR (03_host_link_tenants R691). -/
  | fetchReadError (t : Time) (fn : FnId) (q : QId) (addr : DWord)
  /-- DMA_READ_ERROR (03_host_link_tenants R691). -/
  | dmaReadError (t : Time) (c : Call)
  /-- COALESCE_TIMER_EXPIRY (03_host_link_tenants R78). -/
  | coalesceTimerExpiry (t : Time) (fn : FnId) (q : QId)
  /-- INBOUND_BUDGET_WINDOW (03_host_link_tenants R92). -/
  | inboundBudgetWindow (t : Time)
  /-- ASPM_L1_ENTRY (03_host_link_tenants R71). -/
  | aspmL1Entry (t : Time)
  /-- CONFIG_REQUEST_NOT_READY (03_host_link_tenants R698). -/
  | configRequestNotReady (t : Time) (fn : FnId) (req : HostAccess)
  /-- FUNCTION_LEVEL_RESET (03_host_link_tenants R119). -/
  | functionLevelReset (t : Time) (fn : FnId)
  /-- LINK_DOWN (03_host_link_tenants R699). -/
  | linkDown (t : Time)
  /-- HOT_RESET (03_host_link_tenants R115). -/
  | hotReset (t : Time)
  /-- LINK_DISABLED (03_host_link_tenants R115). -/
  | linkDisabled (t : Time)
  /-- FUNCTIONS_READY (03_host_link_tenants R69). -/
  | functionsReady (t : Time) (rate : Nat) (width : Nat)
  /-- PERST_N_ASSERTION (03_host_link_tenants R116). -/
  | perstNAssertion (t : Time) (lowNs : Nat)
  /-- QUILL_BOOT (14_quill_secure_start R513). -/
  | quillBoot (t : Time) (katOk octalOk testEn : Bool)
  /-- IDENTIFY (04_command_packets R129). -/
  | identify (t : Time) (c : Call)
  /-- GET_PAGE (04_command_packets R128). -/
  | getPage (t : Time) (c : Call)
  /-- GET_PARAM (04_command_packets R159). -/
  | getParam (t : Time) (c : Call)
  /-- SET_PARAM (04_command_packets R159). -/
  | setParam (t : Time) (c : Call)
  /-- KEY_LOAD (07_stripe_codec_crypto R279). -/
  | keyLoad (t : Time) (c : Call)
  /-- KEY_PURGE (07_stripe_codec_crypto R280). -/
  | keyPurge (t : Time) (c : Call)
  /-- MOUNT (07_stripe_codec_crypto R281). -/
  | mount (t : Time) (c : Call)
  /-- UNMOUNT (07_stripe_codec_crypto R285). -/
  | unmount (t : Time) (c : Call)
  /-- CLIP_OPEN (04_command_packets R147). -/
  | clipOpen (t : Time) (c : Call)
  /-- CLIP_CLOSE (04_command_packets R149). -/
  | clipClose (t : Time) (c : Call)
  /-- FRAME_APPEND (04_command_packets R154). -/
  | frameAppend (t : Time) (c : Call)
  /-- AUX_APPEND (04_command_packets R157). -/
  | auxAppend (t : Time) (c : Call)
  /-- READ (04_command_packets R156). -/
  | read (t : Time) (c : Call)
  /-- FRAME_READ (02_frame_path R63). -/
  | frameRead (t : Time) (c : Call)
  /-- META_READ (06_volume_map_burrow R705). -/
  | metaRead (t : Time) (c : Call)
  /-- META_WRITE (06_volume_map_burrow R705). -/
  | metaWrite (t : Time) (c : Call)
  /-- LOCK_ACQUIRE (03_host_link_tenants R98). -/
  | lockAcquire (t : Time) (c : Call)
  /-- LOCK_RELEASE (03_host_link_tenants R102). -/
  | lockRelease (t : Time) (c : Call)
  /-- LOCK_CLEAR_ABANDONED (03_host_link_tenants R102). -/
  | lockClearAbandoned (t : Time) (c : Call)
  /-- POWER_STATE (13_power_states R484). -/
  | powerState (t : Time) (c : Call)
  /-- SPINDLE (11_spindle_sled_moves R416). -/
  | spindle (t : Time) (c : Call)
  /-- CALIBRATE (15_bringup_calibration R558). -/
  | calibrate (t : Time) (c : Call)
  /-- VERIFY_CTL (16_modes_coincidences R570). -/
  | verifyCtl (t : Time) (c : Call)
  /-- FW_STAGE (14_quill_secure_start R520). -/
  | fwStage (t : Time) (c : Call)
  /-- FW_ACTIVATE (14_quill_secure_start R523). -/
  | fwActivate (t : Time) (c : Call)
  /-- ATTEST (14_quill_secure_start R517). -/
  | attest (t : Time) (c : Call)
  /-- JTAG_UNLOCK (14_quill_secure_start R530). -/
  | jtagUnlock (t : Time) (c : Call)
  /-- UNDEFINED_OPCODE (04_command_packets R139). -/
  | undefinedOpcode (t : Time) (c : Call)
  /-- FENCE_COMMAND_START (03_host_link_tenants R95). -/
  | fenceCommandStart (t : Time) (c : Call)
  /-- OVERLAP_READ_RESUME (03_host_link_tenants R97). -/
  | overlapReadResume (t : Time) (fn : FnId) (q : QId) (cid : BitVec 16)
  /-- MOUNT_WAIT_RELEASE (04_command_packets R142). -/
  | mountWaitRelease (t : Time)
  /-- BRINGUP_DEFERRED_START (15_bringup_calibration R545). -/
  | bringupDeferredStart (t : Time) (fn : FnId) (q : QId) (cid : BitVec 16)
  /-- MEDIA_COMMAND_RUN_START (04_command_packets R146). -/
  | mediaCommandRunStart (t : Time) (fn : FnId) (q : QId) (cid : BitVec 16)
  /-- CLIP_OPEN_DEFERRED_START (11_spindle_sled_moves R420). -/
  | clipOpenDeferredStart (t : Time) (fn : FnId) (q : QId) (cid : BitVec 16)
  /-- LOCK_WAIT_TIMEOUT (03_host_link_tenants R99). -/
  | lockWaitTimeout (t : Time) (lock : LockId)
  /-- HELD_FETCH_RESUME (05_drey_buffers R179). -/
  | heldFetchResume (t : Time) (fn : FnId) (q : QId)
  /-- FULL_WAIT_EXPIRY (05_drey_buffers R178). -/
  | fullWaitExpiry (t : Time) (fn : FnId) (q : QId)
  /-- RATE_DEFICIT_REPEAT (05_drey_buffers R175). -/
  | rateDeficitRepeat (t : Time)
  /-- FRAME_DMA_COMPLETE (04_command_packets R154). -/
  | frameDmaComplete (t : Time) (clip : Word) (number : Nat) (data : List Byte)
  /-- CLIP_CLOSE_RECORD_QUEUED (04_command_packets R149). -/
  | clipCloseRecordQueued (t : Time)
  /-- FRAME_ENCODE (02_frame_path R51). -/
  | frameEncode (t : Time) (discards : List Nat)
  /-- SYSTEM_SECTOR_WRITE (06_volume_map_burrow R210). -/
  | systemSectorWrite (t : Time)
  /-- SLOT_BEGIN (02_frame_path R65). -/
  | slotBegin (t : Time) (h : Head)
  /-- VERIFY_VERDICT (08_write_lanes R303). -/
  | verifyVerdict (t : Time) (h : Head) (b : Beam) (m : VerifyMeasure)
  /-- STREAM_DRY (01_hendun_medium R40). -/
  | streamDry (t : Time)
  /-- RECORDING_RESUME (01_hendun_medium R41). -/
  | recordingResume (t : Time)
  /-- LAYER_TURNAROUND (11_spindle_sled_moves R432). -/
  | layerTurnaround (t : Time) (okA okB : Bool) (gains : List (LoopId × Nat))
  /-- TURNAROUND_TIMEOUT (11_spindle_sled_moves R433). -/
  | turnaroundTimeout (t : Time)
  /-- AFE_OFFSET_TRIM (15_bringup_calibration R549). -/
  | afeOffsetTrim (t : Time) (h : Head) (b : Beam) (dev : Int)
  /-- READ_POWER_TRIM (08_write_lanes R299). -/
  | readPowerTrim (t : Time) (h : Head) (b : Beam) (mean : Nat)
  /-- LASER_REFERENCE_TRIM (15_bringup_calibration R549). -/
  | laserReferenceTrim (t : Time) (h : Head) (b : Beam) (slope : Nat)
  /-- SRAM_PARITY_ERROR (02_frame_path R66). -/
  | sramParityError (t : Time) (site : SramSite) (byte : Byte) (parity : Bool)
  /-- PARITY_ACCUMULATOR_ERROR (05_drey_buffers R200). -/
  | parityAccumulatorError (t : Time) (h : Head) (member : Fin 3) (byte : Byte) (parity : Bool)
  /-- CODEWORD_DETECTED (09_read_channel R344). -/
  | codewordDetected (t : Time) (h : Head) (b : Beam) (psa : Word) (index : Fin 8) (speculative : Bool)
  /-- LDPC_DECODE_DONE (09_read_channel R343). -/
  | ldpcDecodeDone (t : Time) (h : Head) (b : Beam) (index : Fin 8) (iterations : Nat) (result : Option (List Byte)) (header : List Byte)
  /-- SECTOR_TAG_CHECK (07_stripe_codec_crypto R291). -/
  | sectorTagCheck (t : Time) (psa : Word)
  /-- ERASURE_DECODE (07_stripe_codec_crypto R265). -/
  | erasureDecode (t : Time) (seq : Nat)
  /-- RETRY_LADDER_STEP (09_read_channel R365). -/
  | retryLadderStep (t : Time) (h : Head) (recovered : List (Word × List Byte × List Byte))
  /-- DEFECT_SPAN_OPEN (09_read_channel R362). -/
  | defectSpanOpen (t : Time) (h : Head) (b : Beam) (psa : Word) (field bit : Nat)
  /-- SCURRY_READ (09_read_channel R350). -/
  | scurryRead (t : Time) (h : Head) (sectors : List (Word × List Byte × List Byte))
  /-- SPECULATIVE_PREFOCUS (11_spindle_sled_moves R434). -/
  | speculativePrefocus (t : Time) (h : Head)
  /-- SLOT_SAMPLE (10_loop_engine R379). -/
  | slotSample (t : Time) (slot : LoopId) (sample : LoopSample)
  /-- LOOP_SLOT_ENABLE (10_loop_engine R386). -/
  | loopSlotEnable (t : Time) (slot : LoopId) (on : Bool)
  /-- LOOP_APPLY (10_loop_engine R393). -/
  | loopApply (t : Time) (slot : LoopId)
  /-- LOOP_PARITY_ERROR (10_loop_engine R386). -/
  | loopParityError (t : Time) (slot : LoopId)
  /-- SLOT9_FSYNC_TIMEOUT (10_loop_engine R390). -/
  | slot9FsyncTimeout (t : Time)
  /-- STOPPED_SOURCE_REPORT (10_loop_engine R397). -/
  | stoppedSourceReport (t : Time) (h : Head)
  /-- SPINDLE_START (11_spindle_sled_moves R404). -/
  | spindleStart (t : Time) (sense : StartSense)
  /-- SPINDLE_START_RETRY (11_spindle_sled_moves R436). -/
  | spindleStartRetry (t : Time) (sense : StartSense)
  /-- SPEED_TARGET_REACHED (11_spindle_sled_moves R414). -/
  | speedTargetReached (t : Time)
  /-- COMPARATOR_TRIP (11_spindle_sled_moves R412). -/
  | comparatorTrip (t : Time) (blanked : Bool)
  /-- SPINDLE_STALL (11_spindle_sled_moves R413). -/
  | spindleStall (t : Time) (rpm : Nat)
  /-- SPINDLE_RESTART (11_spindle_sled_moves R437). -/
  | spindleRestart (t : Time) (sense : StartSense)
  /-- SPINDLE_STOP (11_spindle_sled_moves R415). -/
  | spindleStop (t : Time)
  /-- BRAKE_BELOW_THRESHOLD (11_spindle_sled_moves R415). -/
  | brakeBelowThreshold (t : Time)
  /-- BRAKE_HOLD_END (11_spindle_sled_moves R415). -/
  | brakeHoldEnd (t : Time)
  /-- SPINDLE_BRAKE_TIMEOUT (11_spindle_sled_moves R438). -/
  | spindleBrakeTimeout (t : Time) (rpm : Nat)
  /-- COAST_STOPPED (11_spindle_sled_moves R706). -/
  | coastStopped (t : Time)
  /-- WEDGE_LOCK_GAINED (11_spindle_sled_moves R409). -/
  | wedgeLockGained (t : Time) (offset : Int)
  /-- WEDGE_LOCK_LOST (11_spindle_sled_moves R409). -/
  | wedgeLockLost (t : Time)
  /-- SLED_SEEK (11_spindle_sled_moves R424). -/
  | sledSeek (t : Time) (h : Head) (radiusNm : Nat)
  /-- SEEK_SETTLED (11_spindle_sled_moves R425). -/
  | seekSettled (t : Time) (h : Head) (band : Option Nat)
  /-- SLED_SOURCE_SWITCH (11_spindle_sled_moves R423). -/
  | sledSourceSwitch (t : Time) (h : Head) (decoding : Bool)
  /-- FOCUS_CAPTURE (11_spindle_sled_moves R428). -/
  | focusCapture (t : Time) (h : Head) (attempts : List CaptureSense)
  /-- LAYER_JUMP (11_spindle_sled_moves R430). -/
  | layerJump (t : Time) (h : Head) (target : Nat)
  /-- TRACK_JUMP (11_spindle_sled_moves R431). -/
  | trackJump (t : Time) (h : Head) (outward : Bool)
  /-- PARK (11_spindle_sled_moves R427). -/
  | park (t : Time) (h : Head)
  /-- EMERGENCY_PARK (11_spindle_sled_moves R439). -/
  | emergencyPark (t : Time)
  /-- DOOR_SENSE_RISE (08_write_lanes R315). -/
  | doorSenseRise (t : Time)
  /-- LASER_ARM_DEASSERT (08_write_lanes R315). -/
  | laserArmDeassert (t : Time)
  /-- QUILL_RELEASE_WITHDRAW (14_quill_secure_start R515). -/
  | quillReleaseWithdraw (t : Time)
  /-- DOOR_DECLARED_OPEN (16_modes_coincidences R592). -/
  | doorDeclaredOpen (t : Time)
  /-- LASER_REENABLE (08_write_lanes R317). -/
  | laserReenable (t : Time) (h : Head)
  /-- HEAD_RECAPTURE (08_write_lanes R701). -/
  | headRecapture (t : Time) (h : Head) (attempts : List CaptureSense)
  /-- LDCFG_FRAME (18_balls_supplies R641). -/
  | ldcfgFrame (t : Time) (h : Head) (b : Beam) (level : Level) (code : BitVec 10) (echo1 echo2 : Word)
  /-- MAG_PRESENT_CHANGE (18_balls_supplies R650). -/
  | magPresentChange (t : Time) (present : Bool)
  /-- DDR5_READ_CORRECTED (05_drey_buffers R187). -/
  | ddr5ReadCorrected (t : Time) (burst : Nat) (beats : List (List (BitVec 4))) (newer : Bool)
  /-- DDR5_UNCORRECTABLE (05_drey_buffers R198). -/
  | ddr5Uncorrectable (t : Time) (burst : Nat) (region : DreyRegion)
  /-- SCRUB_READ (05_drey_buffers R192). -/
  | scrubRead (t : Time) (beats : List (List (BitVec 4))) (newer : Bool)
  /-- MEMORY_SELF_TEST (05_drey_buffers R190). -/
  | memorySelfTest (t : Time) (test : SelfTestSense)
  /-- CACHE_FILL_COMPLETE (06_volume_map_burrow R217). -/
  | cacheFillComplete (t : Time)
  /-- EVICTION_WRITEBACK (06_volume_map_burrow R220). -/
  | evictionWriteback (t : Time)
  /-- CACHE_PARITY_ERROR (06_volume_map_burrow R254). -/
  | cacheParityError (t : Time) (site : CacheSite) (byte : Byte) (parity : Bool)
  /-- BURROW_READBACK (06_volume_map_burrow R241). -/
  | burrowReadback (t : Time) (key mask : DWord) (valid : Bool)
  /-- BURROW_PROBE (06_volume_map_burrow R242). -/
  | burrowProbe (t : Time) (rows : List Nat)
  /-- BURROW_DELETE (06_volume_map_burrow R234). -/
  | burrowDelete (t : Time) (row : Nat)
  /-- BURROW_CONSOLIDATE (06_volume_map_burrow R237). -/
  | burrowConsolidate (t : Time)
  /-- BURROW_RESULT_PARITY (06_volume_map_burrow R255). -/
  | burrowResultParity (t : Time) (row : Nat)
  /-- PACE_WINDOW (12_handshake_fabric R442). -/
  | paceWindow (t : Time) (counts : List Nat)
  /-- PACE_TICK (12_handshake_fabric R443). -/
  | paceTick (t : Time)
  /-- PEER_RESET_ASSERT (12_handshake_fabric R460). -/
  | peerResetAssert (t : Time) (bridge : Nat) (side : Side) (items : Nat) (planned : Bool)
  /-- PEER_RESET_DEASSERT (12_handshake_fabric R463). -/
  | peerResetDeassert (t : Time) (bridge : Nat) (side : Side)
  /-- BRIDGE_OVERFLOW (12_handshake_fabric R457). -/
  | bridgeOverflow (t : Time) (bridge : Nat)
  /-- PLL_LOCK_LOSS (19_electrical_timing R686). -/
  | pllLockLoss (t : Time) (island : Island)
  /-- PLL_RELOCK (19_electrical_timing R686). -/
  | pllRelock (t : Time) (island : Island)
  /-- POWER_TRANSITION_START (13_power_states R478). -/
  | powerTransitionStart (t : Time)
  /-- POWER_TRANSITION_STEP_END (13_power_states R496). -/
  | powerTransitionStepEnd (t : Time)
  /-- TORPOR_HIBERNATE_EXIT (13_power_states R482). -/
  | torporHibernateExit (t : Time) (retentionOk katOk octalOk : Bool) (test : SelfTestSense) (rate width : Nat)
  /-- WAKE_PIN_EDGE (13_power_states R490). -/
  | wakePinEdge (t : Time) (second : Bool) (lowNs : Nat)
  /-- PSREQ_EDGE (13_power_states R473). -/
  | psreqEdge (t : Time) (lowNs : Nat) (pssel : Bool)
  /-- WAKE_REPLAY (13_power_states R489). -/
  | wakeReplay (t : Time)
  /-- WAKE_REARM (13_power_states R491). -/
  | wakeRearm (t : Time) (fn : FnId) (value : Word)
  /-- PGOOD_TIMEOUT (13_power_states R500). -/
  | pgoodTimeout (t : Time)
  /-- RAIL_ENABLE_RETRY (13_power_states R500). -/
  | railEnableRetry (t : Time)
  /-- PGOOD_FALL (18_balls_supplies R656). -/
  | pgoodFall (t : Time)
  /-- VCORE_LOW_DETECT (18_balls_supplies R636). -/
  | vcoreLowDetect (t : Time)
  /-- POWER_FAIL (16_modes_coincidences R584). -/
  | powerFail (t : Time) (lowNs : Nat)
  /-- PWRFAIL_DEASSERT (17_vole_management R611). -/
  | pwrfailDeassert (t : Time)
  /-- DEFERRED_PERST (19_electrical_timing R683). -/
  | deferredPerst (t : Time)
  /-- ACTIVATION_RESET (14_quill_secure_start R523). -/
  | activationReset (t : Time)
  /-- QUILL_FAULT (14_quill_secure_start R534). -/
  | quillFault (t : Time) (cls : Word)
  /-- RBG_FAIL (14_quill_secure_start R505). -/
  | rbgFail (t : Time)
  /-- VOLE_HEARTBEAT_TIMEOUT (17_vole_management R625). -/
  | voleHeartbeatTimeout (t : Time)
  /-- GROUP_M_START (15_bringup_calibration R537). -/
  | groupMStart (t : Time)
  /-- CAL_STEP_START (15_bringup_calibration R535). -/
  | calStepStart (t : Time) (step : Nat) (h : Head) (b : Beam)
  /-- CAL_STEP_END (15_bringup_calibration R535). -/
  | calStepEnd (t : Time) (step : Nat) (h : Head) (b : Beam) (m : CalMeasure)
  /-- CAL_PRECONDITION_LOST (15_bringup_calibration R552). -/
  | calPreconditionLost (t : Time) (step : Nat) (h : Head) (b : Beam) (mask : Word)
  /-- EXCURSION_START (16_modes_coincidences R575). -/
  | excursionStart (t : Time)
  /-- EXCURSION_END (16_modes_coincidences R577). -/
  | excursionEnd (t : Time)
  /-- MEDIA_SCRUB_READ (16_modes_coincidences R578). -/
  | mediaScrubRead (t : Time) (stripes : List (Nat × Nat × Bool))
  /-- FSYNC_EDGE (19_electrical_timing R675). -/
  | fsyncEdge (t : Time) (highNs : Nat) (angle : Nat)
  /-- LTC_FRAME_DECODED (19_electrical_timing R678). -/
  | ltcFrameDecoded (t : Time) (address : TimeAddress) (bitRate : Nat)
  /-- TIMECODE_LOSS (19_electrical_timing R678). -/
  | timecodeLoss (t : Time)
  /-- EVENT_PENDING_CLEAR (04_command_packets R136). -/
  | eventPendingClear (t : Time) (fn : FnId) (value : Word)
  /-- COMMIT_POINT_READ32 (04_command_packets R132). -/
  | commitPointRead32 (t : Time) (fn : FnId)
  /-- DEFICIT_READ32 (04_command_packets R132). -/
  | deficitRead32 (t : Time) (fn : FnId)
  /-- CAPTURED_FIELD_READ (04_command_packets R132). -/
  | capturedFieldRead (t : Time) (fn : FnId) (offset : Nat)
  /-- REGISTER_WRITE (00_scope R9). -/
  | registerWrite (t : Time) (space : RegSpace) (offset : Nat) (value : Word)
  /-- SENSOR_SAMPLE (17_vole_management R602). -/
  | sensorSample (t : Time) (reading : SensorReading)
  /-- LOG_PROGRAM (17_vole_management R607). -/
  | logProgram (t : Time) (ok : Bool)
  /-- LOG_WINDOW_END (17_vole_management R608). -/
  | logWindowEnd (t : Time)
  /-- I2C_POINTER_WRITE (17_vole_management R616). -/
  | i2cPointerWrite (t : Time) (data : List Byte)
  /-- LOG_PTR_WRITE (17_vole_management R617). -/
  | logPtrWrite (t : Time) (value : DWord)
  /-- LOG_RECORD_READ_END (17_vole_management R617). -/
  | logRecordReadEnd (t : Time)
  /-- I2C_TRANSACTION_TIMEOUT (17_vole_management R618). -/
  | i2cTransactionTimeout (t : Time) (address : BitVec 7)
  /-- I2C_ADDRESS_RETRY (17_vole_management R619). -/
  | i2cAddressRetry (t : Time) (address : BitVec 7) (ok : Bool)
  /-- UART_COMMAND (17_vole_management R622). -/
  | uartCommand (t : Time) (payload : List Byte) (scan : MountScan) (mapAddr : BitVec 31)
  /-- UART_BAUD (17_vole_management R620). -/
  | uartBaud (t : Time) (payload : List Byte)
  /-- LK_PROGRAM (14_quill_secure_start R506). -/
  | lkProgram (t : Time) (payload : List Byte) (readBackOk : Bool)
  /-- ARCHIVE_WRITE (17_vole_management R623). -/
  | archiveWrite (t : Time) (payload : List Byte)
  /-- ARCHIVE_COMMIT (17_vole_management R623). -/
  | archiveCommit (t : Time) (flashOk : Bool)
  /-- LOG_READ (17_vole_management R620). -/
  | logRead (t : Time) (payload : List Byte)
  /-- UART_BAD_FRAME (17_vole_management R621). -/
  | uartBadFrame (t : Time) (crcFailed : Bool)
  /-- UART_FRAME_GAP (17_vole_management R620). -/
  | uartFrameGap (t : Time)
  /-- VAON_POWER_UP (12_handshake_fabric R700). -/
  | vaonPowerUp (t : Time)
  /-- DATA_FIELD_READ (09_read_channel R340). -/
  | dataFieldRead (t : Time) (h : Head) (b : Beam) (f : FieldSense)
  /-- DEFECT_SPAN_CLOSE (09_read_channel R362). -/
  | defectSpanClose (t : Time) (h : Head) (b : Beam) (field bit : Nat)
  /-- JTAG_TAP_ACCESS (14_quill_secure_start R529). -/
  | jtagTapAccess (t : Time) (tap : TapInstr)
deriving DecidableEq, Repr

end Sys2Proof
end

