-- ==== Sys2Proof/Decode.lean ====
section
/-! DEFINITION. The command a table word spells. The opcode table of this block gives no row any bits, so no word
spells a command; the bit layout of submission entries, which are operands, is in Machine/Operands.lean. -/

namespace Sys2Proof

/-- No row of spec/opcode_table.json gives bits, so no word spells a command. -/
def decodeTableWord (_nbits _w : Nat) : Option Instr := none

end Sys2Proof
end

