-- ==== Sys2Proof/Machine/Geometry.lean ====
section
/-! DEFINITION. The geometry of a Hendun H1 magazine (01_hendun_medium): zones, bands, slots, stripes, addresses and the
order of the counter-sweep. -/

namespace Sys2Proof.Machine

/-- Channel bits of the data field of zone `z` (R13, Table 1.2). -/
def fieldBits (z : Nat) : Nat := 3193 + 163 * z

/-- The channel rate of zone `z` in bit/s at a spindle speed: D_z × 216,000 at 10,800 rpm, and in proportion to the speed
(R13). -/
def channelRate (z rpm : Nat) : Nat := fieldBits z * 20 * rpm

/-- Tracks of a layer (R10). -/
def layerTracks : Nat := 156384

/-- The track that beam `b` of a band lies on, in both directions of sweep (R12). -/
def trackOf (band : Nat) (b : Beam) : Nat := 18 * band + b.val

/-- The centre of track `t` of a layer in nm, rounded down: 32.0 + 38.0 × (t + 0.5) / 156,384 mm (R689). -/
def trackRadius (t : Nat) : Nat := 32000000 + 38000000 * (2 * t + 1) / (2 * layerTracks)

/-- The track pitch in pm, rounded down: 38,000 / 156,384 µm (R689). -/
def trackPitch : Nat := 38000000000 / layerTracks

/-- The band pitch in pm, rounded down: 38,000 / 8,688 µm (R689). -/
def bandPitch : Nat := 38000000000 / 8688

/-- The identity band of L00 of each side, from its inner to its outer radius in nm (R10, Table 1.1). -/
def identityBand : Nat × Nat := (31000000, 32000000)

/-- Payload bits of a field of zone `z` (R16). -/
def payloadBits (z : Nat) : Nat := fieldBits z - 64

/-- Stripe groups of zone `z` (Table 1.2). -/
def groupsOf (z : Nat) : Nat := 115 + 6 * z

/-- Channel bits of a sector (R17). -/
def sectorLen : Nat := 314480

/-- Head `h` sweeps outward on `layer` (R25). -/
def outward (h : Head) (layer : Nat) : Bool :=
  match h with
  | .a => layer % 2 == 0
  | .b => layer % 2 == 1

/-- The zone a head is in after it has swept `swept` zones of the layer (R25). -/
def zoneOf (h : Head) (layer swept : Nat) : Nat :=
  if outward h layer then swept else 23 - swept

/-- The band of revolution index `r` of zone `z` (R12). -/
def bandOf (h : Head) (layer z r : Nat) : Nat :=
  if outward h layer then 362 * z + r else 362 * z + 361 - r

/-- The member of slot `n` on beam `b` (R19). -/
def memberOf (n : Nat) (b : Beam) : Nat := (n + b.val) % 3

/-- The stripe position of slot `n` (R19). -/
def posOf (n : Nat) : Nat := n % 36 / 3

/-- The slot of a group, 0 to 35, that holds position `k` of member `m` on beam `b` (R19). -/
def slotOf (m k : Nat) (b : Beam) : Nat :=
  3 * k + (m + 18 - b.val) % 3

/-- The rank of beam `b` among the live beams of a stripe's shape (R21). -/
def rankOf (dead : Option Beam) (b : Beam) : Nat :=
  match dead with
  | none => b.val
  | some d => if d.val < b.val then b.val - 1 else b.val

/-- The beam of rank `r` in a stripe's shape (R20, R21). -/
def beamOfRank (dead : Option Beam) (r : Nat) : Beam :=
  match dead with
  | none => Fin.ofNat 18 r
  | some d => if r < d.val then Fin.ofNat 18 r else Fin.ofNat 18 (r + 1)

/-- Live beams of a shape (R21). -/
def liveOf (dead : Option Beam) : Nat :=
  match dead with
  | none => 18
  | some _ => 17

/-- Data sectors of a stripe of a shape (R20, R21). -/
def dataOf (dead : Option Beam) : Nat := 12 * liveOf dead - 24

/-- The order index of position `k` on beam `b` (R20, R21). -/
def orderIndex (dead : Option Beam) (k : Nat) (b : Beam) : Nat := liveOf dead * k + rankOf dead b

/-- The first field, counted in the zone, of the first slot of group `g` (R22). -/
def groupField (z g : Nat) : Nat := 36 * g * sectorLen / payloadBits z

/-- The revolution of the layer in which the first slot of group `g` begins (R22, R41). -/
def groupRev (h : Head) (layer swept g : Nat) : Nat :=
  362 * swept + groupField (zoneOf h layer swept) g / 1152

/-- The revolution of the layer in which the last slot of group `g` ends (R22). -/
def groupEndRev (h : Head) (layer swept g : Nat) : Nat :=
  362 * swept + (36 * (g + 1) * sectorLen - 1) / payloadBits (zoneOf h layer swept) / 1152

/-- The start of group `g` after the start of the layer, in fields at the mean rate, as numerator and denominator
(R27). -/
def groupStart (h : Head) (layer swept g : Nat) : Nat × Nat :=
  let p := payloadBits (zoneOf h layer swept)
  (1152 * 362 * swept * p + 36 * g * sectorLen, p)

/-- Head A's next group begins no later than head B's (R27); a tie goes to head A. -/
def startsFirst (a b : Nat × Nat) : Bool := decide (a.1 * b.2 ≤ b.1 * a.2)

/-- The number of a head in records and addresses. -/
def Head.num (h : Head) : Nat :=
  match h with
  | .a => 0
  | .b => 1

/-- The other head. -/
def Head.other (h : Head) : Head :=
  match h with
  | .a => .b
  | .b => .a

/-- The index of a beam in log records: 0 to 17 for head A, 18 to 35 for head B (R605). -/
def beamIndex (h : Head) (b : Beam) : Nat := 18 * Head.num h + b.val

/-- A physical sector address (R30, Table 1.7). -/
def psaOf (h : Head) (layer zone group member : Nat) (b : Beam) (k : Nat) : Word :=
  BitVec.ofNat 32 (Head.num h * 2 ^ 31 + layer * 2 ^ 27 + zone * 2 ^ 22 + group * 2 ^ 13 + member * 2 ^ 11 +
    b.val * 2 ^ 6 + k * 2 ^ 2)

/-- The head of a PSA (R30). -/
def psaHead (p : Word) : Head := if p.toNat / 2 ^ 31 % 2 = 0 then .a else .b

/-- The layer of a PSA (R30). -/
def psaLayer (p : Word) : Nat := p.toNat / 2 ^ 27 % 16

/-- The zone of a PSA (R30). -/
def psaZone (p : Word) : Nat := p.toNat / 2 ^ 22 % 32

/-- The group of a PSA (R30). -/
def psaGroup (p : Word) : Nat := p.toNat / 2 ^ 13 % 512

/-- The member of a PSA (R30). -/
def psaMember (p : Word) : Nat := p.toNat / 2 ^ 11 % 4

/-- The beam of a PSA (R30). -/
def psaBeam (p : Word) : Beam := Fin.ofNat 18 (p.toNat / 2 ^ 6 % 32)

/-- The position of a PSA (R30). -/
def psaPos (p : Word) : Nat := p.toNat / 2 ^ 2 % 16

/-- The fields of a wedge (R14, Table 1.3). -/
inductive WedgeField where
  | servoPreamble
  | addressMark
  | wedgeAddress
  | blankField
  | burstA
  | burstB
  | tiltMark
  | wedgePostamble
deriving DecidableEq, Repr

/-- The length of a wedge field in servo bits (Table 1.3). -/
def WedgeField.bits (f : WedgeField) : Nat :=
  match f with
  | .servoPreamble => 12
  | .addressMark => 8
  | .wedgeAddress => 60
  | .blankField => 16
  | .burstA => 8
  | .burstB => 8
  | .tiltMark => 8
  | .wedgePostamble => 8

/-- The fields of a wedge in the order in which they pass (Table 1.3). -/
def wedgeLayout : List WedgeField :=
  [.servoPreamble, .addressMark, .wedgeAddress, .blankField, .burstA, .burstB, .tiltMark, .wedgePostamble]

/-- Servo bits of a wedge (R14). -/
def wedgeBits : Nat := (wedgeLayout.map WedgeField.bits).sum

/-- The servo bit at which a field of a wedge begins (Table 1.3). -/
def WedgeField.start (f : WedgeField) : Nat := ((wedgeLayout.takeWhile (· != f)).map WedgeField.bits).sum

/-- The servo bit rate in bit/s at a spindle speed: 663.552 Mbit/s at 10,800 rpm, whatever the zone (R14). -/
def servoRate (rpm : Nat) : Nat := 61440 * rpm

/-- Gray code of `n`, for the band number of a wedge (R15). -/
def gray (n : Nat) : Nat := Nat.xor n (n / 2)

/-- The 30 wedge address bits as a number, first transmitted bit highest (R15). -/
def wedgeAddress (h : Head) (layer band wedge : Nat) : Nat :=
  Head.num h * 2 ^ 29 + layer * 2 ^ 25 + gray band * 2 ^ 11 + wedge

/-- The 30 wedge address bits in the order in which they are sent (R15). -/
def wedgeAddressBits (h : Head) (layer band wedge : Nat) : List Bool :=
  (List.range 30).map fun i => (wedgeAddress h layer band wedge).testBit (29 - i)

/-- The radii that a band covers, in nm, rounded down (R689). -/
def bandEdges (band : Nat) : Nat × Nat := (32000000 + 38000000 * band / 8688, 32000000 + 38000000 * (band + 1) / 8688)

/-- The radius of the middle of a band, in nm (R689). -/
def bandRadius (band : Nat) : Nat := 32000000 + 38000000 * (2 * band + 1) / (2 * 8688)

/-- Where slot `n` of a zone begins: its field, counted from the zone's first, and its payload bit there (R22). -/
def slotStart (z n : Nat) : Nat × Nat := (n * sectorLen / payloadBits z, n * sectorLen % payloadBits z)

/-- When payload bit `j` of field `f` begins after the zone's start at record speed, exactly, in units of
1 / (207,360 × 25 × D_z) s (R690): f + 0.04 + 0.96 × (56 + j) / D_z wedge intervals. -/
def payloadTime (z f j : Nat) : Nat := 25 * fieldBits z * f + fieldBits z + 24 * (56 + j)

/-- When payload bit `j` of field `f` of the zone that follows `swept` zones of the layer begins, in ns after the start of
the layer at record speed, rounded down (R27, R690). -/
def layerNs (h : Head) (layer swept f j : Nat) : Nat :=
  let z := zoneOf h layer swept
  (1152 * 362 * swept * (25 * fieldBits z) + payloadTime z f j) * 1000000000 / (207360 * (25 * fieldBits z))

/-- When slot `n` of a zone begins, in ns after the start of the layer (R22, R690). -/
def slotBeginNs (h : Head) (layer swept n : Nat) : Nat :=
  let p := slotStart (zoneOf h layer swept) n
  layerNs h layer swept p.1 p.2

/-- When the last channel bit of slot `n` of a zone has passed, in ns after the start of the layer (R22, R690). -/
def slotEndNs (h : Head) (layer swept n : Nat) : Nat :=
  let last := (n + 1) * sectorLen - 1
  let p := payloadBits (zoneOf h layer swept)
  layerNs h layer swept (last / p) (last % p + 1)

/-- A wedge interval at record speed in ns, rounded up (R10, R690). -/
def wedgeNs : Nat := 4823

/-- The time of the fields `n` from a zone's start, in ns at record speed, rounded down: a wedge interval is
1/207,360 s (R690). -/
def fieldsNs (n : Nat) : Nat := n * 1000000000 / 207360

/-- Sectors that `bytes` bytes of a frame occupy (R33). -/
def sectorsOf (bytes : Nat) : Nat := (bytes + 32767) / 32768

end Sys2Proof.Machine
end

