-- ==== Sys2Proof/Machine/Codec.lean ====
section
/-! DEFINITION. The codes of the T36: CRC-32, Reed-Solomon codes over GF(2^8), the LDPC code, the modulation code and
sector headers (01_hendun_medium, 05_drey_buffers, 07_stripe_codec_crypto). -/

namespace Sys2Proof.Machine

/-- One bit of the reflected CRC-32 (R694). -/
def crcBit (c : BitVec 32) : BitVec 32 :=
  if c.getLsbD 0 then (c >>> 1) ^^^ 0xEDB88320#32 else c >>> 1

/-- One byte of the CRC-32 (R694). -/
def crcByte (c : BitVec 32) (b : Byte) : BitVec 32 :=
  let x := c ^^^ (b.zeroExtend 32)
  crcBit (crcBit (crcBit (crcBit (crcBit (crcBit (crcBit (crcBit x)))))))

/-- The CRC-32 of R694. -/
def crc32 (bs : List Byte) : Word := (bs.foldl crcByte 0xFFFFFFFF#32) ^^^ 0xFFFFFFFF#32

/-- Multiplication by α = 0x02 in the field of R183 (x^8 + x^4 + x^3 + x^2 + 1). -/
def gfDouble (a : Byte) : Byte := (a <<< 1) ^^^ (if a.getLsbD 7 then 0x1D#8 else 0#8)

/-- Product in GF(2^8) by the bits of `b` below `n`, from the highest down. -/
def gfMulAux (a b : Byte) : Nat → Byte
  | 0 => 0#8
  | n + 1 => gfDouble (gfMulAux a (b >>> 1) n) ^^^ (if b.getLsbD 0 then a else 0#8)

/-- Product in the field of R183. -/
def gfMul (a b : Byte) : Byte := gfMulAux a b 8

/-- A power in GF(2^8). -/
def gfPow (a : Byte) : Nat → Byte
  | 0 => 1#8
  | n + 1 => gfMul (gfPow a n) a

/-- The inverse of a non-zero element: its 254th power. -/
def gfInv (a : Byte) : Byte := gfPow a 254

/-- α to the power `n`. -/
def alpha (n : Nat) : Byte := gfPow 0x02#8 (n % 255)

/-- Polynomials are lists of coefficients, highest power first. Product by (x − r). -/
def polyMulRoot (p : List Byte) (r : Byte) : List Byte :=
  List.zipWith (· ^^^ ·) (p ++ [0#8]) (0#8 :: p.map (gfMul r))

/-- The generator ∏(x − α^i) for i below `n` (R183, R258, R262). -/
def rsGenerator : Nat → List Byte
  | 0 => [1#8]
  | n + 1 => polyMulRoot (rsGenerator n) (alpha n)

/-- One step of systematic division: the remainder register takes the next data symbol. -/
def rsShift (g : List Byte) (r : List Byte) (d : Byte) : List Byte :=
  let f := d ^^^ r.headD 0#8
  List.zipWith (fun x y => x ^^^ gfMul f y) (r.drop 1 ++ [0#8]) (g.drop 1)

/-- The `n` check symbols of a systematic Reed-Solomon code, highest power first; `data` is highest power first. -/
def rsCheck (n : Nat) (data : List Byte) : List Byte :=
  data.foldl (rsShift (rsGenerator n)) (List.replicate n 0#8)

/-- The value of a polynomial at `x` (Horner). -/
def polyEval (p : List Byte) (x : Byte) : Byte := p.foldl (fun acc c => gfMul acc x ^^^ c) 0#8

/-- The syndromes S_0 to S_(n-1) of a received word, highest power first. -/
def rsSyndromes (n : Nat) (w : List Byte) : List Byte := (List.range n).map fun i => polyEval w (alpha i)

/-- Solve for the values at known positions: Gaussian elimination over GF(2^8) of rows [coefficients | value]. -/
def gfEliminate : Nat → List (List Byte) → List (List Byte) → Option (List (List Byte))
  | 0, done, _ => some done.reverse
  | n + 1, done, rows =>
    match rows.find? (fun r => r.headD 0#8 != 0#8) with
    | none => none
    | some p =>
      let rest := rows.erase p
      let inv := gfInv (p.headD 0#8)
      let p' := p.map (gfMul inv)
      let sub := fun r : List Byte => List.zipWith (fun x y => x ^^^ gfMul (r.headD 0#8) y) r p'
      gfEliminate n (p'.drop 1 :: done) (rest.map fun r => (sub r).drop 1)

/-- Back substitution: `rows`, last first, give the unknowns in order. -/
def gfBack : List (List Byte) → List Byte → List Byte
  | [], sol => sol
  | r :: rs, sol =>
    let rhs := r.getLastD 0#8
    let v := (List.zipWith gfMul (r.dropLast) sol).foldl (· ^^^ ·) rhs
    gfBack rs (v :: sol)

/-- The error values at the powers `locs` of x that produce the syndromes `syn`, where they exist. -/
def rsSolve (locs : List Nat) (syn : List Byte) : Option (List Byte) :=
  let rows := (List.range locs.length).map fun i =>
    (locs.map fun l => alpha (i * l)) ++ [syn.getD i 0#8]
  (gfEliminate locs.length [] rows).map fun rs => gfBack rs.reverse []

/-- A word with values added at powers of x; the word has length `len`, highest power first. -/
def rsFix (w : List Byte) (locs : List Nat) (vals : List Byte) : List Byte :=
  (List.zip locs vals).foldl (fun acc lv =>
    let i := w.length - 1 - lv.1
    acc.set i (acc.getD i 0#8 ^^^ lv.2)) w

/-- Try to explain the word by errors exactly at `locs` (powers of x): the corrected word if all `n` syndromes then
vanish. -/
def rsTry (n : Nat) (w : List Byte) (locs : List Nat) : Option (List Byte) :=
  match rsSolve locs (rsSyndromes n w) with
  | none => none
  | some vals =>
    let w' := rsFix w locs vals
    if (rsSyndromes n w').all (· == 0#8) then some w' else none

/-- The sets of `v` positions out of a list. -/
def choose {α : Type} : Nat → List α → List (List α)
  | 0, _ => [[]]
  | _ + 1, [] => []
  | v + 1, x :: xs => (choose v xs).map (x :: ·) ++ choose (v + 1) xs

/-- First success in a list of candidates. -/
def firstSome {α β : Type} (f : α → Option β) : List α → Option β
  | [] => none
  | x :: xs =>
    match f x with
    | some y => some y
    | none => firstSome f xs

/-- Bounded-distance decoding with erasures: the code word that differs from the received one in the erased places
and in the fewest further places, at most `v` of them (R265, R258, R185, R186). -/
def rsDecode (n : Nat) (w : List Byte) (erased : List Nat) (v : Nat) : Option (List Byte) :=
  let free := (List.range w.length).filter (fun l => !erased.contains l)
  firstSome (fun k => firstSome (fun e => rsTry n w (erased ++ e)) (choose k free)) (List.range (v + 1))

/-- The 64 check bytes of a header: header bytes 63 to 0 are the highest powers (R258). Coded byte 64 is the
coefficient of x^63 (log entry 31). -/
def headerCheck (hdr : List Byte) : List Byte := rsCheck 64 hdr.reverse

/-- The 128 coded bytes of a header (R258). -/
def headerCode (hdr : List Byte) : List Byte := hdr ++ headerCheck hdr

/-- The check symbols c3, c2, c1, c0 of a DDR5 codeword; data bytes 15 to 0 are the highest powers (R183). -/
def ddrCheck (data : List Byte) : List Byte := rsCheck 4 data.reverse

/-- The codeword of 16 data bytes as its 20 coefficients, highest power first (R183). -/
def ddrWord (data : List Byte) : List Byte := data.reverse ++ ddrCheck data

/-- The device whose symbol is the coefficient of x^p: check symbols c0 to c3 are p = 0 to 3, data byte i is
p = i + 4 (Table 5.4). -/
def ddrDevice (p : Nat) : Nat :=
  if p < 2 then 8 + p else if p < 4 then 16 + p else if p < 12 then p - 4 else p - 2

/-- The coefficient that a device carries (Table 5.4). -/
def ddrPower (d : Nat) : Nat :=
  if d < 8 then d + 4 else if d < 10 then d - 8 else if d < 18 then d + 2 else d - 16

/-- The symbol that a device gives on the two beats of a pair: bits [3:0] are its DQ0 to DQ3 on the first beat, bits [7:4]
on the second (R184). -/
def ddrSymbol (first second : BitVec 4) : Byte := BitVec.ofNat 8 (first.toNat + 16 * second.toNat)

/-- What a device drives on the first and the second beat for a symbol (R184). -/
def ddrDq (x : Byte) : BitVec 4 × BitVec 4 := (BitVec.ofNat 4 x.toNat, BitVec.ofNat 4 (x.toNat / 16))

/-- The codeword of a beat pair, its 20 coefficients highest power first, from what the 20 devices drive on its two beats
(R184, Table 5.4). -/
def ddrReceived (first second : List (BitVec 4)) : List Byte :=
  (List.range 20).map fun i => ddrSymbol (first.getD (ddrDevice (19 - i)) 0) (second.getD (ddrDevice (19 - i)) 0)

/-- The codewords of a burst, one for each of its beat pairs, in order (R184). -/
def ddrWords : List (List (BitVec 4)) → List (List Byte)
  | a :: b :: rest => ddrReceived a b :: ddrWords rest
  | _ => []

/-- What the 20 devices drive on the two beats of a codeword (R184, Table 5.4). -/
def ddrBeats (w : List Byte) : List (BitVec 4) × List (BitVec 4) :=
  let sym := fun d : Nat => w.getD (19 - ddrPower d) 0
  ((List.range 20).map fun d => (ddrDq (sym d)).1, (List.range 20).map fun d => (ddrDq (sym d)).2)

/-- The odd-parity bit of a byte of the SRAM pool or of a codeword buffer: the nine bits hold an odd number of ones, so an
all-zero byte has 1 (R189). -/
def oddParity (b : Byte) : Bool := (List.range 8).foldl (fun acc i => acc != b.getLsbD i) true

/-- The check made on every read of a byte with its parity bit fails (R189). -/
def parityFails (b : Byte) (parity : Bool) : Bool := parity != oddParity b

/-- The parity symbols of one byte column of a stripe, in the order of their order indices: order index i is the
coefficient of x^(N−1−i) (R262). -/
def outerCheck (column : List Byte) : List Byte := rsCheck 24 column

/-- The blocks of the LDPC base matrix in data column `j`: block row and shift (R260). -/
def ldpcBlocks (j : Nat) : List (Nat × Nat) :=
  (List.range 3).map fun t =>
    let r := (j + 3 * t + j / 8) % 8
    (r, (19 * r * (j + 1) + 7 * j) % 512)

/-- Bit `i` of a list of bytes: bit 8m + t is bit t of byte m (R259). -/
def bitOf (bs : List Byte) (i : Nat) : Bool := (bs.getD (i / 8) 0#8).getLsbD (i % 8)

/-- The sum over the data blocks of block row `r`, at row `x` (R259, R260). -/
def ldpcSum (data : List Byte) (r x : Nat) : Bool :=
  (List.range 64).foldl (fun acc j =>
    (ldpcBlocks j).foldl (fun a b => if b.1 = r then Bool.xor a (bitOf data (512 * j + (x + b.2) % 512)) else a) acc) false

/-- Block `m` of the parity bits at row `x` (R261): the first block is the sum of all block rows; the dual diagonal
gives the others. -/
def ldpcParity (data : List Byte) : Nat → Nat → Bool
  | 0, x => (List.range 8).foldl (fun acc r => Bool.xor acc (ldpcSum data r x)) false
  | 1, x => Bool.xor (ldpcSum data 0 x) (ldpcParity data 0 ((x + 1) % 512))
  | m + 2, x =>
    let below := Bool.xor (ldpcSum data (m + 1) x) (ldpcParity data (m + 1) x)
    if m + 1 = 4 then Bool.xor below (ldpcParity data 0 x) else below

/-- A byte from its bits. -/
def byteOf (f : Nat → Bool) : Byte :=
  BitVec.ofNat 8 ((List.range 8).foldl (fun acc t => if f t then acc + 2 ^ t else acc) 0)

/-- The 512 parity bytes of a codeword (R259, R261). -/
def ldpcCheck (data : List Byte) : List Byte :=
  (List.range 512).map fun m => byteOf fun t => ldpcParity data ((8 * m + t) / 512) ((8 * m + t) % 512)

/-- The longest run of ones among the low `n` bits of a word, from the highest down, with the run in progress. -/
def runOnes (w : Nat) : Nat → Nat → Nat → Nat
  | 0, cur, best => max cur best
  | n + 1, cur, best =>
    if w.testBit n then runOnes w n (cur + 1) best else runOnes w n 0 (max cur best)

/-- The flag and body of the channel word of an input word (R257). -/
def modulateWord (u : Nat) : Bool × Nat :=
  let c1 := Nat.xor u 0xAAAA
  if runOnes c1 16 0 0 < runOnes u 16 0 0 then (true, c1) else (false, u)

/-- The 17 channel bits of a word, flag first, then bits 15 down to 0 (R257). -/
def channelWord (u : Nat) : List Bool :=
  let m := modulateWord u
  m.1 :: (List.range 16).map fun i => m.2.testBit (15 - i)

/-- The channel bits of a coded block, as 16-bit words of byte 2m and 256 × byte 2m+1 (R257). -/
def modulate : List Byte → List Bool
  | a :: b :: rest => channelWord (a.toNat + 256 * b.toNat) ++ modulate rest
  | [a] => channelWord a.toNat
  | [] => []

/-- The NRZI level after each channel bit: a channel 1 is a transition (R257, R294). -/
def nrzi (start : Bool) : List Bool → List Bool
  | [] => []
  | b :: bs => Bool.xor start b :: nrzi (Bool.xor start b) bs

/-- The bits of a pattern of `n` bits, from the most significant one first (R335). -/
def patternBits (n v : Nat) : List Bool := (List.range n).map fun i => v.testBit (n - 1 - i)

/-- The preamble of a data field (Table 9.2). -/
def preamble : List Bool := patternBits 32 0x88888888

/-- The field sync (Table 9.2). -/
def fieldSync : List Bool := patternBits 16 0xE46B

/-- The sector mark (Table 9.2). -/
def sectorMark : List Bool := patternBits 48 0x6D2CF1174BA0

/-- Channel bits of the gap and of the postamble of a data field (Table 1.4). -/
def gapBits : Nat := 8

/-- The channel bits of a data field from its preamble to the end of its payload (R16): the gap before them and the
postamble after them, 8 bits each, have no stated content. -/
def fieldChannel (payload : List Bool) : List Bool := preamble ++ fieldSync ++ payload

/-- The NRZI levels of a data field from the first bit of its preamble on: that bit is at space level, false, and the payload
continues the state left by the field sync (R294, log entry 151). -/
def fieldLevels (payload : List Bool) : List Bool := nrzi true (fieldChannel payload)

/-- A sector type (Table 1.6). -/
def kindType (t : Nat) : Byte := BitVec.ofNat 8 t

/-- The header of a sector (Table 1.6): LSN, PSA, stripe sequence, type, nonce and tag, with its CRC. -/
def headerOf (lsn psa seq : Nat) (ty : Byte) (nonce tag : List Byte) : List Byte :=
  let body := Word.toBytesLE 4 lsn ++ Word.toBytesLE 4 psa ++ Word.toBytesLE 4 seq ++ [ty, 0, 0, 0] ++ nonce ++ tag ++
    Word.zeros 16
  body ++ Word.toBytesLE 4 (crc32 body).toNat

/-- A nonce: session number and sector write counter (R269). -/
def nonceOf (session counter : Nat) : List Byte := Word.toBytesLE 4 session ++ Word.toBytesLE 8 counter

/-- A header whose CRC is right (R45). -/
def headerOk (hdr : List Byte) : Bool :=
  hdr.length == 64 && Word.fieldLE hdr 60 4 == (crc32 (hdr.take 60)).toNat

/-- A header that is right and names the place it is read from (R45, R46). -/
def headerAt (hdr : List Byte) (psa : Word) : Bool :=
  headerOk hdr && Word.fieldLE hdr 4 4 == psa.toNat

/-- The 36,992 coded bytes of a sector: coded header, then eight codewords (R17, R256 step 5). -/
def encodeSector (hdr payload : List Byte) : List Byte :=
  headerCode hdr ++ (List.range 8).flatMap fun c =>
    let d := (payload.drop (4096 * c)).take 4096
    d ++ ldpcCheck d

/-- The 314,480 channel bits of a sector: its mark, which lies outside the modulation code, then the modulated header and
codewords (R17, R256 step 6). -/
def sectorChannel (hdr payload : List Byte) : List Bool := sectorMark ++ modulate (encodeSector hdr payload)

/-- The pieces that a stream of payload bits is cut into from payload bit `j` of a field of zone `z` on, one for each data
field that holds a fragment; `n` bounds the fields (R16, R22). -/
def fragments (z : Nat) : Nat → Nat → List Bool → List (List Bool)
  | 0, _, _ => []
  | n + 1, j, bits =>
    if bits.isEmpty then [] else bits.take (payloadBits z - j) :: fragments z n 0 (bits.drop (payloadBits z - j))

end Sys2Proof.Machine
end

