-- ==== Sys2Proof/Config.lean ====
section
/-! DEFINITION. What the spec fixes for every part (constants of its tables) and the free values: results the spec leaves
open, as constants with no body, so that nothing can be proved of what they are (log entry 8). -/

namespace Sys2Proof.Config

/-- Bytes of the frame pool, C_F (05_drey_buffers, "Frame slots"). -/
def framePool : Nat := 15233712128

/-- Bytes of user data in a sector (R33). -/
def sectorBytes : Nat := 32768

/-- Channel bits of a sector (R17). -/
def sectorBits : Nat := 314480

/-- Data slots of a magazine (R35). -/
def magazineSlots : Nat := 61046784

/-- Bursts that a full scrub pass covers: the first 18 GiB (R162, R192). -/
def scrubBursts : Nat := 150994944

/-- Offset of the review pool (R161, Table 5.1). -/
def reviewBase : Nat := 0x38C000000

/-- Offset of the Scurry area (Table 5.1). -/
def scurryBase : Nat := 0x3CC000000

/-- Offset of the side pool (Table 5.1). -/
def sideBase : Nat := 0x3EC000000

/-- Offset of stripe assembly (Table 5.1). -/
def assemblyBase : Nat := 0x3FC000000

/-- Offset of the internal region (Table 5.1). -/
def internalBase : Nat := 0x400000000

/-- Bytes of the volume map, at offset 0 of the internal region (R204, Table 6.1). -/
def mapBytes : Nat := 0x50000000

/-- Offset in the internal region of the Burrow lists, whose first 64 MiB hold the relocation list (Table 6.1). -/
def listsOffset : Nat := 0x50000000

/-- Offset in the internal region of the processors' working memory (Table 6.1). -/
def workingOffset : Nat := 0x58000000

/-- Offset in the internal region of the self-test area of step 4 of Table 5.5, 64 MiB long (Table 6.1). -/
def testOffset : Nat := 0x7C000000

/-- Bytes of the DDR5 capacity that the T36 uses: the first 18 GiB (R162). -/
def dramBytes : Nat := 0x480000000

/-- Sectors of slot staging, and parity sectors of the accumulators, of each head (R163, Table 5.2). -/
def stagingSectors : Nat := 36

/-- Sectors of decrypt holding (Table 5.2). -/
def holdingSectors : Nat := 128

/-- Bytes of an encoded sector in slot staging: the 64-byte header and eight codewords of 4,608 bytes (Table 5.2, R259). -/
def stagedBytes : Nat := 36928

/-- Bytes of encode working memory (Table 5.2). -/
def workingBytes : Nat := 2097152

/-- Free value: whether the refresh field that a DDR5 device reports in MR4 says that it is above 85 °C (Table 5.3); the
coding of that field is the device's, and stands in no section. -/
opaque mr4Hot : BitVec 8 → Bool

/-- Review units of 32 KiB in one function's reserve of 256 MiB, and in the shared part (R170). -/
def reviewUnits : Nat := 8192

/-- Side-pool units of 4 KiB in 256 MiB (R171). -/
def sideUnits : Nat := 65536

/-- Rows of Burrow without its spares (06_volume_map_burrow). -/
def burrowRows : Nat := 4096

/-- Rows of Burrow with its 64 spares (R239). -/
def burrowPhysical : Nat := 4160

/-- Entries of a full relocation list (R238). -/
def relocListMax : Nat := 4194304

/-- Steps of the spindle's and the part's times in ns. -/
def ms (n : Nat) : Time := n * 1000000

/-- Free value: the reading with n draws before it of a PWRFAIL_N low between 0.5 µs and 1 µs, which may be
accepted or ignored (R682). -/
opaque pwrfailShort : Nat → Bool

/-- Free value: whether a PERST_N low between 1 µs and the 100 µs the integrator must hold is acted on (R671). -/
opaque perstShort : Nat → Bool

/-- Free value: what the decoder delivers for a codeword with four or more erroneous symbols, by its 20 received
symbols (R185, R186): nothing (detected), or some data bytes. -/
opaque beyondReach : List Byte → Option (List Byte)

/-- Free value: the 48 bytes of the entropy source that seed Quill's generator at a boot (R504), by the seedings before it. -/
opaque entropy : Nat → Vector Byte 48

/-- Free value: the first sector write counter value of a session on a magazine that is not blank and holds no committed
value (R275 names none), by the magazine identity. -/
opaque firstCounter : List Byte → Nat

/-- Free value: the 48-byte digest of the mask ROM that M0 takes (Table 14.3). -/
opaque maskRomDigest : Vector Byte 48

/-- Free value: the digest of the OTP fields that M0 takes (Table 14.3), by the bytes of those fields: the spec does not
say how they are laid out for it. -/
opaque otpDigest : List Byte → Vector Byte 48

/-- Free value: a value of an archive record of a type whose bytes the spec does not lay out (Table 15.6): by the record
and the value's place in its table; none where the record does not hold it. Type 0x04: 0 WRITE, 1 MID, 2 COOL, 3 BIAS and
4 READ code, 5 the target of beta, 6 the slope; 0x06: Table 11.1; 0x07: V_MAX, A_MAX and J_MAX in µm; 0x09: Table 8.3
without its two rows that have no number, then the two decoder limits. -/
opaque archivedValue : List Byte → Nat → Option Nat

/-- Free value: a value of Table 10.5 that the integrator section holds for a slot, by the section, the slot and the column;
the record's key for a slot is not given (Table 15.6). -/
opaque archivedTuning : List Byte → Nat → Nat → Option Int

/-- Free value: the secret number of an ECDSA P-384 signature of Quill over a report, less 1, by the attestation counter
(R519): the spec does not say how it is chosen. -/
opaque signSecret : Nat → Nat

/-- Free value: the byte a read-back or a read of the other archive regions gives where the spec gives no content. -/
opaque freeByte : Nat → Byte

/-- Free value: the integrator section that a failed erase or program leaves in flash (R623), by what lay there and what
was to be written. -/
opaque tornSection : List Byte → List Byte → List Byte

/-- Free value: the nonzero result of a service-port request that is not accepted, where the spec names no result for
the cause (Table 17.7), by request type: one more than this. -/
opaque refusedResult : Nat → Fin 255

/-- Free value: the LEVEL starting code that the laser reference trim sets from a slope (Table 15.4 gives no formula):
by the slope measured, the slope of step 14 and the present code. -/
opaque startCode : Nat → Nat → Nat → Nat

/-- Free value: the queue and SQ index an error log entry of a service-port COMMAND carries (R622, Table 3.5). -/
opaque uartQueueField : Nat → BitVec 16

/-- Free value: the PSA and the stripe sequence in the header of the identity band sector of a side (R284 gives its other
fields). -/
opaque identityPlace : Head → Nat × Nat

/-- Free value: the two servo bits that stand for a wedge address bit (Table 1.3 says biphase coded, and not which way). -/
opaque biphase : Bool → Bool × Bool

/-- Free value: the L1 exit latency that the part advertises, in ns, of which only the bound of 8 µs is given (R72). -/
opaque l1ExitNs : Nat

/-- Free value: bytes of a host buffer that an error completion leaves undefined (R145), by LSN and byte. -/
opaque undefinedByte : Nat → Nat → Byte

/-- Free value: how an engine rounds 0.75 times the magnitude of a message (09_read_channel gives no precision): what is added
to three times the magnitude before it is divided by 4. -/
opaque minSumRound : Nat → Fin 4

/-- Free value: the focus drive, as a 1.15 number, at which a focus sweep or a layer jump ends, by the draws before it
(R428, R430: the pulses and thresholds come from the archive, whose layout for them the spec does not give). -/
opaque focusDrive : Nat → BitVec 16

/-- Free value: the tracking drive that moves a head by one track pitch (R431 gives no number). -/
opaque trackPitchDrive : Int

/-- The type of a bridge that is no read channel's, by its number: Table 12.3 counts the bridges and does not say which are
of which type of Table 12.4 (0 F, 1 S, 2 E). -/
opaque bridgeType : Nat → Fin 3

/-- Free value: the way a quotient that is no whole number is rounded where the spec names no rounding: up, or down. -/
opaque roundUp : Int → Nat → Bool

end Sys2Proof.Config
end

