-- ==== Sys2Proof/Machine/State/Link.lean ====
section
/-! DEFINITION. The state of the host link: queue pairs, functions, locks, arbitration, and what the T36 has
sent to the outside. Every field's default is its value at reset. -/

namespace Sys2Proof.Machine

/-- Where a command came from: a ring entry of a queue pair, or the service port (R622). -/
structure Origin where
  fn : FnId
  q : QId
  /-- Ring index of its submission entry. -/
  sqIndex : Nat := 0
  /-- It came over the UART service port. -/
  uart : Bool := false
  /-- Its function has been reset since: it posts nothing (R697). -/
  silent : Bool := false
  /-- Its place in the order of fetching over all queues (R94 to R97, R99, R105, R141). -/
  order : Nat := 0
deriving DecidableEq, Repr

/-- Space a command took at fetch (R165, R170, R171). -/
inductive Alloc where
  | none
  /-- A frame slot, named by its identifier. -/
  | frame (slot : Nat)
  /-- Units of 32,768 bytes of the review pool: from the function's reserve and from the shared part. -/
  | review (own shared : Nat)
  /-- Units of 4,096 bytes of the side pool. -/
  | side (units : Nat)
deriving DecidableEq, Repr

/-- A command fetched but not started (R94). -/
structure Fetched where
  org : Origin
  entry : Entry
  alloc : Alloc := .none
  /-- Timecode its FRAME record takes (R680, R681). -/
  timecode : Word := 0
deriving DecidableEq, Repr

/-- The place of a fetched command in the order of fetching. -/
abbrev Fetched.order (f : Fetched) : Nat := f.org.order

/-- A completion before it is written: the phase and the commit point are added when it is (R81, R135). -/
structure Completion where
  cid : BitVec 16
  status : BitVec 15
  result : Word
deriving DecidableEq, Repr

/-- An entry of an error log page (Table 3.5). -/
structure ErrEntry where
  seq : Nat
  queue : BitVec 16
  sqIndex : BitVec 16
  opcode : BitVec 8
  halted : Bool
  status : BitVec 16
  cid : BitVec 16
  stateCode : Word
  detail : DWord
  timeUs : Nat
deriving DecidableEq, Repr

/-- An entry held at fetch for lack of a resource (R88, R177, R178). -/
structure HeldFetch where
  entry : Entry
  /-- When it was first held. -/
  since : Time
  /-- FULL_WAIT_MS in force then (R178). -/
  waitMs : Nat
deriving DecidableEq, Repr

/-- One queue pair: the registers of Table 3.4, its doorbells, and the commands between fetch and completion. -/
structure QueuePair where
  /-- 03_host_link_tenants R78 SQBASE. -/
  sqBase : DWord := 0
  /-- 03_host_link_tenants R78 CQBASE. -/
  cqBase : DWord := 0
  /-- 03_host_link_tenants R78 ENABLE. -/
  enable : Bool := false
  /-- 03_host_link_tenants R78 POLICY, true for HALT. -/
  policyHalt : Bool := false
  /-- 03_host_link_tenants R78 URGENT. -/
  urgent : Bool := false
  /-- 03_host_link_tenants R78 DEPTH_LOG2. -/
  depthLog2 : BitVec 4 := 0
  /-- 03_host_link_tenants R78 VECTOR. -/
  vector : BitVec 6 := 0
  /-- 03_host_link_tenants R78 COAL_COUNT. -/
  coalCount : BitVec 8 := 1
  /-- 03_host_link_tenants R78 COAL_TIME. -/
  coalTime : BitVec 8 := 0
  /-- 03_host_link_tenants R78 HALTED. -/
  halted : Bool := false
  /-- 03_host_link_tenants R78 ACTIVE. -/
  active : Bool := false
  /-- 03_host_link_tenants R78 DBERR. -/
  dberr : Bool := false
  /-- 03_host_link_tenants R78 CFGERR. -/
  cfgerr : Bool := false
  /-- 03_host_link_tenants R78 FETCHERR. -/
  fetcherr : Bool := false
  /-- 03_host_link_tenants R109 commands fetched below this place of the order had started before the last halt. -/
  haltOrder : Nat := 0
  /-- 03_host_link_tenants R78 SQHEAD. -/
  sqHead : Nat := 0
  /-- 03_host_link_tenants R78 CQTAIL. -/
  cqTail : Nat := 0
  /-- 03_host_link_tenants R84 submission tail doorbell. -/
  sqTail : Nat := 0
  /-- 03_host_link_tenants R86 completion head doorbell. -/
  cqHead : Nat := 0
  /-- 03_host_link_tenants R81 phase bit of the present pass. -/
  phase : Bool := true
  /-- 03_host_link_tenants R87 completions held for lack of ring space, oldest first. -/
  held : List Completion := []
  /-- 03_host_link_tenants R94 commands fetched and not started, oldest first. -/
  waiting : List Fetched := []
  /-- 03_host_link_tenants R88 the entry held at fetch. -/
  heldFetch : Option HeldFetch := none
  /-- 03_host_link_tenants R78 completions written since the last message of this queue. -/
  unsignalled : Nat := 0
  /-- 03_host_link_tenants R78 time of the first unsignalled completion. -/
  firstUnsignalled : Option Time := none
deriving DecidableEq, Repr

/-- What a commit-point or deficit register read captured (R132). -/
structure Captures where
  commitFrames : Option Word := none
  outRate : Option Word := none
  timeToFull : Option Word := none
deriving DecidableEq, Repr

/-- One PCI Express function (R73) with its registers. -/
structure Func where
  /-- 03_host_link_tenants R77 function reset epoch. -/
  epoch : BitVec 16 := 0
  /-- 03_host_link_tenants R69 and R698: it completes configuration requests normally. -/
  ready : Bool := false
  /-- 03_host_link_tenants R119 and R699: a reset of the function has passed step 1 of Table 3.8 and not step 6. -/
  inReset : Bool := false
  /-- 03_host_link_tenants R78 the 32 queue pairs. -/
  queues : Vector QueuePair 32 := Vector.replicate 32 {}
  /-- 04_command_packets R131 EVENT_PENDING. -/
  eventPending : BitVec 8 := 0
  /-- 04_command_packets R131 EVENT_ENABLE. -/
  eventEnable : BitVec 8 := 0
  /-- 04_command_packets R131 EVENT_VECTOR. -/
  eventVector : BitVec 6 := 0
  /-- 04_command_packets R132 captures of 32-bit reads. -/
  captures : Captures := {}
  /-- 03_host_link_tenants R110 error log page, newest first. -/
  errLog : List ErrEntry := []
  /-- 03_host_link_tenants R109 error sequence number of the next error. -/
  errSeq : Nat := 1
  /-- 03_host_link_tenants R76 the MSI-X window, as words written by the host (log entry 13). -/
  msixTable : List (Nat × Word) := []
deriving DecidableEq, Repr

/-- A waiting LOCK_ACQUIRE (R99). -/
structure LockWaiter where
  org : Origin
  cid : BitVec 16
  opcode : BitVec 8
  deadline : Time
deriving DecidableEq, Repr

/-- The place of a waiting acquire in the order of fetching. -/
abbrev LockWaiter.order (w : LockWaiter) : Nat := w.org.order

/-- One hardware lock (R95a, Table 3.7) with its waiters in fetch order. -/
structure Lock where
  /-- 03_host_link_tenants R95a HELD. -/
  held : Bool := false
  /-- 03_host_link_tenants R95a ABANDONED. -/
  abandoned : Bool := false
  /-- 03_host_link_tenants R95a OWNER_FN. -/
  ownerFn : FnId := 0
  /-- 03_host_link_tenants R95a OWNER_Q. -/
  ownerQ : QId := 0
  /-- 03_host_link_tenants R95a OWNER_EPOCH. -/
  ownerEpoch : BitVec 16 := 0
  /-- 03_host_link_tenants R99 waiting acquires, in fetch order. -/
  waiters : List LockWaiter := []
deriving DecidableEq, Repr

/-- The arbitration weights of Table 3.6 and the places of the round robins (R90, log entry 11). -/
structure Arbiter where
  /-- 03_host_link_tenants R91 W_F0. -/
  w0 : BitVec 8 := 8
  /-- 03_host_link_tenants R91 W_F1. -/
  w1 : BitVec 8 := 4
  /-- 03_host_link_tenants R91 W_F2. -/
  w2 : BitVec 8 := 2
  /-- 03_host_link_tenants R91 W_F3. -/
  w3 : BitVec 8 := 1
  /-- 03_host_link_tenants R90 function being served. -/
  cur : Nat := 0
  /-- 03_host_link_tenants R90 turns left to that function. -/
  credit : Nat := 8
  /-- 03_host_link_tenants R90 next queue of each function. -/
  next : Vector Nat 4 := Vector.replicate 4 0
  /-- 03_host_link_tenants R90 next urgent queue of F0. -/
  nextUrgent : Nat := 0
  /-- 03_host_link_tenants R92 what is left of F0's inbound budget of this window, in bytes. -/
  budget : Nat := 0
  /-- 03_host_link_tenants R92 number of the present 1 ms window, counted from power-up. -/
  window : Nat := 0
  /-- 03_host_link_tenants R92 inbound bytes of F0 beyond its budget in this window, counted by its weight. -/
  beyond : Nat := 0
deriving DecidableEq, Repr

/-- The state of the data link. -/
structure LinkState where
  /-- 03_host_link_tenants R699 the Data Link Layer is up. -/
  up : Bool := false
  /-- 03_host_link_tenants R699 the link has been disabled and not brought out of that state. -/
  disabled : Bool := false
  /-- 03_host_link_tenants R71 the link is in L1. -/
  l1 : Bool := false
  /-- 03_host_link_tenants R68 rate at which it trained, in 0.1 GT/s. -/
  rate : Nat := 0
  /-- 03_host_link_tenants R68 width at which it trained. -/
  width : Nat := 0
  /-- 03_host_link_tenants R71 since when no command, held completion or clip has kept the link busy. -/
  idleSince : Time := 0
deriving DecidableEq, Repr

/-- What the T36 sends out of itself. -/
inductive Sent where
  /-- A completion entry (Table 4.3) written into a slot of a completion ring. -/
  | completion (fn : FnId) (q : QId) (slot : Nat) (phase : Bool) (c : Completion) (clip frames : Word)
  /-- An MSI-X message. -/
  | msix (fn : FnId) (vector : BitVec 6)
  /-- Data of a command written to host memory at an address, tagged with the function (R74). -/
  | hostWrite (fn : FnId) (cid : BitVec 16) (addr : DWord) (data : List Byte)
  /-- The value a register read returns. -/
  | readValue (fn : FnId) (offset : Nat) (value : Word)
  /-- Configuration Request Retry Status (R698). -/
  | retryStatus (fn : FnId)
  /-- A BAR read answered with every byte 0xFF (R698). -/
  | allOnes (fn : FnId) (bytes : Nat)
  /-- A BAR write or configuration write without effect (R698). -/
  | discarded (fn : FnId)
  /-- A VCORE request on the I2C controller port: the PMIC address, register and code bytes (R565), and the mV. -/
  | vcoreRequest (mv : Nat) (bytes : List Byte)
  /-- A recovery of the I2C controller bus: nine clock pulses and a stop (R618). -/
  | i2cRecover
  /-- Bytes read from the I2C target from a register offset on (R616). -/
  | i2cRead (offset : Nat) (data : List Byte)
  /-- A response frame of the service port: type and payload (R620). -/
  | uart (rtype : Byte) (payload : List Byte)
  /-- A frame on the LDCFG bus of a head (Table 18.5). -/
  | ldcfg (h : Head) (frame : Word)
  /-- The 314,480 channel bits that a lane writes of one sector, as NRZI transitions (R17, R256, R257, R294). -/
  | written (h : Head) (b : Beam) (psa : Word) (sector : List Bool)
  /-- The identity band sector that beam 0 of a head writes from wedge 0 of the innermost identity band revolution, at the
  field length of Z00: its header and payload, and its channel bits (R211, R284). -/
  | identityBand (h : Head) (header payload : List Byte) (sector : List Bool)
  /-- What the test access port shifts out (R529). -/
  | tdo (value : Word)
deriving DecidableEq, Repr

/-- Why a fetched command waits before it starts. -/
inductive WaitReason where
  /-- The power state is below RUN (R146). -/
  | power
  /-- A MOUNT or UNMOUNT runs (R142). -/
  | mount
  /-- Bring-up still gates it (R545). -/
  | bringup
  /-- A CLIP_OPEN waits for the spindle or for VCORE (R420, R449). -/
  | clipOpen
  /-- An overlapping write has not completed (R97). -/
  | overlap
  /-- A SPINDLE command has not reached its target (R421). -/
  | spindle
  /-- The magazine turns in reverse (R417). -/
  | reverse
  /-- Commands fetched before it have not started (R94, R141, R420). -/
  | order
deriving DecidableEq, Repr

/-- A fetched command that waits to start, with what the outside world gives it. -/
structure Deferred where
  cmd : Fetched
  call : Call
  op : Opcode
  reason : WaitReason
deriving DecidableEq, Repr

/-- A command that has started and not completed. -/
structure Running where
  org : Origin
  entry : Entry
  op : Opcode
  alloc : Alloc := .none
  /-- LSNs of a read still to be delivered. -/
  need : List Nat := []
  /-- LSNs of a read, in order. -/
  lsns : List Nat := []
  /-- Delivered sectors of a read, as LSN and plaintext. -/
  got : List (Nat × List Byte) := []
  /-- Heads whose medium it reads. -/
  heads : List Head := []
  /-- Byte offset within the first sector, for FRAME_READ. -/
  offset : Nat := 0
  /-- RESULT on success. -/
  result : Word := 0
  /-- Calibration steps a CALIBRATE still has to finish: step, head, beam. -/
  calLeft : List (Nat × Head × Beam) := []
  /-- Target of a POWER_STATE command, or the speed of a SPINDLE command. -/
  target : Nat := 0
deriving DecidableEq, Repr

/-- The place of a started command in the order of fetching. -/
abbrev Running.order (r : Running) : Nat := r.org.order

/-- The host link and the commands on it. -/
structure HostLink where
  /-- 03_host_link_tenants R73 the four functions; F0's queues reset to HALT (Table 3.2). -/
  funcs : Vector Func 4 :=
    #v[{ queues := Vector.replicate 32 { policyHalt := true } }, {}, {}, {}]
  /-- 03_host_link_tenants R95a the 64 locks. -/
  locks : Vector Lock 64 := Vector.replicate 64 {}
  /-- 03_host_link_tenants R91 arbitration. -/
  arb : Arbiter := {}
  /-- 03_host_link_tenants R699 the link. -/
  link : LinkState := {}
  /-- 03_host_link_tenants R697 commands started and not completed, in the order in which they started. -/
  running : List Running := []
  /-- 04_command_packets R142, R146: fetched commands waiting to start, oldest first. -/
  deferred : List Deferred := []
  /-- 03_host_link_tenants R94 commands fetched so far, which orders them over all queues. -/
  fetchOrder : Nat := 0
  /-- 05_drey_buffers R177 the queues whose FRAME_APPEND is held, in the order first held. -/
  heldOrder : List (FnId × QId) := []
  /-- 13_power_states R481 and others: fetch is stopped on every queue. -/
  fetchStopped : Bool := false
  /-- MODEL FIELD: what has been sent out, newest first (log entry 7). -/
  sent : List Sent := []
deriving DecidableEq, Repr

end Sys2Proof.Machine
end

