-- ==== Sys2Proof/Machine/State/Read.lean ====
section
/-! DEFINITION. The state of the volume map, its metadata cache, Burrow, the read direction and DDR5 protection. -/

namespace Sys2Proof.Machine

/-- A row of Burrow: key, mask and result (R221). -/
structure BurrowRow where
  key : DWord
  mask : DWord
  result : DWord
  valid : Bool := true
deriving DecidableEq, Repr

/-- A tenant's access range (R224). -/
structure AccessRange where
  fn : Nat
  index : Nat
  first : Nat
  count : Nat
  /-- 0 allow, 1 deny. -/
  deny : Bool
deriving DecidableEq, Repr

/-- An entry of the relocation list (R235). -/
structure RelocEntry where
  lsn : Word
  psa : Word
  seq : Word
deriving DecidableEq, Repr

/-- Burrow, its shadow and its scrub. Rows are held by physical index, rising, only where one has been installed. -/
structure BurrowState where
  /-- 06_volume_map R221 installed rows by physical index (0 to 4,095, spares 4,096 to 4,159). -/
  rows : List (Nat × BurrowRow) := []
  /-- 06_volume_map R239 the shadow in DDR5, as firmware wrote it. -/
  shadow : List (Nat × BurrowRow) := []
  /-- 06_volume_map R244 spare rows in use: logical index and physical spare. -/
  spares : List (Nat × Nat) := []
  /-- 06_volume_map R245 rows removed from service, by physical index. -/
  removed : List Nat := []
  /-- 06_volume_map R245 a row has left service with no spare to take its place. -/
  exhausted : Bool := false
  /-- 06_volume_map R235 the relocation list, rising by LSN. -/
  relocs : List RelocEntry := []
  /-- 06_volume_map R224 the access list. -/
  ranges : List AccessRange := []
  /-- 06_volume_map R250 lookups use the firmware walk. -/
  degraded : Bool := false
  /-- 06_volume_map R241 next row to read back. -/
  scanRow : Nat := 0
  /-- 06_volume_map R242 next probe of the pass. -/
  probe : Nat := 0
  /-- 06_volume_map R240 when the last read-back comparison in turn was made. -/
  readAt : Option Time := none
  /-- 06_volume_map R240 when the last probe search was made. -/
  probeAt : Option Time := none
  /-- 06_volume_map R243 mismatches of this probe pass: the key presented and the physical rows that differ. -/
  mismatches : List (DWord × List Nat) := []
  /-- 06_volume_map R243 rows whose read-back has been correct since the probe pass began. -/
  checked : List Nat := []
  /-- 06_volume_map R243 rows that a probe pass has named and whose read-back is still to come. -/
  suspects : List Nat := []
  /-- 06_volume_map R243 the present pass repeats an unclassified one. -/
  repeating : Bool := false
  /-- 06_volume_map R248, R255 the rows whose read-back comparison comes at once, in turn. -/
  urgent : List Nat := []
  /-- 06_volume_map R255 rows whose result has failed its parity, until they have been read back. -/
  badResult : List Nat := []
  /-- 06_volume_map R253 shadow rows being rebuilt, left out of read-back. -/
  rebuilding : List Nat := []
  /-- 06_volume_map R249 a whole read-back pass has been made since calibration step 7 began. -/
  passRead : Bool := false
  /-- 06_volume_map R249 a whole probe pass has been made since calibration step 7 began. -/
  passProbe : Bool := false
deriving DecidableEq, Repr

/-- A line of the metadata cache with its 128 bytes. -/
structure CacheLine where
  set : Nat
  way : Nat
  tag : Nat
  dirty : Bool
  data : List Byte
deriving DecidableEq, Repr

/-- A request to one line: its first byte, and for a write the bytes it writes from there on. -/
structure CacheReq where
  addr : Nat
  write : Bool
  bytes : List Byte := []
deriving DecidableEq, Repr

/-- The metadata cache, its eviction buffer and Hoard (Table 6.4). -/
structure CacheState where
  /-- 06_volume_map R214 valid lines. -/
  lines : List CacheLine := []
  /-- 06_volume_map R214 the seven tree bits of each set that has been used. -/
  plru : List (Nat × BitVec 7) := []
  /-- 06_volume_map R219 dirty victims, oldest first: line address and data. -/
  eviction : List (Nat × List Byte) := []
  /-- 06_volume_map R219 clean victims, oldest first. -/
  hoard : List (Nat × List Byte) := []
  /-- 06_volume_map R217 the outstanding miss. -/
  miss : Option CacheReq := none
  /-- 06_volume_map R217 requests waiting behind it, in arrival order. -/
  queue : List CacheReq := []
deriving DecidableEq, Repr

/-- The volume map. -/
structure MapState where
  /-- 06_volume_map R205 records of the mounted magazine. -/
  records : List VolRecord := []
  /-- 01_hendun_medium R31 where each assigned LSN was first placed, newest first. -/
  places : List (Nat × Word) := []
  /-- 06_volume_map R704 data of AUX records of this mount, by first AUX sector number. -/
  auxData : List (Nat × List Byte) := []
  /-- 06_volume_map R204 the bytes of the volume map in DDR5, by offset; one not listed is 0. -/
  mem : List Host.Cell := []
  /-- 06_volume_map R204 the records whose place in the volume map a command has named: first byte, type, key and index. -/
  placed : List (Nat × BitVec 8 × Word × Word) := []
  /-- 06_volume_map R214 the metadata cache. -/
  cache : CacheState := {}
  /-- 06_volume_map R221 Burrow. -/
  burrow : BurrowState := {}
deriving DecidableEq, Repr

/-- What stripe assembly holds of one sector. -/
inductive PartState where
  | missing
  | erased
  /-- It decoded and failed its tag (R291). -/
  | badTag
  /-- Decoded header and payload. -/
  | bytes (header payload : List Byte)
deriving DecidableEq, Repr

/-- A stripe in stripe assembly (R347). -/
structure Assembly where
  seq : Nat
  head : Head
  layer : Nat
  zone : Nat
  group : Nat
  member : Nat
  /-- Live beams of its shape, 18 or 17. -/
  live : Nat
  /-- Its sectors, by 18 × position + beam; one not listed is missing. -/
  parts : List (Nat × PartState)
  /-- The erasure decode has failed and it is on the retry ladder (R293). -/
  ladder : Bool := false
deriving DecidableEq, Repr

/-- A defect span (R362): the field and the channel bit where it opened, and where it closed. -/
structure DefectSpan where
  start : Nat × Nat
  stop : Option (Nat × Nat) := none
deriving DecidableEq, Repr

/-- A codeword waiting for the decoder pool. -/
structure PoolWord where
  head : Head
  beam : Beam
  psa : Word
  index : Nat
  speculative : Bool
  /-- It has had its normal decode and is given an extended one (R546, R365). -/
  extended : Bool := false
  /-- The soft values of its bits, where its beam's stream holds them (R334, R339). -/
  soft : List Int := []
deriving DecidableEq, Repr

/-- A sector whose codewords are being decoded. -/
structure PartialSector where
  psa : Word
  head : Head
  beam : Beam
  header : Option (List Byte) := none
  /-- Results of its codewords so far: data, or none where the decode failed. -/
  words : List (Nat × Option (List Byte)) := []
  speculative : Bool := false
deriving DecidableEq, Repr

/-- A sector held by Scurry (R352). -/
structure ScurryEntry where
  lsn : Nat
  session : Nat
  head : Head
  seq : Nat
  data : List Byte
deriving DecidableEq, Repr

/-- The programmable parameters of a read channel that its loops do not move (Table 9.1), at their factory defaults. -/
structure ChanParams where
  /-- 09_read_channel R325 CTLE boost, in dB. -/
  boost : Nat := 6
  /-- 09_read_channel R325 CTLE pole frequency, in 25 MHz. -/
  pole : Nat := 16
  /-- 09_read_channel R325 AGC preamble peak target, in ADC LSB. -/
  agcTarget : Nat := 32
  /-- 09_read_channel R325 AGC loop gain exponent. -/
  agcGain : Nat := 8
  /-- 09_read_channel R325 timing loop proportional exponent. -/
  timingP : Nat := 5
  /-- 09_read_channel R325 timing loop integral exponent. -/
  timingI : Nat := 11
  /-- 09_read_channel R325 equaliser main tap position. -/
  main : Nat := 8
  /-- 09_read_channel R325 equaliser step exponent m. -/
  stepExp : Nat := 16
  /-- 09_read_channel R325 equaliser adaptation interval, in channel bits. -/
  adaptEvery : Nat := 4
  /-- 09_read_channel R325 detector target taps h0 to h4. -/
  target : List Nat := [1, 2, 3, 2, 1]
  /-- 09_read_channel R325 detector target scale G_T. -/
  scale : Nat := 5
  /-- 09_read_channel R325 noise predictors, in 1/64. -/
  noise : List Int := List.replicate 32 0
  /-- 09_read_channel R325 metric weights, in 1/64. -/
  weights : List Nat := List.replicate 32 64
  /-- 09_read_channel R325 soft-output decision depth, in channel bits. -/
  depth : Nat := 64
  /-- 09_read_channel R325 defect envelope threshold, in percent of the AGC target. -/
  envelope : Nat := 50
  /-- 09_read_channel R325 FSYNC_TOL. -/
  fsyncTol : Nat := 2
  /-- 09_read_channel R325 SM_TOL. -/
  smTol : Nat := 6
  /-- 09_read_channel R325 SM_WIN. -/
  smWin : Nat := 8
  /-- 09_read_channel R325 MISS_SYNC_CAP. -/
  missSyncCap : Nat := 8
deriving DecidableEq, Repr

/-- The read channel of one beam (Table 9.1 and the loops of R327 to R331). -/
structure ReadChannel where
  /-- 09_read_channel R325 the parameters in force. -/
  par : ChanParams := {}
  /-- 09_read_channel R326 the verify set. -/
  verify : ChanParams := {}
  /-- 09_read_channel R327 AGC gain held, in 0.25 dB. -/
  gain : Int := 24
  /-- 09_read_channel R328 frequency held by the timing loop (log entry 9). -/
  freq : Int := 0
  /-- 09_read_channel R329 the next field starts from the nominal rate. -/
  seedNominal : Bool := true
  /-- 09_read_channel R330 the 24 equaliser accumulators (log entry 9). -/
  taps : Vector Int 24 := Vector.replicate 24 0
  /-- 09_read_channel R362 defect spans of the fields being read, oldest first. -/
  spans : List DefectSpan := []
  /-- 09_read_channel R364 PSA of the slot in which the last span opened. -/
  defectPsa : Word := 0
  /-- 09_read_channel R340 consecutive fields without a found sync. -/
  noSync : Nat := 0
  /-- 09_read_channel R341 consecutive fields without an agreeing address. -/
  noAddr : Nat := 0
  /-- 09_read_channel R339 zone of the payload stream. -/
  streamZone : Nat := 0
  /-- 09_read_channel R339 payload bit of the zone at which the stream begins. -/
  streamAt : Nat := 0
  /-- 09_read_channel R339 soft values of the payload stream of the beam, the last two sectors of it. -/
  stream : List Int := []
deriving DecidableEq, Repr

/-- The read direction. -/
structure ReadPath where
  /-- 09_read_channel R344 the decoder pool's queue. -/
  pool : List PoolWord := []
  /-- 09_read_channel R343 most iterations of a normal decode. -/
  limNormal : Nat := 12
  /-- 09_read_channel R343 most iterations of an extended decode. -/
  limExtended : Nat := 40
  /-- 09_read_channel R342 sectors being decoded. -/
  partials : List PartialSector := []
  /-- 07_stripe_codec R61 decrypt holding: PSA, header and ciphertext. -/
  holding : List (Word × List Byte × List Byte) := []
  /-- 09_read_channel R347 stripe assembly. -/
  assembly : List Assembly := []
  /-- 09_read_channel R352 the Scurry area, oldest first. -/
  scurry : List ScurryEntry := []
  /-- 09_read_channel R350 Scurry may read ahead on this head. -/
  scurryA : Bool := false
  /-- 09_read_channel R350 the same for head B. -/
  scurryB : Bool := false
  /-- 09_read_channel R365 retry ladder step of head A; 0 when none runs. -/
  ladderA : Nat := 0
  /-- 09_read_channel R365 the same for head B. -/
  ladderB : Nat := 0
  /-- 06_volume_map R248 LSNs that reads resolve by the firmware walk. -/
  walked : List Nat := []
  /-- 07_stripe_codec R291 sectors rebuilt after a failed tag, whose tag is checked once more. -/
  rebuilt : List Word := []
  /-- 09_read_channel R325 read channels of head A. -/
  chansA : Vector ReadChannel 18 := Vector.replicate 18 {}
  /-- 09_read_channel R325 read channels of head B. -/
  chansB : Vector ReadChannel 18 := Vector.replicate 18 {}
  /-- 09_read_channel R364 stripes already logged as radial defects. -/
  radialLogged : List Nat := []
  /-- 16_modes R575 an excursion runs; the head start is the time it was decided. -/
  excursion : Option Time := none
  /-- 16_modes R570 media scrub enabled. -/
  mediaScrub : Bool := false
  /-- 16_modes R570 buffer scrub enabled. -/
  bufferScrub : Bool := false
  /-- 16_modes R578 next stripe of the media scrub. -/
  scrubNext : Nat := 0
  /-- 16_modes R579 stripes read, weak and lost in this pass. -/
  scrubCounts : Nat × Nat × Nat := (0, 0, 0)
deriving DecidableEq, Repr

/-- DDR5 protection (05_drey_buffers). -/
structure DramState where
  /-- 05_drey_buffers R196 the lost device. -/
  lost : Option (Fin 20) := none
  /-- 05_drey_buffers R188 corrected symbols by device. -/
  corrected : Vector Word 20 := Vector.replicate 20 0
  /-- 05_drey_buffers R188 detected-uncorrectable bursts. -/
  uncorrectable : Word := 0
  /-- 05_drey_buffers R196 bursts corrected in the last 1,000 ms: time, device and burst. -/
  recent : List (Time × Nat × Nat) := []
  /-- 05_drey_buffers R192 next burst of the patrol. -/
  patrol : Nat := 0
  /-- 05_drey_buffers R192 when the last scrub read was made. -/
  lastScrub : Time := 0
  /-- 05_drey_buffers R190, R191 when the background zero fill of Drey started, at 8 GB/s. -/
  fillStart : Option Time := none
  /-- 05_drey_buffers R187 the last burst written back and its data bytes. -/
  lastWriteBack : Option (Nat × List Byte) := none
  /-- 05_drey_buffers R194 write-backs dropped for a newer write. -/
  dropped : Nat := 0
  /-- 13_power_states R478 the devices are in self-refresh. -/
  selfRefresh : Bool := false
deriving DecidableEq, Repr

end Sys2Proof.Machine
end

