-- ==== Sys2Proof/Machine/State/Record.lean ====
section
/-! DEFINITION. The state of the record direction and of what is mounted: the Drey pools, the frames on the path,
the clip, the stripes and sectors in flight, the record queue and the volume map. -/

namespace Sys2Proof.Machine

/-- The profile of a clip (R147). -/
structure Profile where
  clip : Word
  frameBytes : Nat
  rateNum : Nat
  rateDen : Nat
  holdAwake : Bool
  /-- User bytes of the opening record. -/
  user : List Byte
deriving DecidableEq, Repr

/-- The clip that is open. -/
structure OpenClip where
  prof : Profile
  /-- 04_command_packets R152 next expected frame number. -/
  nextFrame : Nat := 0
  /-- 06_volume_map R208 its opening record has been queued. -/
  openQueued : Bool := false
deriving DecidableEq, Repr

/-- A clip whose close has begun and whose close record is not yet queued (R149). -/
structure ClosingClip where
  clip : Word
  /-- Frames counted: those whose FRAME_APPEND completed with SUCCESS (R149). -/
  frames : Nat
  reason : Nat
  frameBytes : Nat
deriving DecidableEq, Repr

/-- Where a frame stands on its way to the medium. -/
inductive FramePhase where
  /-- Its DMA reads are not all complete. -/
  | dma
  /-- The whole frame is in its slot (R154). -/
  | full
  /-- The codec has assigned LSNs to its first sectors (R53). -/
  | encoding (done : Nat)
  /-- Every sector is encoded. -/
  | encoded
deriving DecidableEq, Repr

/-- A frame that occupies a frame slot. -/
structure Frame where
  clip : Word
  number : Nat
  bytes : Nat
  data : List Byte := []
  phase : FramePhase := .dma
  slot : Nat
  timecode : Word
  /-- First LSN once assigned (R53). -/
  firstLsn : Option Nat := none
  org : Origin
  entry : Entry
  committed : Bool := false
deriving DecidableEq, Repr

/-- A block of the frame-pool ring, in ring order (R165). -/
structure Block where
  /-- Frame slot identifier; none for bytes skipped at the end of the pool. -/
  slot : Option Nat
  bytes : Nat
  freed : Bool := false
deriving DecidableEq, Repr

/-- Drey: the pools of Table 5.1 and the rate-deficit mechanism. -/
structure DreyPools where
  /-- 05_drey_buffers R165 ring of frame slots, oldest first. -/
  ring : List Block := []
  /-- 05_drey_buffers R165 tail offset of the frame pool. -/
  tail : Nat := 0
  /-- 05_drey_buffers R165 identifier of the next frame slot. -/
  nextSlot : Nat := 0
  /-- 05_drey_buffers R170 units of 32 KiB taken from each function's own reserve. -/
  reviewOwn : Vector Nat 4 := Vector.replicate 4 0
  /-- 05_drey_buffers R170 units of 32 KiB taken from the shared part. -/
  reviewShared : Nat := 0
  /-- 05_drey_buffers R171 units of 4 KiB taken from the side pool. -/
  sideUsed : Nat := 0
  /-- 05_drey_buffers R173 allocations of the last window: time and bytes. -/
  allocs : List (Time × Nat) := []
  /-- 05_drey_buffers R173 releases of the last window: time and bytes. -/
  frees : List (Time × Nat) := []
  /-- 05_drey_buffers R176 a rise to W raises RATE_DEFICIT. -/
  armed : Bool := true
  /-- 05_drey_buffers R175 the time of the last RATE_DEFICIT while A stays at or above W. -/
  lastRaise : Option Time := none
  /-- 04_command_packets R131 DEFICIT_IN_RATE. -/
  inRate : Word := 0
  /-- 04_command_packets R131 DEFICIT_OUT_RATE. -/
  outRate : Word := 0
  /-- 04_command_packets R131 DEFICIT_TIME_TO_FULL. -/
  timeToFull : Word := 0xFFFFFFFF
  /-- 05_drey_buffers R199 Drey is out of service. -/
  outOfService : Bool := false
  /-- 05_drey_buffers R190 the self-test has passed since power-up. -/
  tested : Bool := false
deriving DecidableEq, Repr

/-- What a sector carries (Table 1.6, R704, R274, R284). -/
inductive SectorKind where
  /-- A data sector of a frame: clip, frame number. -/
  | data (clip : Word) (frame : Nat)
  /-- A relocated copy of a data sector. -/
  | copy (clip : Word) (frame : Nat) (cause : Nat) (failed : Word)
  | parity
  | pad
  /-- A system sector by its number. -/
  | system (no : Nat)
  /-- An AUX data sector by its number. -/
  | aux (no : Nat)
  /-- The session start sector of R274, by its system sector number. -/
  | sessionStart (no : Nat)
deriving DecidableEq, Repr

/-- A sector with a place on the medium: its header and its 36,864 coded bytes stand in `image` once encoded. -/
structure Sector where
  kind : SectorKind
  head : Head
  layer : Nat
  zone : Nat
  group : Nat
  member : Nat
  beam : Beam
  pos : Nat
  /-- Order index within the stripe (R20, R21). -/
  index : Nat
  psa : Word
  /-- LSN field of the header. -/
  lsn : Nat
  seq : Nat
  /-- Sector write counter value of its nonce (R269). -/
  counter : Nat
  /-- The 64 header bytes of Table 1.6. -/
  header : List Byte
  /-- The 32,768 payload bytes as they lie on the medium (ciphertext where encrypted). -/
  payload : List Byte
  /-- Its slot has begun and its verdict is not known. -/
  inFlight : Bool := false
  /-- It will fail whatever is measured: cause 4 or 5 (R315, R318). -/
  doomed : Nat := 0
  /-- Once its slot has begun, when its last channel bit passes (R690). -/
  ends : Time := 0
deriving DecidableEq, Repr

/-- A stripe with what its parity needs to commit (R56). -/
structure Stripe where
  seq : Nat
  head : Head
  layer : Nat
  zone : Nat
  group : Nat
  member : Nat
  /-- Live beams of its shape, 18 or 17 (R42). -/
  live : Nat
  /-- Rank order: the retired beam of a 17-beam shape. -/
  dead : Option Beam
  /-- Parity sectors that have passed verify, by order index. -/
  parityPassed : List Nat := []
  /-- The stripe holds none of its data sectors for R56 (R201, R311). -/
  void : Bool := false
  /-- Its first parity sector has passed, so its counter values are committed (R271). -/
  counterDone : Bool := false
  /-- Highest counter value it holds. -/
  maxCounter : Nat := 0
  /-- LSNs of the data sectors and copies placed in it. -/
  lsns : List Nat := []
  /-- Payload of each data position, by order index, as folded into the parity accumulator. -/
  parts : List (Nat × List Byte × List Byte) := []
  /-- A parity rebuild runs (R200). -/
  rebuilding : Bool := false
  /-- Its rebuild was not complete when its first parity slot began, so its parity slots hold pads (R201). -/
  noParity : Bool := false
deriving DecidableEq, Repr

/-- A data sector that waits for a later group of its head (R306). -/
structure Reloc where
  lsn : Nat
  clip : Word
  frame : Nat
  cause : Nat
  failed : Word
deriving DecidableEq, Repr

/-- The write lanes of one head: its place on the medium and its group in progress. -/
structure WriteHead where
  /-- 01_hendun_medium R26 layer being written. -/
  layer : Nat := 0
  /-- 01_hendun_medium R27 zones the head has swept on this layer before the present one. -/
  swept : Nat := 0
  /-- 01_hendun_medium R23 next group of the zone. -/
  group : Nat := 0
  /-- 01_hendun_medium R19 next slot of the group in progress, 0 to 35. -/
  slot : Nat := 0
  /-- 01_hendun_medium R27 the group in progress: its three stripe sequences in member order. -/
  open3 : Option (Nat × Nat × Nat) := none
  /-- 01_hendun_medium R40 the rest of the group is padded. -/
  padding : Bool := false
  /-- 01_hendun_medium R41 last revolution of the layer written by this head. -/
  lastRev : Option Nat := none
  /-- 01_hendun_medium R44 no group is left on the medium. -/
  full : Bool := false
  /-- 11_spindle R432 the layer end has been reached and the turnaround is not done. -/
  atEnd : Bool := false
  /-- 08_write_lanes R306 copies waiting for the next group of this head. -/
  relocs : List Reloc := []
  /-- 08_write_lanes R312 system sectors waiting to be written again. -/
  rewrites : List (SectorKind × List Byte) := []
  /-- 02_frame_path R66 positions of the group in progress whose staged sector was lost, as stripe sequence and order
  index: their slots hold pads. -/
  lost : List (Nat × Nat) := []
  /-- 08_write_lanes R319 data slots written in the current layer. -/
  layerSlots : Nat := 0
  /-- 08_write_lanes R319 relocated copies written in the current layer. -/
  layerCopies : Nat := 0
  /-- 08_write_lanes R319 the 2.0 % step has been reached in this layer. -/
  over2 : Bool := false
  /-- 08_write_lanes R319 the 8.0 % step has been reached in this layer. -/
  over8 : Bool := false
  /-- 06_volume_map R273 sectors staged or in flight on this head. -/
  sectors : List Sector := []
deriving DecidableEq, Repr

/-- The write side of one beam: driver codes, targets and its verify history. -/
structure BeamState where
  /-- 08_write_lanes R295 READ code (log entry 9). -/
  readCode : Nat := 0
  /-- 08_write_lanes R295 WRITE code. -/
  writeCode : Nat := 0
  /-- 08_write_lanes R295 MID code. -/
  midCode : Nat := 0
  /-- 08_write_lanes R295 COOL code. -/
  coolCode : Nat := 0
  /-- 08_write_lanes R295 BIAS code. -/
  biasCode : Nat := 0
  /-- 08_write_lanes R301 calibrated WRITE code. -/
  calWrite : Nat := 0
  /-- 15_bringup R549 READ code found by step 12. -/
  calRead : Nat := 0
  /-- 08_write_lanes R299 calibrated blank-field target. -/
  readTarget : Nat := 0
  /-- 08_write_lanes R300 calibrated target of beta, in 1/1,024. -/
  betaTarget : Nat := 0
  /-- 08_write_lanes R303 most channel bits between a sector mark and its expected position. -/
  limMark : Nat := 4
  /-- 08_write_lanes R303 most disagreements in the header. -/
  limHeader : Nat := 24
  /-- 08_write_lanes R303 most disagreements in a codeword. -/
  limWord : Nat := 160
  /-- 08_write_lanes R303 most departure of beta from its target, in percent. -/
  limBeta : Nat := 15
  /-- 15_bringup R549 slope found by step 14. -/
  calSlope : Nat := 0
  /-- 15_bringup R549 ADC offset DAC in 0.25 LSB. -/
  adcOffset : Int := 0
  /-- 15_bringup R549 offset DAC found by step 1, in 0.25 LSB. -/
  calOffset : Int := 0
  /-- 15_bringup R550 consecutive discards of the AFE offset, READ power and laser reference trims. -/
  trimDiscards : Vector Nat 3 := Vector.replicate 3 0
  /-- 18_balls R642 the driver holds no code set for the beam, so its lane stays at OFF. -/
  driverLost : Bool := false
  /-- 08_write_lanes R322 it is retired. -/
  retired : Bool := false
  /-- 17_vole R613 trigger of the retirement: 1 verify failures, 2 WRITE limit, 3 calibration. -/
  trigger : Nat := 0
  /-- 08_write_lanes R322 verdicts of the last 64 sectors, newest first; true is a failure. -/
  history : List Bool := []
  /-- 18_balls R637 level index driven. -/
  level : Level := .off
  /-- 15_bringup R553 CAL_SUSPECT. -/
  suspect : Bool := false
  /-- 17_vole R613 sectors written. -/
  written : Nat := 0
  /-- 17_vole R613 verify failures. -/
  failures : Nat := 0
  /-- 17_vole R613 relocations caused. -/
  relocations : Nat := 0
  /-- 17_vole R613 sectors read. -/
  reads : Nat := 0
  /-- 17_vole R613 LDPC failures. -/
  ldpcFailures : Nat := 0
  /-- 17_vole R613 iterations of the last 4,096 codewords, newest first. -/
  iterations : List Nat := []
deriving DecidableEq, Repr

/-- A record waiting for its system sector to pass verify (R212). -/
structure QueuedRecord where
  vol : VolRecord
  /-- It has been packed into system sectors. -/
  packed : Bool := false
  /-- The system sectors that hold it and have not passed. -/
  left : List Nat := []
deriving DecidableEq, Repr

/-- The mount session. -/
inductive MountMode where
  | none
  | readWrite
  | readOnly
deriving DecidableEq, Repr

/-- The magazine and the mount session. -/
structure Mount where
  /-- 04_command_packets R130 MAGAZINE field of the state code. -/
  magazine : Nat := 0
  /-- 15_bringup R538 a SPINDLE command since the magazine's insertion set RPM 0. -/
  stoppedByHost : Bool := false
  /-- 07_stripe_codec R281 the mount mode. -/
  mode : MountMode := .none
  /-- 07_stripe_codec R281 key slot of the mount. -/
  keySlot : Nat := 0
  /-- 07_stripe_codec R285 MK, while it is held. -/
  mediaKey : Option (List Byte) := none
  /-- 07_stripe_codec R283 magazine identity. -/
  identity : List Byte := List.replicate 16 0
  /-- 06_volume_map R703 key records present. -/
  keyRecords : BitVec 8 := 0
  /-- 07_stripe_codec R273 mount session number. -/
  session : Nat := 0
  /-- 07_stripe_codec R270 next sector write counter value. -/
  counter : Nat := 0
  /-- 07_stripe_codec R271 committed counter value. -/
  committed : Option Nat := none
  /-- 01_hendun_medium R31 next LSN. -/
  nextLsn : Nat := 0
  /-- 06_volume_map R211 next system sector number. -/
  nextSys : Nat := 0
  /-- 01_hendun_medium R28 next stripe sequence. -/
  nextStripe : Nat := 0
  /-- 01_hendun_medium R36 data slots occupied on the medium. -/
  usedSlots : Nat := 0
  /-- 04_command_packets R134 COMMIT_CLIP. -/
  commitClip : Word := 0
  /-- 04_command_packets R134 COMMIT_FRAMES. -/
  commitFrames : Nat := 0
  /-- 08_write_lanes R320 a fourth placement has failed, so the format rate is 0. -/
  relocFailed : Bool := false
  /-- 06_volume_map R238 the relocation list is full. -/
  relocFull : Bool := false
  /-- 08_write_lanes R320 failed placements of each LSN, as PSAs. -/
  placements : List (Nat × List Word) := []
  /-- 07_stripe_codec R274 session start sectors still to pass. -/
  startPending : Bool := false
  /-- 16_modes R587 session seals still to pass, by system sector number. -/
  seals : List Nat := []
  /-- 16_modes R587 the session's seals have been encoded. -/
  sealed : Bool := false
deriving DecidableEq, Repr

/-- The record path. -/
structure RecordPath where
  /-- 05_drey_buffers R161 the pools. -/
  drey : DreyPools := {}
  /-- 02_frame_path R60 frames that occupy slots, in the order of their slots. -/
  frames : List Frame := []
  /-- 04_command_packets R147 the open clip. -/
  clip : Option OpenClip := none
  /-- 04_command_packets R149 clips being closed, oldest first. -/
  closing : List ClosingClip := []
  /-- 04_command_packets R133 clips of the session in order, with the frames their close record counts. -/
  closed : List (Word × Nat) := []
  /-- 04_command_packets R147 clips opened in this session, oldest first, with their opening record's sector. -/
  opened : List (Word × Option Nat) := []
  /-- 02_frame_path R56 sectors of uncommitted frames that have passed verify: LSN and stripe sequence. -/
  passed : List (Nat × Nat) := []
  /-- 02_frame_path R56 system sectors that have passed verify. -/
  passedSys : List Nat := []
  /-- 02_frame_path R56 stripes of the session that are not settled. -/
  stripes : List Stripe := []
  /-- 08_write_lanes R294 head A's lanes. -/
  headA : WriteHead := {}
  /-- 08_write_lanes R294 head B's lanes. -/
  headB : WriteHead := {}
  /-- 08_write_lanes R295 beams of head A. -/
  beamsA : Vector BeamState 18 := Vector.replicate 18 {}
  /-- 08_write_lanes R295 beams of head B. -/
  beamsB : Vector BeamState 18 := Vector.replicate 18 {}
  /-- 06_volume_map R212 record queue, oldest first. -/
  records : List QueuedRecord := []
  /-- 06_volume_map R704 AUX data sectors waiting for a place: number, payload and the units of the side pool they hold. -/
  auxQueue : List (Nat × List Byte × Nat) := []
  /-- 01_hendun_medium R24, R690 when the layer's first field began, for both heads alike, as the last slot begun shows. -/
  layerAt : Option Int := none
  /-- 11_spindle R432 when the turnaround in progress began. -/
  turnAt : Option Time := none
  /-- 16_modes R576 recording is stopped. -/
  stopped : Bool := true
  /-- MODEL FIELD: free values drawn so far (log entry 8). -/
  draws : Nat := 0
deriving DecidableEq, Repr

end Sys2Proof.Machine
end

