-- ==== Sys2Proof/Machine/State/Servo.lean ====
section
/-! DEFINITION. The state of the Loop Engine, the spindle, the sleds, the head moves, the laser chain, calibration and
camera sync. -/

namespace Sys2Proof.Machine

/-- A 1.15 value (R375). -/
abbrev Q15 := BitVec 16

/-- The configuration of a Loop Engine slot: the registers of Table 10.4 that go through the shadow set. -/
structure LoopCfg where
  /-- 10_loop_engine R394 SOURCE. -/
  source : BitVec 3 := 0
  /-- 10_loop_engine R394 SUPERVISION. -/
  supervision : BitVec 2 := 0
  /-- 10_loop_engine R394 DERIV_ON. -/
  derivOn : Bool := false
  /-- 10_loop_engine R394 REF_EXT. -/
  refExt : Bool := false
  /-- 10_loop_engine R394 OUT_SHIFT. -/
  outShift : BitVec 4 := 0
  /-- 10_loop_engine R394 INPUT. -/
  input : BitVec 7 := 0
  /-- 10_loop_engine R394 OUTPUT. -/
  output : BitVec 7 := 0
  /-- 10_loop_engine R394 KP. -/
  kp : Q15 := 0
  /-- 10_loop_engine R394 KI. -/
  ki : Q15 := 0
  /-- 10_loop_engine R394 KD. -/
  kd : Q15 := 0
  /-- 10_loop_engine R394 AF. -/
  af : Q15 := 0
  /-- 10_loop_engine R394 REF_TARGET. -/
  refTarget : Q15 := 0
  /-- 10_loop_engine R394 FF. -/
  ff : Q15 := 0
  /-- 10_loop_engine R394 U_MAX. -/
  uMax : Q15 := 0
  /-- 10_loop_engine R394 U_MIN. -/
  uMin : Q15 := 0
  /-- 10_loop_engine R394 I_LIM. -/
  iLim : Q15 := 0
  /-- 10_loop_engine R394 RAMP_LEN. -/
  rampLen : BitVec 16 := 0
  /-- 10_loop_engine R394 SUP_LIM. -/
  supLim : Q15 := 0
  /-- 10_loop_engine R394 SUP_TIME. -/
  supTime : BitVec 16 := 0
  /-- 10_loop_engine R394 RDY_LIM. -/
  rdyLim : Q15 := 0
  /-- 10_loop_engine R394 DIV. -/
  div : BitVec 8 := 0
deriving DecidableEq, Repr

/-- The states of Table 10.3. -/
inductive LoopMode where
  | idle
  | ramp
  | run
  /-- HOLD, and whether the state it left was RUN. -/
  | hold (fromRun : Bool)
  | trip
deriving DecidableEq, Repr

/-- One slot of the Loop Engine. -/
structure LoopSlot where
  /-- 10_loop_engine R394 ENABLE. -/
  enable : Bool := false
  /-- 10_loop_engine R393 the configuration in use. -/
  cfg : LoopCfg := {}
  /-- 10_loop_engine R393 the shadow set. -/
  shadow : LoopCfg := {}
  /-- 10_loop_engine R386 STATE. -/
  mode : LoopMode := .idle
  /-- 10_loop_engine R394 TRIP_CAUSE. -/
  cause : BitVec 3 := 0
  /-- 10_loop_engine R380 CFG_ERR. -/
  cfgErr : Bool := false
  /-- 10_loop_engine R384 SUP_COUNT. -/
  supCount : BitVec 16 := 0
  /-- 10_loop_engine R384 consecutive missed samples. -/
  missedRun : Nat := 0
  /-- 10_loop_engine R394 E_LAST. -/
  eLast : Q15 := 0
  /-- 10_loop_engine R394 U_LAST. -/
  uLast : Q15 := 0
  /-- 10_loop_engine R394 MISSED. -/
  missed : BitVec 16 := 0
  /-- 10_loop_engine R394 OVERRUN. -/
  overrun : BitVec 16 := 0
  /-- 10_loop_engine R381 the next valid sample sets the initial state. -/
  fresh : Bool := false
  /-- 10_loop_engine R379 I_prev, in accumulator units. -/
  iPrev : Int := 0
  /-- 10_loop_engine R379 D_prev. -/
  dPrev : Int := 0
  /-- 10_loop_engine R379 e_prev. -/
  ePrev : Int := 0
  /-- 10_loop_engine R381 y0 of the present ramp. -/
  y0 : Int := 0
  /-- 10_loop_engine R381 ramp index. -/
  rampIdx : Nat := 0
  /-- 10_loop_engine R382 the reference of the latest sample. -/
  refNow : Int := 0
  /-- 10_loop_engine R379 output driven (the idle value is 0). -/
  out : Q15 := 0
  /-- 10_loop_engine R391 consecutive valid samples with |e| at most RDY_LIM, saturating at 64. -/
  inWindow : Nat := 0
  /-- 10_loop_engine R370 events of the source since the last sample. -/
  events : Nat := 0
deriving DecidableEq, Repr

/-- The Loop Engine. -/
structure LoopEngine where
  /-- 10_loop_engine R369 the 16 slots. -/
  slots : Vector LoopSlot 16 := Vector.replicate 16 {}
  /-- 10_loop_engine R391 SERVO_READY_A. -/
  readyA : Bool := false
  /-- 10_loop_engine R391 SERVO_READY_B. -/
  readyB : Bool := false
  /-- 10_loop_engine R394 SPEED_TRIM. -/
  speedTrim : Q15 := 0
  /-- 10_loop_engine R371 when slot 9 last gave SPEED_TRIM a value, and the value before that moment. -/
  trimAt : Option (Time × Q15) := none
  /-- 10_loop_engine R387 slots whose ENABLE has been cleared at the latest such moment, as they stood before it. -/
  cleared : List (LoopId × Time × LoopSlot) := []
  /-- 10_loop_engine R394 PHASE_STEP. -/
  phaseStep : Word := 0
  /-- 10_loop_engine R369 expected spindle angle at the next FSYNC, in 1/256 wedge. -/
  expectedAngle : Nat := 0
  /-- 10_loop_engine R395 the sets that firmware holds for 10,800 rpm. -/
  tuned : Vector LoopCfg 16 := Vector.replicate 16 {}
  /-- 15_bringup R564 loop gain results in force, KP, KI and KD, of slots 0 to 7. -/
  gains : Vector (Option (Q15 × Q15 × Q15)) 8 := Vector.replicate 8 none
  /-- 10_loop_engine R400 time of the last LOOP_OVERRUN log. -/
  overrunLogged : Option Time := none
deriving DecidableEq, Repr

/-- How the spindle gates are driven. -/
inductive GateDrive where
  /-- Every gate off. -/
  | off
  /-- Commutation under slot 8. -/
  | commutating
  /-- Zero-vector braking (R415). -/
  | braking
  /-- All low-side gates on (R415). -/
  | lowSide
deriving DecidableEq, Repr

/-- Commutation parameters of Table 11.1. -/
structure SpindleParams where
  polePairs : Nat := 4
  fPwm : Nat := 48
  deadTime : Nat := 100
  blank : Nat := 250
  iPeak : Nat := 120
  iTest : Nat := 40
  iStart : Nat := 80
  tTestMax : Nat := 50
  tDecay : Nat := 300
  /-- LEAD in 0.125 degrees per 1,000 rpm. -/
  lead : Nat := 8
  keNom : Nat := 0
  brakeMax : Nat := 60
deriving DecidableEq, Repr

/-- The sled profile limits (R424), in µm, s, and their powers. -/
structure SledProfile where
  vMax : Nat := 400000
  aMax : Nat := 20000000
  jMax : Nat := 4000000000
deriving DecidableEq, Repr

/-- The spindle and its commutation unit. -/
structure Spindle where
  /-- 11_spindle R403 parameters. -/
  params : SpindleParams := {}
  /-- 11_spindle R424 sled profile. -/
  sled : SledProfile := {}
  /-- 04_command_packets R130 SPINDLE field: 0 stopped, 1 starting, 2 changing speed, 3 at record speed, 4 at a review speed, 5 braking, 6 coasting. -/
  state : Nat := 0
  /-- 11_spindle R414 target speed in rpm. -/
  target : Nat := 0
  /-- 11_spindle R414 speed it turns at, as last measured. -/
  rpm : Nat := 0
  /-- 11_spindle R416 direction of rotation, true for reverse. -/
  reverse : Bool := false
  /-- 11_spindle R404 gates. -/
  gates : GateDrive := .off
  /-- 11_spindle R404 when the gates were last changed in a start or a stop. -/
  gatesAt : Time := 0
  /-- 11_spindle R412 PWM periods of the last 100 ms that hold a comparator trip, newest first; the high-side gates stay off for the rest of the newest. -/
  tripPeriods : List Nat := []
  /-- 11_spindle R418 lock-out. -/
  lockout : Bool := false
  /-- 11_spindle R436 failed attempts of the start in progress. -/
  attempts : Nat := 0
  /-- 11_spindle R436 a retry is due. -/
  retryDue : Bool := false
  /-- 11_spindle R437 time of the first slot 8 trip or stall. -/
  firstTrip : Option Time := none
  /-- 11_spindle R437 a restart is due. -/
  restartDue : Bool := false
  /-- 11_spindle R409 wedge lock. -/
  wedgeLock : Bool := false
  /-- 11_spindle R409 COMM_OFFSET, none until it is learned after a mount. -/
  commOffset : Option Int := none
  /-- 11_spindle R405 vector found at the last start, in half steps: 2k for Vk, 2k + 1 for midway between Vk and the next. -/
  foundVector : Nat := 0
  /-- 11_spindle R404 vector of the first forced step of the last start, in half steps. -/
  firstVector : Nat := 0
  /-- 11_spindle R410 KE_MEAS of the last check. -/
  keMeas : Nat := 0
  /-- 17_vole R613 starts since power-up. -/
  starts : Nat := 0
  /-- 17_vole R613 stalls since power-up. -/
  stalls : Nat := 0
  /-- 17_vole R613 slot 8 trips since power-up. -/
  trips : Nat := 0
  /-- 11_spindle R404 a start is wanted, to `target` in the direction of `reverse`. -/
  startDue : Bool := false
  /-- 13_power_states R478 speed at PARK entry. -/
  parkSpeed : Nat := 0
  /-- 11_spindle R416 after braking, start again in this direction. -/
  thenStart : Option (Nat × Bool) := none
deriving DecidableEq, Repr

/-- The modes of the sled reference generator. -/
inductive SledMode where
  | hold
  | seek
  | follow
deriving DecidableEq, Repr

/-- One head: its sled, its generators, its laser chain. -/
structure HeadState where
  /-- 11_spindle R427 sled position in nm (log entry 9). -/
  sledNm : Nat := 30500000
  /-- 11_spindle R424 sled mode. -/
  sledMode : SledMode := .hold
  /-- 11_spindle R424 seek target in nm. -/
  seekNm : Nat := 0
  /-- 11_spindle R424 profile time of the running seek, in ns. -/
  seekTime : Nat := 0
  /-- 11_spindle R424 when the running seek began. -/
  seekAt : Time := 0
  /-- 11_spindle R425 consecutive sled samples below 1,024 LSB since the profile of the seek ended, at most 32. -/
  quiet : Nat := 0
  /-- 11_spindle R426 samples of the sled slot in FOLLOW since it began. -/
  followN : Nat := 0
  /-- 11_spindle R426 what the tracking drive has added to the reference in FOLLOW, in pm. -/
  followTrim : Int := 0
  /-- 11_spindle R426 sum and count of the tracking drive in the present revolution of FOLLOW. -/
  driveSum : Int × Nat := (0, 0)
  /-- 11_spindle R425 target band of a seek onto data. -/
  seekBand : Option Nat := none
  /-- 11_spindle R427 the head is parked. -/
  parked : Bool := true
  /-- 11_spindle R423 the head decodes wedges. -/
  decoding : Bool := false
  /-- 11_spindle R428 layer on which focus stands. -/
  layer : Nat := 0
  /-- 11_spindle R428 focus is captured. -/
  captured : Bool := false
  /-- 11_spindle R428 focus has been captured and tilt and tracking are still to follow. -/
  closing : Bool := false
  /-- 11_spindle R429 three captures have failed. -/
  captureFailed : Bool := false
  /-- 11_spindle generators of focus, tracking and tilt: holding their drive output. -/
  genFocus : Int := 0
  /-- 11_spindle tracking generator. -/
  genTrack : Int := 0
  /-- 11_spindle tilt generator. -/
  genTilt : Int := 0
  /-- 11_spindle R431 tracking offset from the head's own tracks, in tracks. -/
  trackOffset : Int := 0
  /-- 11_spindle R434 the head is pre-focused on another layer. -/
  prefocus : Option Nat := none
  /-- 14_quill R514 Quill's laser release. -/
  release : Bool := false
  /-- 08_write_lanes R313 firmware's laser enable. -/
  laserEnable : Bool := false
  /-- 18_balls R644 firmware's actuator enable. -/
  actEnable : Bool := false
  /-- 08_write_lanes R701 the chain has opened and the head waits for recapture. -/
  needRecapture : Bool := false
deriving DecidableEq, Repr

/-- Status of a calibration step on one scope (Table 15.7). -/
inductive StepStatus where
  | pending
  | running
  | passed
  | discarded
  | notRun (mask : Word)
  | aborted (mask : Word)
  | notApplicable
deriving DecidableEq, Repr

/-- One unit of calibration: a step on a beam, a head or the device. -/
structure CalUnit where
  status : StepStatus := .pending
  /-- ms since the functions became ready, at the last status change. -/
  atMs : Nat := 0
deriving DecidableEq, Repr

/-- Calibration: the steps of Table 15.1 by scope. -/
structure Calib where
  /-- 15_bringup R535 beam steps 1, 2, 3, 12, 13 and 14 of head A. -/
  beamsA : Vector (Vector CalUnit 6) 18 := Vector.replicate 18 (Vector.replicate 6 { status := .notApplicable })
  /-- 15_bringup R535 the same for head B. -/
  beamsB : Vector (Vector CalUnit 6) 18 := Vector.replicate 18 (Vector.replicate 6 { status := .notApplicable })
  /-- 15_bringup R535 head steps 4, 6, 10 and 11 of head A. -/
  headA : Vector CalUnit 4 := Vector.replicate 4 { status := .notApplicable }
  /-- 15_bringup R535 the same for head B. -/
  headB : Vector CalUnit 4 := Vector.replicate 4 { status := .notApplicable }
  /-- 15_bringup R535 device steps 5 and 7. -/
  device : Vector CalUnit 2 := Vector.replicate 2 { status := .notApplicable }
  /-- 15_bringup R537, R556 group M has been begun for the magazine present. -/
  groupM : Bool := false
  /-- 15_bringup R539 when the functions became ready. -/
  readyAt : Time := 0
  /-- 15_bringup R543 BRINGUP as last reported. -/
  bringup : Bool := false
  /-- 15_bringup R567 a result has changed since the device section was written. -/
  changed : Bool := false
deriving DecidableEq, Repr

/-- The interlock and supply pins as they are driven from outside. -/
structure PinState where
  /-- 18_balls R628 PERST_N asserted. -/
  perst : Bool := true
  /-- 18_balls R628 PGOOD. -/
  pgood : Bool := true
  /-- 18_balls R628 LASER_ARM asserted. -/
  laserArm : Bool := false
  /-- 18_balls R628 DOOR_SENSE high. -/
  doorSense : Bool := true
  /-- 18_balls R628 MAG_PRESENT_N low. -/
  magPresent : Bool := false
  /-- 18_balls R628 PWRFAIL_N asserted. -/
  pwrfail : Bool := false
  /-- 18_balls R654 TEST_EN. -/
  testEn : Bool := false
  /-- 18_balls R628 PSSEL. -/
  pssel : Bool := true
  /-- 08_write_lanes R702 since when LASER_ARM has been asserted. -/
  armSince : Time := 0
  /-- 08_write_lanes R702 since when DOOR_SENSE has been low. -/
  doorSince : Time := 0
  /-- 08_write_lanes R315 when DOOR_SENSE rose. -/
  doorRose : Time := 0
  /-- 18_balls R636 VCORE is below 0.55 V, so every output takes its reset state. -/
  vcoreLow : Bool := false
deriving DecidableEq, Repr

/-- FSYNC and timecode. -/
structure SyncState where
  /-- 19_electrical R675 time of the last accepted edge. -/
  lastEdge : Option Time := none
  /-- 19_electrical R676 FSYNC_IGNORED. -/
  ignored : Word := 0
  /-- 19_electrical R676 FSYNC_PERIOD. -/
  period : Word := 0
  /-- 19_electrical R390 spacings of the last accepted edges in µs, newest first, at most eight. -/
  spacings : List Nat := []
  /-- 19_electrical R679 time address latched at the last accepted edge. -/
  latched : Word := 0x80
  /-- 19_electrical R678 time address of the last LTC frame whose sync word completed. -/
  address : Word := 0x80
  /-- 19_electrical R678 when that sync word completed. -/
  syncAt : Option Time := none
  /-- 19_electrical R678 bit rate decoded from that frame. -/
  bitRate : Nat := 0
  /-- 19_electrical R678 timecode is valid. -/
  valid : Bool := false
deriving DecidableEq, Repr

end Sys2Proof.Machine
end

