-- ==== Sys2Proof/Machine/State/System.lean ====
section
/-! DEFINITION. The state of the pace monitor, the crossing bridges, the power states, Quill and Vole. -/

namespace Sys2Proof.Machine

/-- One pace chain (R441, R442). -/
structure Chain where
  /-- 12_handshake R445 latest P; 0 when unpowered. -/
  latest : Nat := 0
  /-- 12_handshake R442 readings since the domain was powered up, newest first: time and P; those of the last 1,000 ms are kept. -/
  readings : List (Time × Nat) := []
  /-- 12_handshake R442 since when the domain has been powered. -/
  since : Time := 0
  /-- 12_handshake R467 the chain is faulty. -/
  faulty : Bool := false
deriving DecidableEq, Repr

/-- The pace monitor and the VCORE request. -/
structure Pace where
  /-- 12_handshake R441 chains of domains 2 to 7. -/
  chains : Vector Chain 6 := Vector.replicate 6 {}
  /-- 12_handshake R443 R_pace, in PACE_RATE. -/
  rate : Word := 0
  /-- 12_handshake R445 PACE_MIN. -/
  min : BitVec 16 := 0
  /-- 12_handshake R445 PACE_MIN_DOMAIN. -/
  minDomain : BitVec 4 := 0
  /-- 12_handshake R700 VCORE_REQ held by Dormouse, in mV. -/
  vcore : Nat := 750
  /-- 19_electrical R660 VCORE_REQ before the last change, in mV. -/
  prevVcore : Nat := 750
  /-- 12_handshake R449 when the last step was requested. -/
  lastStep : Time := 0
  /-- 12_handshake R466 when PACE_LOW was last logged for each domain. -/
  lowLogged : Vector (Option Time) 6 := Vector.replicate 6 none
deriving DecidableEq, Repr

/-- One crossing bridge. -/
structure Bridge where
  number : Nat
  /-- 12_handshake R462 flush counter. -/
  flushed : Word := 0
  /-- 12_handshake R457 overflow counter. -/
  overflows : Word := 0
  /-- 12_handshake R459 fabric side in reset. -/
  fabricReset : Bool := false
  /-- 12_handshake R459 island side in reset. -/
  islandReset : Bool := false
  /-- 12_handshake R463 it carries traffic. -/
  armed : Bool := true
  /-- 12_handshake R455 words in the buffer of a type F bridge, oldest first. -/
  words : List Nat := []
  /-- 12_handshake R452 write pointer, modulo twice the buffer's words. -/
  wr : Nat := 0
  /-- 12_handshake R452 read pointer, modulo twice the buffer's words. -/
  rd : Nat := 0
  /-- 12_handshake R452 line of a type E bridge. -/
  toggle : Bool := false
deriving DecidableEq, Repr

/-- Who asked for a pending or running power target. -/
inductive Requester where
  | command (org : Origin) (cid : BitVec 16)
  | pin
  | internal
deriving DecidableEq, Repr

/-- What a running power transition is doing. -/
inductive PowerStep where
  /-- A clip is being closed or an UNMOUNT performed first (R479, R480). -/
  | prelude
  | runToDoze
  | dozeToRun
  | dozeToPark
  | parkToDoze
  | parkToTorpor
  | torporToHibernate
  | exiting (fromHibernate : Bool)
deriving DecidableEq, Repr

/-- The power states and Dormouse. -/
structure Power where
  /-- 13_power R468 present state. -/
  state : PowerState := .hibernate
  /-- 13_power R491 RUNNING. -/
  running : Option PowerState := none
  /-- 13_power R478 the step that runs. -/
  step : Option PowerStep := none
  /-- 13_power R495 those who asked for the running target. -/
  runBy : List Requester := []
  /-- 13_power R493 PENDING. -/
  pending : Option PowerState := none
  /-- 13_power R493 those who asked for the pending target. -/
  pendBy : List Requester := []
  /-- 13_power R489 WAKE latch: the pin that set it. -/
  wake : Option WakePin := none
  /-- 13_power R489 PEND target in Dormouse. -/
  pend : Option PowerState := none
  /-- 13_power R491 EXIT_FROM, 7 none. -/
  exitFrom : BitVec 3 := 7
  /-- 13_power R491 BY_REPLAY. -/
  byReplay : Bool := false
  /-- 13_power R491 LAST_WAKE. -/
  lastWake : BitVec 4 := 0
  /-- 13_power R487 WAKE_STORM flags of WAKE0_N, WAKE1_N and PSREQ_N. -/
  storm : Vector Bool 3 := Vector.replicate 3 false
  /-- 13_power R487 accepted edges of each pin in the last 1,000 ms. -/
  edges : Vector (List Time) 3 := Vector.replicate 3 []
  /-- 13_power R486 the last edge of each pin that made an event. -/
  lastEvent : Vector (Option Time) 3 := Vector.replicate 3 none
  /-- 13_power R487 storms to be logged at the next exit. -/
  stormLog : List Nat := []
  /-- 13_power R471 RAIL_CORE_EN. -/
  railCore : Bool := false
  /-- 13_power R471 RAIL_MAIN_EN. -/
  railMain : Bool := false
  /-- 13_power R500 rail timeouts in the present attempt. -/
  railFails : Nat := 0
  /-- 13_power R500 a retry is due. -/
  railRetry : Bool := false
  /-- 13_power R500 rails whose RAIL_TIMEOUT is to be logged at the next exit. -/
  railLog : List Nat := []
  /-- 13_power R482 when the wake or its replay came that began the exit. -/
  exitAt : Time := 0
  /-- 13_power R468 VAON is powered. -/
  vaon : Bool := false
  /-- 16_modes R584 step of the power-fail sequence last run, 0 none. -/
  pfStep : Nat := 0
  /-- 16_modes R584 when PWRFAIL_N asserted. -/
  pfAt : Time := 0
  /-- 19_electrical R683 a PERST_N waits for the power-fail sequence. -/
  perstDeferred : Bool := false
  /-- 13_power R469 domains 2 to 16 powered and released, bit d for domain d. -/
  domains : BitVec 17 := 0
  /-- 13_power R469 domains in retention, bit d for domain d. -/
  retained : BitVec 17 := 0
  /-- 19_electrical R686 islands held in reset for loss of lock, in the order of Table 12.3. -/
  pllLost : List Island := []
deriving DecidableEq, Repr

/-- A firmware slot of the boot flash (Table 14.2): its header and its image. -/
structure FwSlot where
  header : List Byte := []
  image : List Byte := []
deriving DecidableEq, Repr

/-- An FW_STAGE staging in progress (R520). -/
structure Staging where
  /-- Slot being staged, 0 A, 1 B. -/
  slot : Nat
  /-- Chunks held or written, as offset and bytes. -/
  chunks : List (Nat × List Byte) := []
deriving DecidableEq, Repr

/-- Quill: OTP, measurements, key slots, attestation and the update (14_quill_secure_start). -/
structure QuillState where
  /-- 14_quill R502 device seed (log entry 9). -/
  seed : List Byte := List.replicate 32 0
  /-- 14_quill R502 serial number. -/
  serial : List Byte := List.replicate 16 0
  /-- 14_quill R502 vendor certificate. -/
  certificate : List Byte := List.replicate 96 0
  /-- 14_quill R502 signing key hashes. -/
  keyHashes : List (List Byte) := List.replicate 4 (List.replicate 48 0)
  /-- 14_quill R502 revoked keys. -/
  revoked : BitVec 4 := 0
  /-- 14_quill R502 unlock authority hashes. -/
  authHashes : List (List Byte) := List.replicate 2 (List.replicate 48 0)
  /-- 14_quill R502 floor entries programmed, newest first. -/
  floors : List Nat := []
  /-- 14_quill R502 LK, once programmed. -/
  lk : Option (List Byte) := none
  /-- 14_quill R506 LK lock bit. -/
  lkLocked : Bool := false
  /-- 14_quill R507 a read-back has differed, so LK is unusable. -/
  lkBad : Bool := false
  /-- 14_quill R502 attestation epoch. -/
  epoch : Nat := 0
  /-- 14_quill R517 attestation count. -/
  count : Nat := 0
  /-- 14_quill R517 an ATTEST has been served since the last boot from mask ROM. -/
  attested : Bool := false
  /-- 14_quill R530 counter of the latest report of this boot. -/
  lastReport : Option Nat := none
  /-- 14_quill R511 measurement registers M0 to M7. -/
  measures : Vector (List Byte) 8 := Vector.replicate 8 (List.replicate 48 0)
  /-- 07_stripe_codec R280 the 16 key slots. -/
  keys : Vector (Option (List Byte)) 16 := Vector.replicate 16 none
  /-- 14_quill R504 the random bit generator runs. -/
  rbgOk : Bool := true
  /-- 14_quill R508 firmware slot A. -/
  slotA : FwSlot := {}
  /-- 14_quill R508 firmware slot B. -/
  slotB : FwSlot := {}
  /-- 14_quill R524 floor request in the Quill record sector. -/
  floorRequest : Option Nat := none
  /-- 14_quill R510 running slot: 0 A, 1 B, none before a boot or in recovery. -/
  running : Option Nat := none
  /-- 14_quill R510 running SEQUENCE. -/
  sequence : Nat := 0
  /-- 14_quill R526 recovery. -/
  recovery : Bool := false
  /-- 14_quill R513 step of Table 14.4 last reached; 0 in reset. -/
  bootStep : Nat := 0
  /-- 14_quill R533 Quill has stopped. -/
  stopped : Bool := false
  /-- 14_quill R528 boot record: code and arguments of records to log at Vole's release. -/
  bootRecord : List (BitVec 16 × List Word) := []
  /-- 14_quill R514 motor-control release. -/
  motorRelease : Bool := false
  /-- 14_quill R520 the staging in progress. -/
  staging : Option Staging := none
  /-- 14_quill R523 SEQUENCE of a staging that completed with SUCCESS since the last boot. -/
  staged : Option Nat := none
  /-- 14_quill R527 slot A has been staged in this recovery. -/
  recoveryA : Bool := false
  /-- 14_quill R523 an activation has completed and its reset is due. -/
  activating : Bool := false
  /-- 14_quill R532 unlock level, 0 locked. -/
  unlock : Nat := 0
  /-- 14_quill R531 UNLOCK_REFUSED completions since the last boot. -/
  refusals : Nat := 0
  /-- 14_quill R519 resumed from TORPOR since the last boot. -/
  resumed : Bool := false
  /-- 14_quill R504 the generator: its key and its counter block. -/
  rbg : List Byte × List Byte := (List.replicate 32 0, List.replicate 16 0)
  /-- The model's own: seedings of the generator so far (log entry 8). -/
  seedings : Nat := 0
deriving DecidableEq, Repr

/-- An event log record (Table 17.3). -/
structure LogRecord where
  seq : Nat
  boot : Nat
  timeUs : Nat
  code : BitVec 16
  count : Nat
  args : List Word
deriving DecidableEq, Repr

/-- A flash sector of the event log. -/
structure LogSector where
  bad : Bool := false
  records : List LogRecord := []
deriving DecidableEq, Repr

/-- What a device bank of the calibration archive holds of one beam (Table 15.6, types 0x01, 0x04 and 0x0A). -/
structure ArchivedBeam where
  par : ChanParams := {}
  verify : ChanParams := {}
  taps : Vector Int 24 := Vector.replicate 24 0
  gain : Int := 24
  adcOffset : Int := 0
  readCode : Nat := 0
  writeCode : Nat := 0
  readTarget : Nat := 0
  betaTarget : Nat := 0
  slope : Nat := 0
deriving DecidableEq, Repr

/-- A valid device bank (R563): its generation and its records. -/
structure DeviceBank where
  generation : Nat
  beamsA : Vector ArchivedBeam 18
  beamsB : Vector ArchivedBeam 18
  /-- Loop gain results of slots 0 to 7 (type 0x05). -/
  gains : Vector (Option (BitVec 16 × BitVec 16 × BitVec 16)) 8
deriving DecidableEq, Repr

/-- Vole: event log, sensors and side ports (17_vole_management). -/
structure VoleState where
  /-- 17_vole R600 Vole is released and powered. -/
  alive : Bool := false
  /-- 17_vole R606 BOOT. -/
  boot : Nat := 0
  /-- 17_vole R606 next SEQUENCE. -/
  nextSeq : Nat := 1
  /-- 17_vole R607 records created and not yet programmed, oldest first. -/
  queue : List LogRecord := []
  /-- 17_vole R601 the 256 sectors of the log region that hold records or are bad, by index. -/
  sectors : List (Nat × LogSector) := []
  /-- 17_vole R609 sector being written. -/
  cur : Nat := 0
  /-- 17_vole R615 the newest records created, newest first, at most 1,023. -/
  newest : List LogRecord := []
  /-- 17_vole R608 records created in this window. -/
  windowCount : Nat := 0
  /-- 17_vole R608 when this window began. -/
  windowAt : Time := 0
  /-- 17_vole R608 events dropped in this window. -/
  windowDropped : Nat := 0
  /-- 17_vole R615 events dropped since power-up. -/
  dropped : Nat := 0
  /-- 17_vole R610 events raised while Vole was not released, oldest first. -/
  deferred : List (BitVec 16 × List Word) := []
  /-- 17_vole R604 when this boot began. -/
  bootAt : Time := 0
  /-- 17_vole R611 no flash program starts. -/
  frozen : Bool := false
  /-- 17_vole R695 records carried in the retention bank. -/
  retained : List LogRecord := []
  /-- 17_vole R606 BOOT carried in the retention bank. -/
  retainedBoot : Nat := 0
  /-- 17_vole R625 restarts since power-up. -/
  restarts : Nat := 0
  /-- 17_vole R602 latest readings by sensor index 0 to 24; none is absent or faulty. -/
  readings : Vector (Option Int) 25 := Vector.replicate 25 none
  /-- 17_vole R602 when each sensor's event was last logged. -/
  logged : Vector (Option Time) 25 := Vector.replicate 25 none
  /-- 17_vole R613 last MR4 refresh field by DDR5 device. -/
  mr4 : Vector (BitVec 8) 20 := Vector.replicate 20 0
  /-- 15_bringup R565 external sensors of the archive in use: address, TEMP_REG, FORMAT, threshold in 1/8 °C. -/
  extSensors : List (BitVec 7 × Byte × Byte × Int) := []
  /-- 17_vole R619 consecutive failed transactions by address. -/
  i2cFails : List (BitVec 7 × Nat) := []
  /-- 17_vole R619 addresses that cannot be reached. -/
  unreachable : List (BitVec 7) := []
  /-- 17_vole R616 register pointer of the I2C target. -/
  pointer : Byte := 0
  /-- 17_vole R617 LOG_PTR. -/
  logPtr : DWord := 0
  /-- 17_vole R620 service port rate. -/
  baud : Nat := 115200
  /-- 17_vole R621 a request is outstanding on the service port. -/
  uartBusy : Bool := false
  /-- 17_vole R620 bytes of a frame that has begun and not ended. -/
  uartPartial : Bool := false
  /-- 17_vole R623 archive data collected: offset and bytes. -/
  archiveData : List (Nat × List Byte) := []
  /-- 15_bringup R563 integrator section of the archive in flash, header included. -/
  integrator : List Byte := []
  /-- 15_bringup R568 the integrator section in use is valid. -/
  integratorValid : Bool := false
  /-- 15_bringup R564 the keys of the records of the integrator section in use: type, beam, layer, zone set. -/
  keysInUse : List (Nat × Nat × Nat × Nat) := []
  /-- 15_bringup R563 device bank 0, where valid. -/
  bank0 : Option DeviceBank := none
  /-- 15_bringup R563 device bank 1, where valid. -/
  bank1 : Option DeviceBank := none
  /-- 15_bringup R565 PMIC address, VCORE register, code width, CODE_600, STEP_CODE of the archive in use. -/
  pmic : Option (BitVec 7 × Byte × Nat × Nat × Int) := none
deriving DecidableEq, Repr

/-- The device parameters of Table 4.11. -/
structure Params where
  /-- 04_command_packets R159 RATE_WARN_PCT. -/
  rateWarnPct : Nat := 60
  /-- 04_command_packets R159 FULL_WAIT_MS. -/
  fullWaitMs : Nat := 500
  /-- 04_command_packets R159 REVIEW_MARGIN_MIB. -/
  reviewMarginMib : Nat := 2048
deriving DecidableEq, Repr

end Sys2Proof.Machine
end

