-- ==== Sys2Proof/Machine/State.lean ====
section
/-! DEFINITION. The whole state of the T36, its state at reset, and the ways a command can stop. -/

namespace Sys2Proof.Machine

/-- Faults: the machine stops. -/
inductive Fault where
  /-- REGISTER_WRITE to an offset outside the window it names (R76, R394). Safe: no such register exists. -/
  | outsideWindow
  /-- A DDR5 read of a burst above the first 18 GiB, which the T36 leaves unused (R162). Safe. -/
  | outsideDrey
deriving DecidableEq, Repr

/-- Refusals: no meaning for the command. -/
inductive Refusal where
  /-- An arm of exec that has no meaning yet; no command of this model answers it. Safe. -/
  | notModelled (mnemonic : String)
  /-- JTAG_TAP_ACCESS with an instruction other than BYPASS and IDCODE after an unlock: the spec names boundary
  scan and processor debug and gives neither an encoding nor an effect of them (R529, Table 14.6). Safe. -/
  | unlockedTapInstruction
deriving DecidableEq, Repr

/-- The state of the T36. -/
structure State where
  /-- MODEL FIELD: the commands that wait, oldest first. -/
  pending : List Instr
  /-- MODEL FIELD: the time of the last command, in ns since VAON was powered up (log entry 1). -/
  now : Time
  /-- MODEL FIELD: when PERST_N last de-asserted, from which TIME fields count (R604, Table 3.5). -/
  perstAt : Time
  /-- The host link and its commands (03_host_link_tenants, 04_command_packets). -/
  host : HostLink
  /-- The record direction (02_frame_path, 05_drey_buffers, 08_write_lanes). -/
  rcd : RecordPath
  /-- The magazine and the mount session (04_command_packets, 07_stripe_codec_crypto). -/
  mnt : Mount
  /-- The volume map, its cache and Burrow (06_volume_map_burrow). -/
  vmap : MapState
  /-- The read direction (09_read_channel). -/
  rd : ReadPath
  /-- DDR5 protection (05_drey_buffers). -/
  dram : DramState
  /-- The Loop Engine (10_loop_engine). -/
  loop : LoopEngine
  /-- The spindle (11_spindle_sled_moves). -/
  spin : Spindle
  /-- Head A: sled, moves and laser chain. -/
  hdA : HeadState
  /-- Head B. -/
  hdB : HeadState
  /-- Calibration (15_bringup_calibration). -/
  cal : Calib
  /-- Pins driven from outside (18_balls_supplies). -/
  pins : PinState
  /-- FSYNC and timecode (19_electrical_timing). -/
  sync : SyncState
  /-- The pace monitor and VCORE (12_handshake_fabric). -/
  pace : Pace
  /-- Bridges that have carried an event: the others have every field at its default (R452, R462). -/
  bridges : List Bridge
  /-- Power states and Dormouse (13_power_states). -/
  pwr : Power
  /-- Quill (14_quill_secure_start). -/
  quill : QuillState
  /-- Vole (17_vole_management). -/
  vole : VoleState
  /-- Device parameters (Table 4.11). -/
  params : Params
deriving DecidableEq, Repr

/-- The machine right after reset: power has been applied and PERST_N has been asserted, so every block but
Dormouse is in reset, no output is active, and the rails are enabled (R48, R116; log entry 10). -/
def State.reset : State where
  pending := []
  now := 0
  perstAt := 0
  host := {}
  rcd := {}
  mnt := {}
  vmap := {}
  rd := {}
  dram := {}
  loop := {}
  spin := {}
  hdA := {}
  hdB := {}
  cal := {}
  pins := {}
  sync := {}
  pace := {}
  bridges := []
  pwr := { state := .park, railCore := true, railMain := true, vaon := true }
  quill := {}
  vole := {}
  params := {}

end Sys2Proof.Machine
end

