-- ==== Sys2Proof/Machine/Flags.lean ====
section
/-! DEFINITION. What the state shows outside without being stored: the interlock outputs, the state code, the retired
beams, the rates and the register words made of other state. -/

namespace Sys2Proof.Machine

/-- A vector with one element changed. -/
def Vec.upd {α : Type} {n : Nat} (v : Vector α n) (i : Fin n) (f : α → α) : Vector α n := v.set i.val (f v[i]) i.isLt

/-- One head's sled, moves and laser chain. -/
def State.hd (s : State) (h : Head) : HeadState :=
  match h with
  | .a => s.hdA
  | .b => s.hdB

/-- One head's write lanes. -/
def State.wh (s : State) (h : Head) : WriteHead :=
  match h with
  | .a => s.rcd.headA
  | .b => s.rcd.headB

/-- The beams of one head. -/
def State.beams (s : State) (h : Head) : Vector BeamState 18 :=
  match h with
  | .a => s.rcd.beamsA
  | .b => s.rcd.beamsB

/-- One beam. -/
def State.beam (s : State) (h : Head) (b : Beam) : BeamState := (s.beams h)[b]

/-- All beams in order. -/
def allBeams : List Beam := List.finRange 18

/-- The retired beams of a head, in order. -/
def State.retiredBeams (s : State) (h : Head) : List Beam := allBeams.filter fun b => (s.beam h b).retired

/-- How many beams of a head are retired. -/
def State.retiredCount (s : State) (h : Head) : Nat := (s.retiredBeams h).length

/-- The RETIRED_BEAMS word of a head (Table 4.8). -/
def State.retiredWord (s : State) (h : Head) : Word :=
  BitVec.ofNat 32 ((s.retiredBeams h).foldl (fun acc b => acc + 2 ^ b.val) 0)

/-- The servo-ready flag of a head (R391). -/
def State.servoReady (s : State) (h : Head) : Bool :=
  match h with
  | .a => s.loop.readyA
  | .b => s.loop.readyB

/-- VIO18 or VIO33 has fallen below its operating range, as last read (R655, Tables 17.2 and 19.2). -/
def State.ioFallen (s : State) : Bool :=
  (s.vole.readings[14]).any (fun v => decide (v < 1710)) || (s.vole.readings[15]).any fun v => decide (v < 3135)

/-- LD_EN of a head: the combinational gate of the laser safety chain (R313); VCORE below 0.55 V drives every output to
its reset state (R636), and without VIO18 or VIO33 the output loses its drive (R655). -/
def State.ldEn (s : State) (h : Head) : Bool :=
  s.pins.laserArm && !s.pins.doorSense && (s.hd h).release && (s.hd h).laserEnable && !s.pins.vcoreLow && !s.ioFallen

/-- The bridges of a head's write lane (Table 12.3, log entry 29). -/
def laneBridge (h : Head) (n : Nat) : Bool :=
  match h with
  | .a => decide (0x30 ≤ n) && decide (n ≤ 0x33)
  | .b => decide (0x34 ≤ n) && decide (n ≤ 0x37)

/-- The lanes of a head are held at OFF: their PLL has lost lock, or one of their bridges is not armed (R686, Table 12.7). -/
def State.laneHeld (s : State) (h : Head) : Bool :=
  s.pwr.pllLost.contains .writeLane || s.bridges.any fun x => laneBridge h x.number && !x.armed

/-- The level index a lane drives: OFF while LD_EN is low (R314, R315). -/
def State.levelOf (s : State) (h : Head) (b : Beam) : Level :=
  if s.ldEn h && !(s.beam h b).driverLost && !s.laneHeld h then (s.beam h b).level else .off

/-! Timecode (R209, R678, R679). -/

/-- Nanoseconds of a number of bit periods at a bit rate. -/
def bitTime (n rate : Nat) : Nat := n * 1000000000 / max 1 rate

/-- Timecode is valid at a moment: it became valid, and three frame times, at the last decoded bit rate, have not passed
without a sync word (R678). -/
def SyncState.validAt (y : SyncState) (now : Time) : Bool :=
  y.valid && y.syncAt.any fun a => decide (now < a + bitTime 240 y.bitRate)

/-- The time address an edge or a fetch latches; the no-timecode value of R209 while timecode is invalid (R679, R681). -/
def SyncState.toLatch (y : SyncState) (now : Time) : Word := if y.validAt now then y.address else 0x80

/-- A magazine is mounted read-write. -/
def State.mountedRW (s : State) : Bool := s.mnt.mode == .readWrite

/-- A magazine is mounted. -/
def State.mounted (s : State) : Bool := s.mnt.mode != .none

/-- A clip is open (R570). -/
def State.clipOpen (s : State) : Bool := s.rcd.clip.isSome

/-- A running command has one of these opcodes. -/
def State.runs (s : State) (ops : List Opcode) : Bool := s.host.running.any fun r => ops.contains r.op

/-- REVIEW runs (R570). -/
def State.reviewOn (s : State) : Bool :=
  s.runs [.read, .frameRead, .metaRead] || s.rd.ladderA != 0 || s.rd.ladderB != 0

/-- VERIFY runs (R570). -/
def State.verifyOn (s : State) : Bool := s.rd.bufferScrub || s.rd.mediaScrub

/-- SERVICE runs (R570). -/
def State.serviceOn (s : State) : Bool := s.runs [.calibrate, .spindle, .fwStage, .fwActivate, .jtagUnlock]

/-- A flag as one bit of a word. -/
def bit (b : Bool) (n : Nat) : Nat := if b then 2 ^ n else 0

/-- The POWER field of the state code (Table 4.7); TORPOR and HIBERNATE have no host that reads it. -/
def PowerState.num (p : PowerState) : Nat :=
  match p with
  | .run => 0
  | .doze => 1
  | .park => 2
  | .torpor => 3
  | .hibernate => 4

/-- The power state of a TARGET value (Table 4.5). -/
def PowerState.ofNum (n : Nat) : Option PowerState :=
  match n with
  | 0 => some .run
  | 1 => some .doze
  | 2 => some .park
  | 3 => some .torpor
  | 4 => some .hibernate
  | _ => none

/-- The MAGAZINE field of the state code (Table 4.7). -/
def State.magazineField (s : State) : Nat := s.mnt.magazine

/-- The state code (R130, Table 4.7). -/
def State.stateCode (s : State) : Word :=
  BitVec.ofNat 32 (PowerState.num s.pwr.state * 2 ^ 28 + s.magazineField * 2 ^ 24 + bit s.clipOpen 23 +
    bit s.reviewOn 22 + bit s.verifyOn 21 + bit s.serviceOn 20 + bit s.cal.bringup 19 + bit s.quill.recovery 18 +
    bit s.vmap.burrow.degraded 17 + bit s.dram.lost.isSome 16 + s.spin.state * 2 ^ 12 +
    min (s.retiredCount .a) 15 * 2 ^ 8 + min (s.retiredCount .b) 15 * 2 ^ 4)

/-- DRAM_LOST (Table 4.8). -/
def State.dramLostWord (s : State) : Word :=
  match s.dram.lost with
  | none => 0
  | some d => BitVec.ofNat 32 (128 + d.val)

/-- REMAINING_SLOTS (Table 4.8, R36). -/
def State.remainingSlots (s : State) : Nat :=
  if s.mounted then Config.magazineSlots - s.mnt.usedSlots else 0

/-- The occupancy A of the frame pool: skipped bytes and slots from the head of the ring (R165 to R167). -/
def State.occupancy (s : State) : Nat := (s.rcd.drey.ring.map (·.bytes)).sum

/-- The warning level W (R174). -/
def State.warnLevel (s : State) : Nat := Config.framePool * s.params.rateWarnPct / 100

/-- A head that takes stripes: at most one retired beam, groups left, and no failed capture (R43, R44, R429). -/
def State.takesStripes (s : State) (h : Head) : Bool :=
  decide (s.retiredCount h ≤ 1) && !(s.wh h).full && !(s.hd h).captureFailed

/-- The format record rate in MB/s (R37 to R39, R43, R238, R319, R320, R422, R429, R568). -/
def State.formatRate (s : State) : Nat :=
  let worst := max (s.retiredCount .a) (s.retiredCount .b)
  let base := if worst = 0 then 3200 else 3000
  let over8 := s.rcd.headA.over8 || s.rcd.headB.over8
  let over2 := s.rcd.headA.over2 || s.rcd.headB.over2
  let stopped := s.clipOpen && s.spin.state != 3
  let failed := s.hdA.captureFailed || s.hdB.captureFailed || !s.vole.integratorValid
  if worst ≥ 2 || over8 || s.mnt.relocFailed || s.mnt.relocFull || stopped || failed then 0
  else if over2 then base * 15 / 16
  else base

/-- The guarantee G in MB/s: the lower of the format record rate and the pace-monitor rate (R147). -/
def State.guarantee (s : State) : Nat := min s.formatRate s.pace.rate.toNat

/-- The declared rate D of a profile in bytes/s (R147). -/
def Profile.rate (p : Profile) : Nat := (p.frameBytes * p.rateNum + p.rateDen - 1) / p.rateDen

/-- A rate in MB/s, rounded to the nearest, halves up (R173). -/
def mbRound (bytes : Nat) : Nat := (bytes + 500000) / 1000000

/-- A rate in MB/s, rounded up (Table 4.9, PROFILE_UNSUSTAINABLE). -/
def mbCeil (bytes : Nat) : Nat := (bytes + 999999) / 1000000

/-- CQFULL: completions are held (R87). -/
def QueuePair.cqFull (q : QueuePair) : Bool := !q.held.isEmpty

/-- The depth of a ring. -/
def QueuePair.depth (q : QueuePair) : Nat := 2 ^ q.depthLog2.toNat

/-- Entries between SQHEAD and the tail (R84). -/
def QueuePair.available (q : QueuePair) : Nat :=
  if q.depth = 0 then 0 else (q.sqTail + q.depth - q.sqHead) % q.depth

/-- The lock status word (R95a, Table 3.7). -/
def Lock.word (l : Lock) : Word :=
  BitVec.ofNat 32 (bit l.held 31 + bit l.abandoned 30 + l.ownerFn.val * 2 ^ 28 + l.ownerQ.val * 2 ^ 23 +
    l.ownerEpoch.toNat)

/-- The control word of a queue pair (Table 3.4); RESTART reads 0, and URGENT exists on F0 only. -/
def QueuePair.ctrlWord (q : QueuePair) (fn : FnId) : Word :=
  BitVec.ofNat 32 (bit q.enable 31 + bit q.policyHalt 29 + bit (q.urgent && fn == 0) 28 + q.depthLog2.toNat * 2 ^ 24 +
    q.vector.toNat * 2 ^ 16 + q.coalCount.toNat * 2 ^ 8 + q.coalTime.toNat)

/-- The status word of a queue pair (Table 3.4). -/
def QueuePair.statusWord (q : QueuePair) : Word :=
  BitVec.ofNat 32 (bit q.halted 31 + bit q.active 30 + bit q.dberr 29 + bit q.cqFull 28 + bit q.cfgerr 27 +
    bit q.fetcherr 26 + q.sqHead)

/-- The commit-point register words (Table 4.8). -/
def State.commitClipWord (s : State) : Word := s.mnt.commitClip

/-- COMMIT_FRAMES (Table 4.8). -/
def State.commitFramesWord (s : State) : Word := BitVec.ofNat 32 s.mnt.commitFrames

/-- Microseconds since PERST_N de-asserted (Table 3.5). -/
def State.perstUs (s : State) : Nat := (s.now - s.perstAt) / 1000

/-- RECORD is possible only in RUN. -/
def State.inRun (s : State) : Bool := s.pwr.state == .run && s.pwr.running.isNone

/-- The device is in RUN, DOZE or PARK, where Vole's side ports answer (R600). -/
def State.portsServed (s : State) : Bool :=
  (s.pwr.state == .run || s.pwr.state == .doze || s.pwr.state == .park) && s.vole.alive && !s.quill.recovery

end Sys2Proof.Machine
end

