-- ==== Sys2Proof/Machine/Ops.lean ====
section
/-! DEFINITION. The named operations that the meanings share: time, access to heads, beams, functions and queues, output,
the event log, events, completions and the error log, locks, the pools and the power requests. -/

namespace Sys2Proof.Machine

/-- The answer of every meaning: a next state. -/
abbrev Answer := Host.Outcome State Fault Refusal

/-- Time never runs backwards: a command at `t` finds the later of `t` and the present time (log entry 1). -/
def State.at (s : State) (t : Time) : State := { s with now := max s.now t }

/-- Change one head. -/
def State.updHd (s : State) (h : Head) (f : HeadState → HeadState) : State :=
  match h with
  | .a => { s with hdA := f s.hdA }
  | .b => { s with hdB := f s.hdB }

/-- Change the record path. -/
def State.updRcd (s : State) (f : RecordPath → RecordPath) : State := { s with rcd := f s.rcd }

/-- Change the mount. -/
def State.updMnt (s : State) (f : Mount → Mount) : State := { s with mnt := f s.mnt }

/-- Change the host link. -/
def State.updHost (s : State) (f : HostLink → HostLink) : State := { s with host := f s.host }

/-- Change the pools. -/
def State.updDrey (s : State) (f : DreyPools → DreyPools) : State := s.updRcd fun r => { r with drey := f r.drey }

/-- Change the write lanes of one head. -/
def State.updWh (s : State) (h : Head) (f : WriteHead → WriteHead) : State :=
  s.updRcd fun r =>
    match h with
    | .a => { r with headA := f r.headA }
    | .b => { r with headB := f r.headB }

/-- Change one beam. -/
def State.updBeam (s : State) (h : Head) (b : Beam) (f : BeamState → BeamState) : State :=
  s.updRcd fun r =>
    match h with
    | .a => { r with beamsA := Vec.upd r.beamsA b f }
    | .b => { r with beamsB := Vec.upd r.beamsB b f }

/-- Change every beam of a head. -/
def State.updBeams (s : State) (h : Head) (f : BeamState → BeamState) : State :=
  s.updRcd fun r =>
    match h with
    | .a => { r with beamsA := r.beamsA.map f }
    | .b => { r with beamsB := r.beamsB.map f }

/-- Change calibration. -/
def State.updCal (s : State) (f : Calib → Calib) : State := { s with cal := f s.cal }

/-- Change FSYNC and timecode. -/
def State.updSync (s : State) (f : SyncState → SyncState) : State := { s with sync := f s.sync }

/-- Change the spindle. -/
def State.updSpin (s : State) (f : Spindle → Spindle) : State := { s with spin := f s.spin }

/-- Change the Loop Engine. -/
def State.updLoop (s : State) (f : LoopEngine → LoopEngine) : State := { s with loop := f s.loop }

/-- Change one loop slot. -/
def State.updSlot (s : State) (i : LoopId) (f : LoopSlot → LoopSlot) : State :=
  { s with loop := { s.loop with slots := Vec.upd s.loop.slots i f } }

/-- Change the pins. -/
def State.updPins (s : State) (f : PinState → PinState) : State := { s with pins := f s.pins }

/-- Change Quill. -/
def State.updQuill (s : State) (f : QuillState → QuillState) : State := { s with quill := f s.quill }

/-- Change Vole. -/
def State.updVole (s : State) (f : VoleState → VoleState) : State := { s with vole := f s.vole }

/-- Change the pace monitor. -/
def State.updPace (s : State) (f : Pace → Pace) : State := { s with pace := f s.pace }

/-- Change DDR5 protection. -/
def State.updDram (s : State) (f : DramState → DramState) : State := { s with dram := f s.dram }

/-- Change the metadata cache. -/
def State.updCache (s : State) (f : CacheState → CacheState) : State :=
  { s with vmap := { s.vmap with cache := f s.vmap.cache } }

/-- Change the Burrow state. -/
def State.updBurrow (s : State) (f : BurrowState → BurrowState) : State :=
  { s with vmap := { s.vmap with burrow := f s.vmap.burrow } }

/-- Change the read path. -/
def State.updRd (s : State) (f : ReadPath → ReadPath) : State := { s with rd := f s.rd }

/-- Change the read channel of one beam. -/
def State.updChan (s : State) (h : Head) (b : Beam) (f : ReadChannel → ReadChannel) : State :=
  match h with
  | .a => { s with rd := { s.rd with chansA := Vec.upd s.rd.chansA b f } }
  | .b => { s with rd := { s.rd with chansB := Vec.upd s.rd.chansB b f } }

/-- One function. -/
def State.func (s : State) (fn : FnId) : Func := s.host.funcs[fn]

/-- Change one function. -/
def State.updFunc (s : State) (fn : FnId) (f : Func → Func) : State :=
  s.updHost fun h => { h with funcs := Vec.upd h.funcs fn f }

/-- One queue pair. -/
def State.queue (s : State) (fn : FnId) (q : QId) : QueuePair := (s.func fn).queues[q]

/-- Change one queue pair. -/
def State.updQueue (s : State) (fn : FnId) (q : QId) (f : QueuePair → QueuePair) : State :=
  s.updFunc fn fun u => { u with queues := Vec.upd u.queues q f }

/-- Send something out (log entry 7). -/
def State.emit (s : State) (x : Sent) : State := s.updHost fun h => { h with sent := x :: h.sent }

/-- Send an MSI-X message of a function (R89, R136). -/
def State.msix (s : State) (fn : FnId) (v : BitVec 6) : State := s.emit (.msix fn v)

/-! The event log (17_vole_management). -/

/-- Microseconds since this boot began (Table 17.3). -/
def State.bootUs (s : State) : Nat := (s.now - s.vole.bootAt) / 1000

/-- The same event as a record: code and arguments equal (R607). -/
def LogRecord.same (code : BitVec 16) (args : List Word) (r : LogRecord) : Bool := r.code == code && r.args == args

/-- One more occurrence, saturating at 255 (R607). -/
def LogRecord.again (r : LogRecord) : LogRecord := { r with count := min 255 (r.count + 1) }

/-- Create a record at this time (R604, R606, R608). -/
def State.createRecord (s : State) (code : BitVec 16) (args : List Word) : State :=
  let v := s.vole
  let r : LogRecord := { seq := v.nextSeq, boot := v.boot, timeUs := s.bootUs, code := code, count := 1, args := args }
  { s with vole := { v with
      nextSeq := v.nextSeq + 1
      queue := v.queue ++ [r]
      newest := (r :: v.newest).take 1023
      windowCount := v.windowCount + 1 } }

/-- Count one more occurrence in the record not yet programmed that equals the event (R607). -/
def State.coalesce (s : State) (code : BitVec 16) (args : List Word) : State :=
  let v := s.vole
  match v.queue.find? (LogRecord.same code args) with
  | none => s
  | some r =>
    let f := fun x : LogRecord => if x.seq = r.seq then x.again else x
    { s with vole := { v with queue := v.queue.map f, newest := v.newest.map f } }

/-- Log an event (R607, R608, R610). -/
def State.log (s : State) (code : BitVec 16) (args : List Word) : State :=
  if !s.vole.alive then s.updVole fun v => { v with deferred := s.vole.deferred ++ [(code, args)] }
  else if s.vole.queue.any (LogRecord.same code args) then s.coalesce code args
  else if s.vole.windowCount ≥ 1024 then
    s.updVole fun v => { v with windowDropped := s.vole.windowDropped + 1, dropped := s.vole.dropped + 1 }
  else s.createRecord code args

/-- A number as a log argument, modulo 2^32. -/
def arg (n : Nat) : Word := BitVec.ofNat 32 n

/-- A signed number as a log argument, sign-extended (R605). -/
def argInt (n : Int) : Word := BitVec.ofInt 32 n

/-! Events (R136). -/

/-- The event bits of EVENT_PENDING (Table 4.8). -/
def evRateDeficit : Nat := 0
def evBeamRetired : Nat := 1
def evDramLost : Nat := 2
def evPowerChange : Nat := 3
def evCommit : Nat := 4
def evBringupDone : Nat := 5
def evMagazineChange : Nat := 6
def evCalSuspect : Nat := 7

/-- The one-bit word of an event. -/
def evMask (n : Nat) : BitVec 8 := BitVec.ofNat 8 (2 ^ n)

/-- Set an event bit in one function, and send its message if the bit becomes set while it is enabled (R136). -/
def State.raiseIn (s : State) (n : Nat) (fn : FnId) : State :=
  let f := s.func fn
  let was := f.eventPending &&& evMask n != 0
  let on := f.eventEnable &&& evMask n != 0
  let s' := s.updFunc fn fun u => { u with eventPending := u.eventPending ||| evMask n }
  if !was && on then s'.msix fn f.eventVector else s'

/-- Set an event bit in all four functions at once (R136). -/
def State.raise (s : State) (n : Nat) : State :=
  (((s.raiseIn n 0).raiseIn n 1).raiseIn n 2).raiseIn n 3

/-- Set the MAGAZINE field, and raise MAGAZINE_CHANGE where it changes (R137). -/
def State.setMagazine (s : State) (n : Nat) : State :=
  if s.mnt.magazine = n then s else (s.updMnt fun m => { m with magazine := n }).raise evMagazineChange

/-! Status codes (R138, Table 4.9). -/

/-- The code of a status. -/
def Status.code (st : Status) : BitVec 15 :=
  match st with
  | .success => 0x0000
  | .acquiredAbandoned => 0x0001
  | .invalidOpcode => 0x0010
  | .functionDenied => 0x0011
  | .invalidField => 0x0012
  | .dmaError => 0x0013
  | .stateConflict => 0x0020
  | .bringupInProgress => 0x0021
  | .magazineAbsent => 0x0022
  | .doorOpen => 0x0023
  | .queueHalted => 0x0024
  | .lockBusy => 0x0025
  | .powerRequestSuperseded => 0x0026
  | .profileUnsustainable => 0x0030
  | .bufferFullRetry => 0x0031
  | .frameOutOfOrder => 0x0032
  | .capacityExhausted => 0x0033
  | .notWritten => 0x0034
  | .abortedPowerFail => 0x0035
  | .accessDenied => 0x0040
  | .mediaUnrecovered => 0x0041
  | .authTagMismatch => 0x0042
  | .keyUnwrapFailed => 0x0050
  | .keySessionsExhausted => 0x0051
  | .magazineFormatUnsupported => 0x0052
  | .notRunPrecondition => 0x0060
  | .updateRefused => 0x0061
  | .unlockRefused => 0x0062

/-- SUCCESS and ACQUIRED_ABANDONED are no errors; every other status is one (03_host_link_tenants, "Error policies"). -/
def Status.isError (st : Status) : Bool :=
  match st with
  | .success | .acquiredAbandoned => false
  | _ => true

/-- RESULT (R126): the low word of the value given, or the state code on STATE_CONFLICT. -/
def State.resultOf (s : State) (st : Status) (detail : DWord) : Word :=
  if st = .stateConflict then s.stateCode else detail.setWidth 32

/-- The Detail in the error log: the state code on STATE_CONFLICT (Table 4.9). -/
def State.detailOf (s : State) (st : Status) (detail : DWord) : DWord :=
  if st = .stateConflict then s.stateCode.setWidth 64 else detail

/-! Completion entries (R124, R81, R87, R89). -/

/-- Write one completion entry into its slot (R81, R135). -/
def State.writeCompletion (s : State) (fn : FnId) (q : QId) (c : Completion) : State :=
  let p := s.queue fn q
  let s1 := s.emit (.completion fn q p.cqTail p.phase c s.commitClipWord s.commitFramesWord)
  let tail := (p.cqTail + 1) % p.depth
  let s2 := s1.updQueue fn q fun u => { u with cqTail := tail, phase := if tail = 0 then !u.phase else u.phase }
  let n := p.unsignalled + 1
  if n ≥ max 1 p.coalCount.toNat then
    (s2.updQueue fn q fun u => { u with unsignalled := 0, firstUnsignalled := none }).msix fn p.vector
  else
    s2.updQueue fn q fun u =>
      { u with unsignalled := n, firstUnsignalled := some (u.firstUnsignalled.getD s.now) }

/-- There is a free completion slot (R87). -/
def QueuePair.cqRoom (p : QueuePair) : Bool := (p.cqTail + 1) % p.depth != p.cqHead

/-- The link has been busy up to now (R71). -/
def State.touchLink (s : State) : State :=
  s.updHost fun h => { h with link := { h.link with idleSince := s.now } }

/-- Post a completion: write it where a slot is free and nothing is held before it, else hold it (R87). No completion
is posted once ACTIVE reads 0 (R112). -/
def State.post (s : State) (fn : FnId) (q : QId) (c : Completion) : State :=
  let p := s.queue fn q
  if !p.active then s
  else if p.held.isEmpty && p.cqRoom then (s.writeCompletion fn q c).touchLink
  else s.updQueue fn q fun u => { u with held := u.held ++ [c] }

/-- Write held completions while slots are free; `n` bounds how many (R86, R87). -/
def State.flushHeld (s : State) (fn : FnId) (q : QId) : Nat → State
  | 0 => s
  | n + 1 =>
    let p := s.queue fn q
    match p.held with
    | [] => s
    | c :: rest =>
      if p.cqRoom then
        ((s.updQueue fn q fun u => { u with held := rest }).writeCompletion fn q c).touchLink.flushHeld fn q n
      else s

/-! Space taken at fetch (05_drey_buffers). -/

/-- Skip the released blocks and the skipped bytes at the head of the ring (R165, R166). -/
def ringTrim : List Block → List Block
  | [] => []
  | b :: bs => if b.freed || b.slot.isNone then ringTrim bs else b :: bs

/-- Entries of the last 1,000 ms (R173). -/
def inWindow (now : Time) (l : List (Time × Nat)) : List (Time × Nat) :=
  l.filter fun e => decide (now < e.1 + Config.ms 1000)

/-- in_rate and out_rate in bytes/s over the last 1,000 ms (R173). -/
def State.rates (s : State) : Nat × Nat :=
  let d := s.rcd.drey
  let alloc := ((inWindow s.now d.allocs).map (·.2)).sum
  let out := ((inWindow s.now d.frees).map (·.2)).sum
  let inr := match s.host.heldOrder, s.rcd.clip with
    | _ :: _, some c => max alloc c.prof.rate
    | _, _ => alloc
  (inr, out)

/-- time_to_full in ms (R173). -/
def State.timeToFull (s : State) : Word :=
  let r := s.rates
  if r.1 > r.2 then
    BitVec.ofNat 32 (min 0xFFFFFFFE (1000 * (Config.framePool - s.occupancy) / (r.1 - r.2)))
  else 0xFFFFFFFF

/-- Load the three deficit registers and raise RATE_DEFICIT (R175). -/
def State.rateDeficit (s : State) : State :=
  let r := s.rates
  let ttf := s.timeToFull
  (s.updDrey fun d => { d with
    inRate := BitVec.ofNat 32 (mbRound r.1), outRate := BitVec.ofNat 32 (mbRound r.2), timeToFull := ttf,
    armed := false, lastRaise := some s.now }).raise evRateDeficit

/-- Follow the occupancy: raise RATE_DEFICIT when A reaches W, and arm again below W − floor(C_F / 20) (R175, R176). -/
def State.watchOccupancy (s : State) : State :=
  let a := s.occupancy
  let w := s.warnLevel
  if a ≥ w then (if s.rcd.drey.armed then s.rateDeficit else s)
  else
    s.updDrey fun d => { d with
      lastRaise := none
      armed := d.armed || decide (a + Config.framePool / 20 < w) }

/-- Release or free a frame slot (R59, R117, R153, R166); the occupancy is followed as it falls (R176). -/
def State.freeSlot (s : State) (slot : Nat) : State :=
  State.watchOccupancy <| s.updDrey fun d =>
    match d.ring.find? (fun b => b.slot == some slot && !b.freed) with
    | none => d
    | some blk =>
      { d with
        ring := ringTrim (d.ring.map fun b => if b.slot == some slot then { b with freed := true } else b)
        frees := (s.now, blk.bytes) :: inWindow s.now d.frees }

/-- Give back the space a command took at fetch (R170, R171, Table 2.3). -/
def State.freeAlloc (s : State) (fn : FnId) (a : Alloc) : State :=
  match a with
  | .none => s
  | .frame slot => s.freeSlot slot
  | .review own shared => s.updDrey fun d =>
      { d with reviewOwn := Vec.upd d.reviewOwn fn (· - own), reviewShared := d.reviewShared - shared }
  | .side u => s.updDrey fun d => { d with sideUsed := d.sideUsed - u }

/-! The error log and the error policies (R107 to R110). -/

/-- Enter an error in the log page of its function; the page keeps the newest 64 (R109, R110). -/
def State.logError (s : State) (fn : FnId) (q : BitVec 16) (sqIndex : BitVec 16) (opcode : BitVec 8) (halted : Bool)
    (st : Status) (cid : BitVec 16) (detail : DWord) : State :=
  s.updFunc fn fun f => { f with
    errSeq := f.errSeq + 1
    errLog := ({ seq := f.errSeq, queue := q, sqIndex := sqIndex, opcode := opcode, halted := halted,
                 status := (Status.code st).setWidth 16, cid := cid, stateCode := s.stateCode, detail := detail,
                 timeUs := s.perstUs : ErrEntry } :: f.errLog).take 64 }

/-- A completion with a status and a 64-bit value: RESULT on success, Detail otherwise. -/
def State.completionOf (s : State) (cid : BitVec 16) (st : Status) (v : DWord) : Completion :=
  { cid := cid, status := Status.code st, result := s.resultOf st v }

/-- The commands of a queue that were fetched and have not started, in fetch order: those deferred before their start,
then the waiting ones (R94). One that waits for an overlap (R97) counts as started: a halt (R108) and a deletion (R112) leave
it alone (DESIGN CHOICE, log entry 126). -/
def State.unstarted (s : State) (fn : FnId) (q : QId) : List Fetched :=
  ((s.host.deferred.filter fun d => d.cmd.org.fn == fn && d.cmd.org.q == q && !d.cmd.org.uart &&
      d.reason != .overlap).map (·.cmd)) ++ (s.queue fn q).waiting

/-- Take the unstarted commands of a queue away and free what they took at fetch. -/
def State.dropUnstarted (s : State) (fn : FnId) (q : QId) : State :=
  let s1 := (s.unstarted fn q).foldl (fun u f => u.freeAlloc fn f.alloc) s
  (s1.updHost fun h => { h with deferred := h.deferred.filter fun d =>
      !(d.cmd.org.fn == fn && d.cmd.org.q == q && !d.cmd.org.uart && d.reason != .overlap) }).touchLink.updQueue fn q
    fun u => { u with waiting := [] }

/-- The waiting acquires of a queue, by lock. -/
def State.waitersOf (s : State) (fn : FnId) (q : QId) : List LockWaiter :=
  s.host.locks.toList.flatMap fun l => l.waiters.filter fun w => w.org.fn == fn && w.org.q == q

/-- Take the waiting acquires of a queue out of every lock (R106, R113, R120). -/
def State.dropWaiters (s : State) (fn : FnId) (q : QId) : State :=
  s.updHost fun h => { h with locks := h.locks.map fun l =>
    { l with waiters := l.waiters.filter fun w => !(w.org.fn == fn && w.org.q == q) } }

/-- The host addresses and the bytes of a command's data: the buffer at DPTR, or the segments of its scatter list in list
order (R74, R122, R123). -/
def scatter : List SglElem → List Byte → List (DWord × List Byte)
  | [], _ => []
  | x :: xs, d => if d.isEmpty then [] else (x.addr, d.take x.len.toNat) :: scatter xs (d.drop x.len.toNat)

/-- Where the data of an entry lie in host memory (R74, Table 4.1). -/
def entryPlaces (e : Entry) (d : List Byte) : List (DWord × List Byte) :=
  if e.sgl then scatter e.segments d else [(e.dptr, d)]

/-- The host address of byte `n` of an entry's data in its segments. -/
def segmentAt : List SglElem → Nat → Option DWord
  | [], _ => none
  | x :: xs, n => if n < x.len.toNat then some (x.addr + BitVec.ofNat 64 n) else segmentAt xs (n - x.len.toNat)

/-- The host address of byte `n` of an entry's data (Table 4.1, R122). -/
def entryAddress (e : Entry) (n : Nat) : DWord :=
  if e.sgl then (segmentAt e.segments n).getD e.dptr else e.dptr + BitVec.ofNat 64 n

/-- Write a command's data to host memory, tagged with its function (R74, R123). -/
def State.sendData (s : State) (fn : FnId) (e : Entry) (d : List Byte) : State :=
  (entryPlaces e d).foldl (fun u x => u.emit (.hostWrite fn e.cid x.1 x.2)) s

/-- Set HALTED; a command that has been fetched by now started before this halt or never starts (R108, R109). -/
def State.setHalted (s : State) (fn : FnId) (q : QId) : State :=
  s.updQueue fn q fun u => { u with halted := true, haltOrder := s.host.fetchOrder }

/-- Halt a queue: what was fetched and has not started, and every waiting acquire of it, completes with QUEUE_HALTED
(R106, R108); the Detail is the SQ index of the halting entry. -/
def State.haltQueue (s : State) (fn : FnId) (q : QId) (sqIndex : Nat) : State :=
  let entries := (s.unstarted fn q).map fun f => f.entry.cid
  let acquires := (s.waitersOf fn q).map (·.cid)
  let s1 := (s.dropUnstarted fn q).dropWaiters fn q
  (entries ++ acquires).foldl (fun u cid =>
    u.post fn q (u.completionOf cid .queueHalted (BitVec.ofNat 64 sqIndex))) s1

/-- The 16 bytes of a completion entry, PHASE at bit 15 of bytes 2 and 3 (R124, Table 4.3). -/
def completionEntry (phase : Bool) (c : Completion) (clip frames : Word) : List Byte :=
  Word.toBytesLE 2 c.cid.toNat ++ Word.toBytesLE 2 (c.status.toNat + bit phase 15) ++ Word.toBytesLE 4 c.result.toNat ++
    Word.toBytesLE 4 clip.toNat ++ Word.toBytesLE 4 frames.toNat

/-- The 16 bytes of a completion entry on the service port (Table 4.3, R622); its PHASE is 0. -/
def completionBytes (c : Completion) (clip frames : Word) : List Byte := completionEntry false c clip frames

/-- The host address of a slot of a completion ring: 16 bytes for each slot from CQBASE on (R78, R124). -/
def QueuePair.slotAddress (p : QueuePair) (slot : Nat) : DWord := p.cqBase + BitVec.ofNat 64 (16 * slot)

/-- The host address of an entry of a submission ring: 64 bytes for each entry from SQBASE on (R78, R121). -/
def QueuePair.entryAddress (p : QueuePair) (index : Nat) : DWord := p.sqBase + BitVec.ofNat 64 (64 * index)

/-- Complete a command: its data go to the host, an error is logged and may halt its queue, and its completion is
posted (R89, R107 to R109, R126). A command of the service port is answered there (R622). -/
def State.complete (s : State) (org : Origin) (e : Entry) (st : Status) (v : DWord) (data : List Byte) : State :=
  let c := s.completionOf e.cid st v
  if org.silent then s
  else if org.uart then
    let s1 := if Status.isError st then
        s.logError 3 (Config.uartQueueField s.vole.nextSeq) (Config.uartQueueField s.vole.nextSeq) e.opcode false st e.cid
          (s.detailOf st v)
      else s
    { (s1.emit (.uart 0x81 (completionBytes c s.commitClipWord s.commitFramesWord ++ data))) with
      vole := { s1.vole with uartBusy := false } }
  else
    let s1 := if data.isEmpty then s else s.sendData org.fn e data
    let p := s.queue org.fn org.q
    let halts := Status.isError st && st != .queueHalted && p.policyHalt && !p.halted && p.active &&
      decide (p.haltOrder ≤ org.order)
    let s2 := if Status.isError st && st != .queueHalted then
        s1.logError org.fn (BitVec.ofNat 16 org.q.val) (BitVec.ofNat 16 org.sqIndex) e.opcode halts st e.cid
          (s1.detailOf st v)
      else s1
    let s3 := if halts then s2.setHalted org.fn org.q else s2
    let s4 := s3.post org.fn org.q c
    if halts then s4.haltQueue org.fn org.q org.sqIndex else s4

/-- Complete a command and give back what it took at fetch. -/
def State.finish (s : State) (org : Origin) (e : Entry) (a : Alloc) (st : Status) (v : DWord) (data : List Byte) : State :=
  (s.complete org e st v data).freeAlloc org.fn a

/-- Take a running command out of the list. -/
def State.dropRunning (s : State) (r : Running) : State :=
  s.touchLink.updHost fun h => { h with running := h.running.filter fun x => !(x.org == r.org && x.order == r.order) }

/-- End a running command: it leaves the list, gives back its space and completes. -/
def State.endRunning (s : State) (r : Running) (st : Status) (v : DWord) (data : List Byte) : State :=
  (s.dropRunning r).finish r.org r.entry r.alloc st v data

/-- End every running command that satisfies a test with one status. -/
def State.endAll (s : State) (p : Running → Bool) (st : Status) (v : DWord) : State :=
  (s.host.running.filter p).foldl (fun u r => u.endRunning r st v []) s

/-- Start a command: it runs until a later event completes it. -/
def State.startRunning (s : State) (r : Running) : State := s.updHost fun h => { h with running := h.running ++ [r] }

/-- Change a running command. -/
def State.updRunning (s : State) (r : Running) (f : Running → Running) : State :=
  s.updHost fun h => { h with running := h.running.map fun x => if x.org == r.org && x.order == r.order then f x else x }

/-! Locks (R95a to R106). -/

/-- One lock. -/
def State.lock (s : State) (l : LockId) : Lock := s.host.locks[l]

/-- Change one lock. -/
def State.updLock (s : State) (l : LockId) (f : Lock → Lock) : State :=
  s.updHost fun h => { h with locks := Vec.upd h.locks l f }

/-- Grant a free lock to a queue (R95a, R98). -/
def State.grantTo (s : State) (l : LockId) (fn : FnId) (q : QId) : State :=
  s.updLock l fun k => { k with held := true, ownerFn := fn, ownerQ := q, ownerEpoch := (s.func fn).epoch }

/-- Complete an acquire that has just been granted, by the lock status word before the grant (R98, Table 4.9). -/
def State.completeAcquire (s : State) (l : LockId) (before : Lock) (org : Origin) (cid : BitVec 16) (opcode : BitVec 8) :
    State :=
  let st := if before.abandoned then Status.acquiredAbandoned else .success
  let v : DWord := if before.abandoned then before.word.setWidth 64 else 0
  (s.grantTo l org.fn org.q).complete org { opcode := opcode, cid := cid } st v []

/-- Free a lock and grant it at once to its head waiter (R99, R102, R113). -/
def State.freeLock (s : State) (l : LockId) (abandon : Bool) : State :=
  let s1 := s.updLock l fun k => { k with held := false, abandoned := k.abandoned || abandon }
  let k := s1.lock l
  match k.waiters with
  | [] => s1
  | w :: rest => (s1.updLock l fun x => { x with waiters := rest }).completeAcquire l k w.org w.cid w.opcode

/-- Free every lock that satisfies a test, with ABANDONED set. -/
def State.abandonLocks (s : State) (p : Lock → Bool) : State :=
  (List.finRange 64).foldl (fun u l => if (u.lock l).held && p (u.lock l) then u.freeLock l true else u) s

/-- Waiting acquires across all locks (R100). -/
def State.waiterCount (s : State) : Nat := (s.host.locks.toList.map fun l => l.waiters.length).sum

/-! Power targets (R493 to R495). -/

/-- The running POWER_STATE command a requester names. -/
def Requester.names (x : Requester) (r : Running) : Bool :=
  match x with
  | .command org cid => r.op == .powerState && r.org == org && r.entry.cid == cid
  | .pin | .internal => false

/-- End the POWER_STATE commands that some requesters name, each with a status and a value. -/
def State.endRequesters (s : State) (l : List Requester) (st : Status) (v : DWord) : State :=
  l.foldl (fun u x =>
    match u.host.running.find? x.names with
    | none => u
    | some r => u.endRunning r st v []) s

/-- Change the power states. -/
def State.updPwr (s : State) (f : Power → Power) : State := { s with pwr := f s.pwr }

/-- The state code as a completion's value (R484). -/
def State.stateValue (s : State) : DWord := s.stateCode.setWidth 64

/-- A request for a power state (R493 to R495): it joins the running or the pending target, completes at once where the
state is reached and nothing runs, or becomes the pending target, whose earlier commands are superseded. -/
def State.requestPower (s : State) (p : PowerState) (who : Requester) : State :=
  if s.pwr.running = some p then s.updPwr fun w => { w with runBy := w.runBy ++ [who] }
  else if s.pwr.running = none ∧ s.pwr.state = p then s.endRequesters [who] .success s.stateValue
  else if s.pwr.pending = some p then s.updPwr fun w => { w with pendBy := w.pendBy ++ [who] }
  else
    (s.endRequesters s.pwr.pendBy .powerRequestSuperseded (BitVec.ofNat 64 (PowerState.num p))).updPwr fun w =>
      { w with pending := some p, pendBy := [who] }

/-- A command that needs the medium has been fetched below RUN, or while the part leaves RUN: the T36 asks for RUN itself
(R475). -/
def State.wantRun (s : State) : State :=
  if s.pwr.running == some .run || s.pwr.pending == some .run then s else s.requestPower .run .internal

/-- A power domain that is switched starts its pace chain anew (R442). -/
def Chain.switched (now : Time) (was on : Bool) (c : Chain) : Chain :=
  if was == on then c else { c with latest := 0, readings := [], since := now }

/-- Power the domains of a set, with those of another in retention (Table 13.2). -/
def State.setDomains (s : State) (on kept : BitVec 17) : State :=
  let chain := fun i : Fin 6 =>
    (s.pace.chains[i]).switched s.now (s.pwr.domains.getLsbD (i.val + 2)) (on.getLsbD (i.val + 2))
  { s with
    pwr := { s.pwr with domains := on, retained := kept }
    pace := { s.pace with chains := Vector.ofFn chain } }

end Sys2Proof.Machine
end

