-- ==== Sys2Proof/Machine/Records.lean ====
section
/-! DEFINITION. Volume map records and the operations over clips and frames: building and queueing records, opening and
closing clips, dropping frames, the commit point and the guarantee (04_command_packets, 06_volume_map_burrow,
16_modes_coincidences). -/

namespace Sys2Proof.Machine

/-- Little-endian bytes of a number. -/
def le (n v : Nat) : List Byte := Word.toBytesLE n v

/-- Zero bytes up to a multiple of 4. -/
def pad4 (bs : List Byte) : List Byte := bs ++ Word.zeros ((4 - bs.length % 4) % 4)

/-- A record: its 4-byte header, then its body; the length 65,536 reads 0 (R208). -/
def recordBytes (ty : Nat) (body : List Byte) : List Byte :=
  let b := pad4 body
  [BitVec.ofNat 8 ty, 0] ++ le 2 (b.length + 4) ++ b

/-- A volume map record of the type, key and index of Table 6.2. -/
def mkRecord (ty key index : Nat) (body : List Byte) : VolRecord :=
  { rtype := BitVec.ofNat 8 ty, key := BitVec.ofNat 32 key, index := BitVec.ofNat 32 index, bytes := recordBytes ty body }

/-- The record is the one that type, key and index name (R205). -/
def VolRecord.named (ty : BitVec 8) (key index : Word) (r : VolRecord) : Bool :=
  r.rtype == ty && r.key == key && r.index == index

/-- The record with that type, key and index; of several, the one created last (R157, R205). -/
def State.findRecord (s : State) (ty : BitVec 8) (key index : Word) : Option VolRecord :=
  s.vmap.records.reverse.find? (VolRecord.named ty key index)

/-- Put a record into the volume map, in place of one with the same name. -/
def State.mapRecord (s : State) (r : VolRecord) : State :=
  { s with vmap := { s.vmap with
      records := s.vmap.records.filter (fun x => !VolRecord.named r.rtype r.key r.index x) ++ [r] } }

/-! The bytes of the volume map in DDR5 (R204, R214, R252). -/

/-- The byte of a memory at an address: 0 where none is listed, as the zero fill left it (R190, R191). -/
def Memory.read (m : List Host.Cell) (a : Nat) : Byte :=
  match m.find? (fun c => c.1 == a) with
  | some c => c.2
  | none => 0

/-- Write one byte: the list stays sorted and lists no 0. -/
def Memory.write (a : Nat) (v : Byte) : List Host.Cell → List Host.Cell
  | [] => if v = 0 then [] else [(a, v)]
  | c :: cs =>
    if c.1 < a then c :: Memory.write a v cs
    else if c.1 = a then (if v = 0 then cs else (a, v) :: cs)
    else if v = 0 then c :: cs else (a, v) :: c :: cs

/-- Write bytes from an address on. -/
def Memory.writeAll (m : List Host.Cell) (a : Nat) : List Byte → List Host.Cell
  | [] => m
  | b :: bs => Memory.writeAll (Memory.write a b m) (a + 1) bs

/-- `n` bytes from an address on. -/
def Memory.readAll (m : List Host.Cell) (a n : Nat) : List Byte := (List.range n).map fun i => Memory.read m (a + i)

/-- The canonical form: addresses strictly rising, and no entry 0. -/
abbrev Memory.wf (m : List Host.Cell) : Prop := m.Pairwise (fun x y => x.1 < y.1) ∧ ∀ c ∈ m, c.2 ≠ 0

/-- Write bytes over the part of `data`, which begins at `base`, that they cover. -/
def overlay (base : Nat) (data : List Byte) (a : Nat) (bs : List Byte) : List Byte :=
  (List.range data.length).map fun i =>
    if a ≤ base + i ∧ base + i < a + bs.length then bs.getD (base + i - a) 0 else data.getD i 0

/-- The record that a name gives. -/
def MapState.named (m : MapState) (n : BitVec 8 × Word × Word) : Option VolRecord :=
  m.records.reverse.find? (VolRecord.named n.1 n.2.1 n.2.2)

/-- The bytes of a line as the records placed there give them (R252). -/
def MapState.lineOfRecords (m : MapState) (line : Nat) : List Byte :=
  m.placed.foldl (fun l p =>
    match m.named p.2 with
    | some r => overlay line l p.1 r.bytes
    | none => l) (Word.zeros 128)

/-- Rebuild a line in DDR5 from the records it holds, which stand in the record queue or on the medium (R252, R254). -/
def MapState.rebuildLine (m : MapState) (line : Nat) : MapState :=
  { m with mem := Memory.writeAll m.mem line (m.lineOfRecords line) }

/-- Create a record that goes to the medium: into the volume map and the record queue (R212). -/
def State.addRecord (s : State) (r : VolRecord) : State :=
  (s.mapRecord r).updRcd fun p => { p with records := p.records ++ [{ vol := r }] }

/-- The body of a CLIP_OPEN record (Table 6.3). -/
def clipOpenBody (p : Profile) (firstLsn session timecode : Nat) : List Byte :=
  le 4 p.clip.toNat ++ le 4 p.frameBytes ++ le 4 p.rateNum ++ le 2 p.rateDen ++ [if p.holdAwake then 1 else 0, 0] ++
    le 4 firstLsn ++ le 4 session ++ le 4 timecode ++ le 4 p.user.length ++ pad4 p.user

/-- The body of a CLIP_CLOSE record (Table 6.3). -/
def clipCloseBody (clip frames reason lastLsn timecode : Nat) : List Byte :=
  le 4 clip ++ le 4 frames ++ [BitVec.ofNat 8 reason, 0, 0, 0] ++ le 4 lastLsn ++ le 4 timecode

/-- The body of a SESSION_SEAL record (Table 16.4). -/
def sealBody (session head reason stripe dropped clip frames : Nat) : List Byte :=
  le 4 session ++ [BitVec.ofNat 8 head, BitVec.ofNat 8 reason, 0, 0] ++ le 4 stripe ++ le 4 dropped ++ le 4 clip ++
    le 4 frames ++ Word.zeros 4

/-- The first LSN of frame 0 of a clip, from its opening record (Table 6.3). -/
def State.clipFirst (s : State) (clip : Word) : Option Nat :=
  (s.findRecord 0x02 clip 0).map fun r => Word.fieldLE r.bytes 20 4

/-- FRAME_BYTES of a clip, from its opening record (Table 6.3). -/
def State.clipFrameBytes (s : State) (clip : Word) : Option Nat :=
  (s.findRecord 0x02 clip 0).map fun r => Word.fieldLE r.bytes 8 4

/-- The frame count of a clip's close record (Table 6.3). -/
def State.clipClosedCount (s : State) (clip : Word) : Option Nat :=
  (s.findRecord 0x03 clip 0).map fun r => Word.fieldLE r.bytes 8 4

/-- Sectors of accepted frames that have no LSN yet (R155). -/
def State.unencodedSectors (s : State) : Nat :=
  (s.rcd.frames.map fun f =>
    match f.phase with
    | .encoded => 0
    | .encoding n => sectorsOf f.bytes - n
    | _ => sectorsOf f.bytes).sum

/-- Slots kept for the clip-close record and the two session seals (R155, log entry 17). -/
def reservedSlots : Nat := 3

/-- A frame's place in the list of frames on the path. -/
def Frame.isNo (clip : Word) (number : Nat) (f : Frame) : Bool := f.clip == clip && f.number == number

/-- The frame that still occupies a slot (R63). -/
def State.findFrame (s : State) (clip : Word) (number : Nat) : Option Frame :=
  s.rcd.frames.find? (Frame.isNo clip number)

/-- The frame that holds an LSN and still occupies a slot, with the sector's number in the frame (R63). -/
def State.frameOfLsn (s : State) (lsn : Nat) : Option (Frame × Nat) :=
  firstSome (fun f =>
    match f.firstLsn with
    | some l => if l ≤ lsn ∧ lsn < l + sectorsOf f.bytes then some (f, lsn - l) else none
    | none => none) s.rcd.frames

/-- The bytes of one sector of a frame, zero-filled to 32,768 (R33). -/
def Frame.sector (f : Frame) (i : Nat) : List Byte :=
  let d := (f.data.drop (32768 * i)).take 32768
  d ++ Word.zeros (32768 - d.length)

/-- Change the frames on the path. -/
def State.updFrames (s : State) (f : List Frame → List Frame) : State := s.updRcd fun r => { r with frames := f r.frames }

/-- Change one frame. -/
def State.updFrame (s : State) (clip : Word) (number : Nat) (g : Frame → Frame) : State :=
  s.updFrames fun l => l.map fun f => if f.isNo clip number then g f else f

/-- Take a frame off the path and free its slot (R117, R153, R580). -/
def State.dropFrame (s : State) (f : Frame) : State :=
  (s.updFrames fun l => l.filter fun x => !(x.slot == f.slot)).freeSlot f.slot

/-- Cut the count of a clip that is being closed or still open to the frames before `n` (R149). -/
def State.truncateClip (s : State) (clip : Word) (n : Nat) : State :=
  s.updRcd fun r => { r with
    closing := r.closing.map fun c => if c.clip == clip then { c with frames := min c.frames n } else c }

/-- Queue the opening record of the open clip once no close record is due before it (R149, R208). The first LSN is
the next LSN to be assigned after those of the frames accepted before (log entry 18). -/
def State.queueOpenRecord (s : State) : State :=
  match s.rcd.clip with
  | none => s
  | some c =>
    if c.openQueued || !s.rcd.closing.isEmpty then s
    else
      let first := s.mnt.nextLsn + s.unencodedSectors
      let rr := mkRecord 0x02 c.prof.clip.toNat 0 (clipOpenBody c.prof first s.mnt.session 0x80)
      (s.addRecord rr).updRcd fun r => { r with
        clip := some { c with openQueued := true }
        opened := r.opened ++ [(c.prof.clip, none)] }

/-- Open a clip (R147): its opening record is queued at once unless a close record comes first. -/
def State.openClip (s : State) (p : Profile) : State :=
  (s.updRcd fun r => { r with clip := some { prof := p } }).queueOpenRecord

/-- The timecode of a frame: from the path, from its FRAME record, or the no-timecode value (R209). -/
def State.frameTimecode (s : State) (clip : Word) (number : Nat) : Nat :=
  match s.findFrame clip number with
  | some f => f.timecode.toNat
  | none =>
    match s.findRecord 0x04 clip (BitVec.ofNat 32 number) with
    | some r => Word.fieldLE r.bytes 12 4
    | none => 0x80

/-- Queue the close record of the oldest clip being closed (R149, Table 6.3). -/
def State.queueCloseRecord (s : State) : State :=
  match s.rcd.closing with
  | [] => s
  | c :: rest =>
    let first := (s.clipFirst c.clip).getD s.mnt.nextLsn
    let tc := if c.frames = 0 then 0x80 else s.frameTimecode c.clip (c.frames - 1)
    let rr := mkRecord 0x03 c.clip.toNat 0
      (clipCloseBody c.clip.toNat c.frames c.reason (first + c.frames * sectorsOf c.frameBytes) tc)
    ((s.addRecord rr).updRcd fun r => { r with
      closing := rest, closed := r.closed ++ [(c.clip, c.frames)] }).queueOpenRecord

/-- Queue one more close record of a clip whose close record has been queued, with RECORD_STOPPED and the frames before `n`
(Table 5.7). -/
def State.recloseClip (s : State) (clip : Word) (n : Nat) : State :=
  let size := sectorsOf ((s.clipFrameBytes clip).getD 1)
  let tc := if n = 0 then 0x80 else s.frameTimecode clip (n - 1)
  let first := (s.clipFirst clip).getD s.mnt.nextLsn
  (s.addRecord (mkRecord 0x03 clip.toNat 0 (clipCloseBody clip.toNat n 5 (first + n * size) tc))).updRcd fun r => { r with
    closed := r.closed.map fun c => if c.1 == clip then (c.1, n) else c }

/-- Queue the close records of every clip being closed; `n` bounds how many. -/
def State.queueAllClose (s : State) : Nat → State
  | 0 => s
  | n + 1 => if s.rcd.closing.isEmpty then s else (s.queueCloseRecord).queueAllClose n

/-- The open clip stops being open with a close reason; its close record is due (R149, R150). A clip whose opening
record still waits for an older close record has both queued first. -/
def State.closeClip (s : State) (reason : Nat) : State :=
  let s1 := if s.rcd.clip.any (·.openQueued) then s else s.queueAllClose s.rcd.closing.length
  match s1.rcd.clip with
  | none => s1
  | some c => s1.touchLink.updRcd fun r => { r with
      clip := none
      closing := r.closing ++ [{ clip := c.prof.clip, frames := c.nextFrame, reason := reason,
                                 frameBytes := c.prof.frameBytes }] }

/-! The commit point (R56 to R59, R133 to R137). -/

/-- Every parity sector of a stripe has passed, and the stripe holds its sectors (R56). -/
def Stripe.finished (st : Stripe) : Bool := !st.void && decide (24 ≤ st.parityPassed.length)

/-- An LSN is safe: one of its placements in a finished stripe has passed, and every stripe that holds one of its
placements is finished or holds none of them (R56). -/
def State.lsnSafe (s : State) (lsn : Nat) : Bool :=
  s.rcd.passed.any (fun p => p.1 == lsn && s.rcd.stripes.any fun st => st.seq == p.2 && st.finished) &&
    s.rcd.stripes.all fun st => st.void || !st.lsns.contains lsn || st.finished

/-- The opening record of a clip lies in a system sector that has passed (R56). -/
def State.openingSafe (s : State) (clip : Word) : Bool :=
  match s.rcd.opened.find? (fun o => o.1 == clip) with
  | some (_, some no) => s.rcd.passedSys.contains no
  | _ => false

/-- A frame meets R56. -/
def State.frameSafe (s : State) (f : Frame) : Bool :=
  match f.phase, f.firstLsn with
  | .encoded, some l =>
    s.openingSafe f.clip && (List.range (sectorsOf f.bytes)).all fun i => s.lsnSafe (l + i)
  | _, _ => false

/-- The count of a clip's close record queued in this session, if it is closed. -/
def State.closedCount (s : State) (clip : Word) : Option Nat :=
  (s.rcd.closed.find? fun c => c.1 == clip).map (·.2)

/-- The clips of the session that may be named next: those opened after the one named, without the closed clips that
count no frame (R134). -/
def State.clipsAfter (s : State) (clip : Word) : List Word :=
  let l := s.rcd.opened.map (·.1)
  let rest := if clip = 0 then l else (l.dropWhile (· != clip)).drop 1
  rest.filter fun c => s.closedCount c != some 0

/-- The clip whose next commit is due, with the count of its frames committed so far: the clip named, or the next clip once
every frame counted in the clip named has committed (R57, R134). -/
def State.nextCommit (s : State) : Option (Word × Nat) :=
  let c := s.mnt.commitClip
  let n := s.mnt.commitFrames
  if c ≠ 0 ∧ s.closedCount c ≠ some n then some (c, n)
  else (s.clipsAfter c).head?.map fun d => (d, 0)

/-- The frame of a clip with the lowest number on the path: frames commit in order, so it is the next to commit (R57). A
frame number that R117 has discarded is passed over (log entry 150). -/
def State.oldestFrame (s : State) (clip : Word) : Option Frame :=
  (s.rcd.frames.filter fun f => f.clip == clip).foldl (fun acc f =>
    match acc with
    | none => some f
    | some g => if f.number < g.number then some f else some g) none

/-- Advance the commit point while the next frame meets R56; each advance raises COMMIT and releases the frame's slot
(R57, R59, R137). `k` bounds the frames. -/
def State.advanceCommit (s : State) : Nat → State
  | 0 => s
  | k + 1 =>
    match s.nextCommit with
    | none => s
    | some (c, n) =>
      match s.oldestFrame c with
      | none => s
      | some f =>
        if s.frameSafe f then
          (((s.updMnt fun m => { m with commitClip := c, commitFrames := n + 1 }).raise evCommit).dropFrame f
            ).advanceCommit k
        else s

/-- Publish whatever the commit point has reached (R58), and follow the occupancy. -/
def State.publish (s : State) : State := (s.advanceCommit s.rcd.frames.length).watchOccupancy

/-! Relocations dropped with their frames, and the guarantee falling to 0 (R580). -/

/-- Forget the copies and staged sectors of frames that are no longer on the path and not committed. -/
def State.forgetFrame (s : State) (f : Frame) : State :=
  let mine := fun (c : Word) (n : Nat) => c == f.clip && n == f.number
  let fix := fun (w : WriteHead) => { w with relocs := w.relocs.filter fun x => !mine x.clip x.frame }
  s.updRcd fun r => { r with headA := fix r.headA, headB := fix r.headB }

/-- Drop frames that cannot commit: their slots are freed and the clip counts only the frames before them (R149). -/
def State.loseFrames (s : State) (p : Frame → Bool) : State :=
  (s.rcd.frames.filter p).foldl (fun u f => ((u.dropFrame f).forgetFrame f).truncateClip f.clip f.number) s

/-- Some head still takes stripes. -/
def State.anyHead (s : State) : Bool := s.takesStripes .a || s.takesStripes .b

/-- A frame none of whose sectors has been encoded yet. -/
def Frame.unencoded (f : Frame) : Bool :=
  match f.phase with
  | .full => true
  | .encoding _ => true
  | _ => false

/-- Free the slots of accepted frames that no head can take (R580 step 2). -/
def State.dropUnencodable (s : State) : State :=
  if s.anyHead then s else s.loseFrames Frame.unencoded

/-- When G falls to 0 MB/s the open clip is closed with reason RECORD_STOPPED (R580); its close record is queued once
the last frame has been encoded. -/
def State.checkGuarantee (s : State) : State :=
  if s.guarantee = 0 ∧ s.clipOpen = true then (s.closeClip 5).dropUnencodable else s

end Sys2Proof.Machine
end

