-- ==== Sys2Proof/Machine/Operands.lean ====
section
/-! DEFINITION. The operands of a command: the submission entry's bytes, its fields, the opcode table and the field checks
of check 3 (04_command_packets, Tables 4.1 to 4.5). -/

namespace Sys2Proof.Machine

/-- The entry that 64 bytes spell (R121, Table 4.1). -/
def entryOf (bs : List Byte) : Entry :=
  let f := Word.fieldLE bs
  let flags := BitVec.ofNat 8 (f 1 1)
  { opcode := BitVec.ofNat 8 (f 0 1)
    fence := flags.getLsbD 7
    sgl := flags.getLsbD 6
    flagsRsvd := flags.setWidth 6
    cid := BitVec.ofNat 16 (f 2 2)
    length := BitVec.ofNat 32 (f 4 4)
    dptr := BitVec.ofNat 64 (f 8 8)
    sglCount := BitVec.ofNat 32 (f 16 4)
    rsvd := BitVec.ofNat 32 (f 20 4)
    params := Vector.ofFn fun i => BitVec.ofNat 32 (f (24 + 4 * i.val) 4) }

/-- The 64 bytes of an entry (R121, Table 4.1). -/
def entryBytes (e : Entry) : List Byte :=
  [e.opcode, BitVec.ofNat 8 (bit e.fence 7 + bit e.sgl 6 + e.flagsRsvd.toNat)] ++ le 2 e.cid.toNat ++ le 4 e.length.toNat ++
    le 8 e.dptr.toNat ++ le 4 e.sglCount.toNat ++ le 4 e.rsvd.toNat ++ e.params.toList.flatMap fun p => le 4 p.toNat

/-- The element that 16 bytes spell; the reserved bytes 12 to 15 are ignored (R122, R692, Table 4.2). -/
def sglElemOf (bs : List Byte) : SglElem :=
  { addr := BitVec.ofNat 64 (Word.fieldLE bs 0 8), len := BitVec.ofNat 32 (Word.fieldLE bs 8 4) }

/-- The 16 bytes of a scatter element (Table 4.2). -/
def sglElemBytes (x : SglElem) : List Byte := le 8 x.addr.toNat ++ le 4 x.len.toNat ++ Word.zeros 4

/-- The first `n` elements that the bytes of a scatter list spell, in list order (R122). -/
def sglOf : Nat → List Byte → List SglElem
  | 0, _ => []
  | n + 1, bs => sglElemOf (bs.take 16) :: sglOf n (bs.drop 16)

/-- The scatter list of a call, by the number of elements its entry names. -/
def callElems (c : Call) : List SglElem := sglOf c.entry.sglCount.toNat c.sgl

/-- Parameter word `i` of an entry. -/
def parm (e : Entry) (i : Fin 10) : Word := e.params[i]

/-- Bits `hi` to `lo` of a word as a number. -/
def fieldOf (w : Word) (hi lo : Nat) : Nat := w.toNat / 2 ^ lo % 2 ^ (hi + 1 - lo)

/-- The opcode of a code (R127, Table 4.4). -/
def Opcode.ofCode (c : BitVec 8) : Option Opcode :=
  match c.toNat with
  | 0x01 => some .identify
  | 0x02 => some .getPage
  | 0x03 => some .getParam
  | 0x04 => some .setParam
  | 0x08 => some .keyLoad
  | 0x09 => some .keyPurge
  | 0x0A => some .mount
  | 0x0B => some .unmount
  | 0x10 => some .clipOpen
  | 0x11 => some .clipClose
  | 0x12 => some .frameAppend
  | 0x13 => some .auxAppend
  | 0x20 => some .read
  | 0x21 => some .frameRead
  | 0x22 => some .metaRead
  | 0x23 => some .metaWrite
  | 0x28 => some .lockAcquire
  | 0x29 => some .lockRelease
  | 0x2A => some .lockClearAbandoned
  | 0x30 => some .powerState
  | 0x38 => some .spindle
  | 0x39 => some .calibrate
  | 0x3A => some .verifyCtl
  | 0x40 => some .fwStage
  | 0x41 => some .fwActivate
  | 0x42 => some .attest
  | 0x43 => some .jtagUnlock
  | _ => none

/-- The code of an opcode (Table 4.4). -/
def Opcode.code (o : Opcode) : BitVec 8 :=
  match o with
  | .identify => 0x01
  | .getPage => 0x02
  | .getParam => 0x03
  | .setParam => 0x04
  | .keyLoad => 0x08
  | .keyPurge => 0x09
  | .mount => 0x0A
  | .unmount => 0x0B
  | .clipOpen => 0x10
  | .clipClose => 0x11
  | .frameAppend => 0x12
  | .auxAppend => 0x13
  | .read => 0x20
  | .frameRead => 0x21
  | .metaRead => 0x22
  | .metaWrite => 0x23
  | .lockAcquire => 0x28
  | .lockRelease => 0x29
  | .lockClearAbandoned => 0x2A
  | .powerState => 0x30
  | .spindle => 0x38
  | .calibrate => 0x39
  | .verifyCtl => 0x3A
  | .fwStage => 0x40
  | .fwActivate => 0x41
  | .attest => 0x42
  | .jtagUnlock => 0x43

/-- The function may issue the opcode (R127, Table 4.4). -/
def Opcode.allowed (o : Opcode) (fn : FnId) : Bool :=
  match o with
  | .setParam | .spindle | .calibrate | .verifyCtl | .fwStage | .fwActivate | .jtagUnlock => fn == 3
  | .keyLoad | .keyPurge | .mount | .unmount => fn == 0 || fn == 3
  | .clipOpen | .clipClose | .frameAppend => fn == 0
  | .auxAppend | .metaWrite => fn == 2
  | .read | .frameRead | .metaRead => fn != 0
  | .identify | .getPage | .getParam | .lockAcquire | .lockRelease | .lockClearAbandoned | .powerState | .attest => true

/-- The opcode is in the recovery subset (R158). -/
def Opcode.inRecovery (o : Opcode) : Bool :=
  match o with
  | .identify | .getPage | .attest | .fwStage | .fwActivate => true
  | _ => false

/-- The opcode changes the state when it starts (R141). -/
def Opcode.changesState (o : Opcode) : Bool :=
  match o with
  | .keyLoad | .keyPurge | .mount | .unmount | .clipOpen | .clipClose | .spindle | .calibrate | .verifyCtl
  | .fwActivate | .jtagUnlock => true
  | _ => false

/-- The opcode is in the first row of Table 4.10, served while a MOUNT or UNMOUNT runs (R142). -/
def Opcode.alwaysLegal (o : Opcode) : Bool :=
  match o with
  | .identify | .getPage | .getParam | .setParam | .lockAcquire | .lockRelease | .lockClearAbandoned | .powerState
  | .attest | .fwStage => true
  | _ => false

/-- A media command (R687). -/
def isMedia (o : Opcode) (e : Entry) : Bool :=
  match o with
  | .mount | .unmount | .clipOpen | .clipClose | .frameAppend | .auxAppend | .metaWrite | .read | .frameRead | .metaRead
  | .spindle | .calibrate => true
  | .verifyCtl => fieldOf (parm e 0) 1 0 != 0
  | _ => false

/-- Byte offset of parameter word `i` in the entry. -/
def pOff (i : Nat) : Nat := 24 + 4 * i

/-- A check of fields: the first one that fails gives the byte offset of its field (Table 4.9, INVALID_FIELD). -/
def firstBad (l : List (Bool × Nat)) : Option Nat := (l.find? fun x => !x.1).map (·.2)

/-- A number lies in a range. -/
def within (lo hi n : Nat) : Bool := decide (lo ≤ n) && decide (n ≤ hi)

/-- LENGTH is what Table 4.4 gives the opcode; a command that moves no data has LENGTH 0 (Table 4.1). For META_WRITE
the record type decides (R705); the bound of a FRAME_READ that needs the frame's clip is checked when it starts, and
the LENGTH of a FRAME_APPEND under R151. -/
def lengthOk (o : Opcode) (e : Entry) : Bool :=
  let n := e.length.toNat
  match o with
  | .identify | .attest => n == 4096
  | .getPage | .metaRead => within 1 65536 n
  | .keyLoad => n == 40
  | .clipOpen | .clipClose => within 0 4096 n
  | .frameAppend => within 1 268435456 n
  | .auxAppend => within 1 1048576 n
  | .read => n == fieldOf (parm e 1) 13 0 * 32768
  | .frameRead => within 1 268435456 n
  | .metaWrite =>
    if fieldOf (parm e 0) 7 0 = 5 then n == 16 else if fieldOf (parm e 0) 7 0 = 7 then within 5 65536 n else true
  | .fwStage => within 4096 1048576 n && n % 4096 == 0
  | .jtagUnlock => within 1 4096 n
  | .getParam | .setParam | .keyPurge | .mount | .unmount | .lockAcquire | .lockRelease | .lockClearAbandoned
  | .powerState | .spindle | .calibrate | .verifyCtl | .fwActivate => n == 0

/-- The frame rate of a profile is at most 250 fps (R148). -/
def fpsOk (num den : Nat) : Bool := decide (num ≤ 250 * den)

/-- The range of a device parameter (Table 4.11). -/
def paramRange (id : Nat) : Option (Nat × Nat) :=
  match id with
  | 1 => some (10, 95)
  | 2 => some (0, 10000)
  | 3 => some (0, 16384)
  | _ => none

/-- The number of set bits of a word below `n`. -/
def popBits (w : Nat) : Nat → Nat
  | 0 => 0
  | n + 1 => popBits w n + (if w.testBit n then 1 else 0)

/-- The bytes of a page (R128, R613, R615, R569); page 0x01 is a copy of the registers of Table 4.8. -/
def pageLength (page : Nat) : Option Nat :=
  match page with
  | 1 => some 52
  | 2 => some 128
  | 3 => some 1664
  | 4 => some 65536
  | 5 => some 7168
  | _ => none

/-- The step numbers of Table 15.1, and 0xFF for the full sequence. -/
def stepKnown (n : Nat) : Bool := [1, 2, 3, 4, 5, 6, 7, 10, 11, 12, 13, 14, 255].contains n

/-- The checks of the parameter words of an opcode, in the order of their byte offsets (R128, Table 4.5, R148, R157,
R205, R206, R283). A chunk of FW_STAGE that begins below 16 MiB and ends above is refused by its OFFSET, of which alone the
spec gives a bound (DESIGN CHOICE, log entry 167). -/
def paramChecks (o : Opcode) (e : Entry) : List (Bool × Nat) :=
  let p := fun i => (parm e i).toNat
  match o with
  | .getPage =>
    match pageLength (fieldOf (parm e 0) 7 0) with
    | none => [(false, pOff 0)]
    | some n => [(decide (p 1 < n), pOff 1)]
  | .getParam => [((paramRange (fieldOf (parm e 0) 15 0)).isSome, pOff 0)]
  | .setParam =>
    match paramRange (fieldOf (parm e 0) 15 0) with
    | none => [(false, pOff 0)]
    | some r => [(within r.1 r.2 (p 1), pOff 1)]
  | .clipOpen =>
    [(p 0 != 0 && p 0 != 0xFFFFFFFF, pOff 0), (within 1 268435456 (p 1), pOff 1),
     (within 1 240000 (p 2) && (fieldOf (parm e 3) 15 0 == 0 || fpsOk (p 2) (fieldOf (parm e 3) 15 0)), pOff 2),
     (fieldOf (parm e 3) 15 0 != 0, pOff 3)]
  | .clipClose =>
    if p 1 = 0 then []
    else
      [(p 1 != 0xFFFFFFFF, pOff 1), (within 1 268435456 (p 2), pOff 2),
       (within 1 240000 (p 3) && (fieldOf (parm e 4) 15 0 == 0 || fpsOk (p 3) (fieldOf (parm e 4) 15 0)), pOff 3),
       (fieldOf (parm e 4) 15 0 != 0, pOff 4)]
  | .auxAppend => [(p 0 != 0 && p 0 != 0xFFFFFFFF, pOff 0)]
  | .read => [(within 1 8192 (fieldOf (parm e 1) 13 0), pOff 1)]
  | .metaWrite =>
    let ty := fieldOf (parm e 0) 7 0
    [(ty == 5 || ty == 7, pOff 0), (ty != 5 || within 1 3 (p 1), pOff 1), (ty != 5 || decide (p 2 ≤ 15), pOff 2)]
  | .metaRead => [(within 1 10 (fieldOf (parm e 0) 7 0), pOff 0)]
  | .lockAcquire => [(decide (fieldOf (parm e 1) 13 0 ≤ 10000), pOff 1)]
  | .powerState => [(decide (fieldOf (parm e 0) 2 0 ≤ 4), pOff 0)]
  | .spindle => [(fieldOf (parm e 1) 15 0 == 0 || within 6000 10800 (fieldOf (parm e 1) 15 0), pOff 1)]
  | .calibrate => [(stepKnown (fieldOf (parm e 0) 7 0), pOff 0)]
  | .fwStage => [(p 0 % 4096 == 0 && decide (p 0 + e.length.toNat ≤ 16777216), pOff 0)]
  | .identify | .keyLoad | .keyPurge | .mount | .unmount | .frameAppend | .frameRead | .lockRelease
  | .lockClearAbandoned | .verifyCtl | .fwActivate | .attest | .jtagUnlock => []

/-- What check 3 of R139 finds (R122) of a call: nothing, an invalid field by its offset, or a failed read of the scatter list.
LENGTH comes first, then the list (R692), then the parameter words. The service port ignores SGL (R622). Reserved bits and
words of the entry are ignored whatever they hold (DESIGN CHOICE, log entry 164), and a failed read of the list wins over an
element before it (DESIGN CHOICE, log entry 168). -/
def fieldCheck (o : Opcode) (c : Call) (uart : Bool) : Option (Status × DWord) :=
  let e := c.entry
  let bad := fun n : Nat => some (Status.invalidField, BitVec.ofNat 64 n)
  let params :=
    match firstBad (paramChecks o e) with
    | some n => bad n
    | none => none
  if !lengthOk o e then bad 4
  else if uart then (if e.length.toNat > 4096 then bad 4 else params)
  else if e.sgl then
    if e.sglCount = 0 then bad 16
    else if e.sglCount.toNat > 65535 then bad 16
    else
      match c.listErr with
      | some a => some (.dmaError, a)
      | none =>
        if (callElems c).any fun x => x.len == 0 then bad 8
        else if ((callElems c).map fun x => x.len.toNat).sum ≠ e.length.toNat then bad 4
        else params
  else params

end Sys2Proof.Machine
end

