-- ==== Sys2Proof/Machine/Service.lean ====
section
/-! DEFINITION. Calibration state, bring-up, the spindle's requests and the parts of a mount that every departure from it
shares (15_bringup_calibration, 11_spindle_sled_moves, 07_stripe_codec_crypto R285). -/

namespace Sys2Proof.Machine

/-! Calibration units (Table 15.1). -/

/-- The scope of a step: a beam step, a head step or a device step, by its place among them. -/
inductive StepScope where
  | beam (i : Fin 6)
  | head (i : Fin 4)
  | device (i : Fin 2)
deriving DecidableEq, Repr

/-- The scope of a step number (Table 15.1). -/
def scopeOf (step : Nat) : Option StepScope :=
  match step with
  | 1 => some (.beam 0)
  | 2 => some (.beam 1)
  | 3 => some (.beam 2)
  | 12 => some (.beam 3)
  | 13 => some (.beam 4)
  | 14 => some (.beam 5)
  | 4 => some (.head 0)
  | 6 => some (.head 1)
  | 10 => some (.head 2)
  | 11 => some (.head 3)
  | 5 => some (.device 0)
  | 7 => some (.device 1)
  | _ => none

/-- The beam units of a head. -/
def Calib.beamUnits (c : Calib) (h : Head) : Vector (Vector CalUnit 6) 18 :=
  match h with
  | .a => c.beamsA
  | .b => c.beamsB

/-- The head units of a head. -/
def Calib.headUnits (c : Calib) (h : Head) : Vector CalUnit 4 :=
  match h with
  | .a => c.headA
  | .b => c.headB

/-- One unit of a step on a beam, a head or the device. -/
def State.calUnit (s : State) (step : Nat) (h : Head) (b : Beam) : CalUnit :=
  match scopeOf step with
  | none => { status := .notApplicable }
  | some (.beam i) => ((s.cal.beamUnits h)[b])[i]
  | some (.head i) => (s.cal.headUnits h)[i]
  | some (.device i) => s.cal.device[i]

/-- Milliseconds since the functions became ready (Table 15.7). -/
def State.calMs (s : State) : Nat := (s.now - s.cal.readyAt) / 1000000

/-- Set the status of a unit, at the present time. -/
def State.setUnit (s : State) (step : Nat) (h : Head) (b : Beam) (st : StepStatus) : State :=
  let u : CalUnit := { status := st, atMs := s.calMs }
  match scopeOf step with
  | none => s
  | some (.beam i) =>
    match h with
    | .a => s.updCal fun c => { c with beamsA := Vec.upd s.cal.beamsA b fun v => Vec.upd v i fun _ => u }
    | .b => s.updCal fun c => { c with beamsB := Vec.upd s.cal.beamsB b fun v => Vec.upd v i fun _ => u }
  | some (.head i) =>
    match h with
    | .a => s.updCal fun c => { c with headA := Vec.upd s.cal.headA i fun _ => u }
    | .b => s.updCal fun c => { c with headB := Vec.upd s.cal.headB i fun _ => u }
  | some (.device i) => s.updCal fun c => { c with device := Vec.upd s.cal.device i fun _ => u }

/-- A step that has not finished and does not run; NOT_RUN and aborted steps stay pending (R551, R552). -/
def StepStatus.waits (st : StepStatus) : Bool :=
  match st with
  | .pending | .notRun _ | .aborted _ => true
  | _ => false

/-- A step that runs. -/
def StepStatus.runs (st : StepStatus) : Bool := st == .running

/-- A step that has finished, passed or discarded (R535). -/
def StepStatus.finished (st : StepStatus) : Bool := st == .passed || st == .discarded

/-- A step that applies and has not finished (R543). -/
def StepStatus.open (st : StepStatus) : Bool := st.waits || st.runs

/-- The two heads. -/
def bothHeads : List Head := [.a, .b]

/-- The places where a step is done: every head and beam of its scope, once. -/
def placesOf (step : Nat) : List (Head × Beam) :=
  match scopeOf step with
  | some (.beam _) => bothHeads.flatMap fun h => allBeams.map fun b => (h, b)
  | some (.head _) => bothHeads.map fun h => (h, 0)
  | some (.device _) => [(.a, 0)]
  | none => []

/-- Every step of Table 15.1, in its order. -/
def allSteps : List Nat := [1, 2, 3, 4, 5, 6, 7, 10, 11, 12, 13, 14]

/-- The steps of group I and of group M. -/
def groupI : List Nat := [1, 2, 3, 4, 5, 6, 7]
def groupM : List Nat := [10, 11, 12, 13, 14]

/-- Every unit of a step satisfies a test. -/
def State.allUnits (s : State) (step : Nat) (p : StepStatus → Bool) : Bool :=
  (placesOf step).all fun x => p (s.calUnit step x.1 x.2).status

/-- The units of a step on one head satisfy a test. -/
def State.headAll (s : State) (step : Nat) (h : Head) (p : StepStatus → Bool) : Bool :=
  (placesOf step).all fun x => (x.1 != h && scopeOf step != some (.device 0) && scopeOf step != some (.device 1)) ||
    p (s.calUnit step x.1 x.2).status

/-- Set every unit of some steps. -/
def State.setSteps (s : State) (steps : List Nat) (st : StepStatus) : State :=
  steps.foldl (fun u n => (placesOf n).foldl (fun v x => v.setUnit n x.1 x.2 st) u) s

/-- A beam is valid for R348: steps 1, 2, 12 and 13 have passed and no trim has marked it (R540, R550). -/
def State.valid348 (s : State) (h : Head) (b : Beam) : Bool :=
  [1, 2, 12, 13].all (fun n => (s.calUnit n h b).status == .passed) &&
    (s.beam h b).trimDiscards.toList.all fun n => decide (n < 4)

/-- The zone set of a zone (R296). -/
def zoneSet (z : Nat) : Nat := z / 6

/-- The integrator section in use holds driver codes for a beam, and a write-strategy set for it in a layer and zone
(R298, Table 15.6). -/
def State.hasSet (s : State) (h : Head) (b : Beam) (layer zone : Nat) : Bool :=
  let j := beamIndex h b
  s.vole.integratorValid && s.vole.keysInUse.contains (0x03, j, layer, zoneSet zone) &&
    s.vole.keysInUse.any fun k => k.1 == 0x04 && k.2.1 == j

/-- A beam may write in a layer and zone (R50): it is valid for R348, steps 3 and 14 have passed (R540), its driver holds
codes (R642), and the archive has its sets (R298, R568). -/
def State.valid50At (s : State) (h : Head) (b : Beam) (layer zone : Nat) : Bool :=
  s.valid348 h b && [3, 14].all (fun n => (s.calUnit n h b).status == .passed) && !(s.beam h b).driverLost &&
    s.hasSet h b layer zone

/-- A beam is valid for R50 where its head stands to write (R540). -/
def State.valid50 (s : State) (h : Head) (b : Beam) : Bool :=
  let w := s.wh h
  s.valid50At h b w.layer (zoneOf h w.layer w.swept)

/-- DOOR: DOOR_SENSE has been low for 5 ms without a break (R536, R702). -/
def State.doorHolds (s : State) : Bool := !s.pins.doorSense && decide (s.pins.doorSince + Config.ms 5 ≤ s.now)

/-- LASER_ARM has been asserted for 5 ms without a break (R317, R702). -/
def State.armHolds (s : State) : Bool := s.pins.laserArm && decide (s.pins.armSince + Config.ms 5 ≤ s.now)

/-- A media command runs (IDLE of R536). -/
def State.mediaRuns (s : State) : Bool :=
  s.runs [.mount, .unmount, .clipOpen, .clipClose, .frameAppend, .auxAppend, .metaWrite, .read, .frameRead, .metaRead,
    .spindle]

/-- The preconditions that do not hold for a head, as the mask of Table 15.2. -/
def State.falseMask (s : State) (h : Head) : Nat :=
  bit (!s.doorHolds) 0 + bit (decide (s.mnt.magazine < 2)) 1 + bit (!(s.pins.laserArm && (s.hd h).release)) 2 +
    bit (s.spin.state != 3) 3 + bit (s.spin.state != 0) 4 + bit (s.ldEn .a || s.ldEn .b || !s.doorHolds) 5 +
    bit (!s.servoReady h) 6 + bit (!s.quill.motorRelease) 7 + bit (s.clipOpen || s.mediaRuns) 8

/-- The preconditions of a step, as a mask of Table 15.2. -/
def stepNeeds (step : Nat) : Nat :=
  match step with
  | 1 | 3 | 4 => 2 ^ 5
  | 5 => 2 ^ 4
  | 6 => 2 ^ 7
  | 10 => 2 ^ 0 + 2 ^ 1 + 2 ^ 2 + 2 ^ 3
  | 11 | 12 | 13 => 2 ^ 6
  | 14 => 2 ^ 6 + 2 ^ 2
  | _ => 0

/-- The preconditions of a step that fail on a head. -/
def State.failing (s : State) (step : Nat) (h : Head) : Nat := Nat.land (stepNeeds step) (s.falseMask h)

/-- The steps that must have finished before a step: its Needs column, the order of group M on a head, and the beams
before it in step 13 (R535). -/
def State.needsDone (s : State) (step : Nat) (h : Head) (b : Beam) : Bool :=
  let fin := fun n => (s.calUnit n h b).status.finished
  match step with
  | 2 => fin 1
  | 10 => fin 4 && fin 6
  | 11 => fin 10
  | 12 => fin 1 && fin 10 && fin 11
  | 13 => fin 2 && fin 12 && s.headAll 12 h StepStatus.finished &&
      allBeams.all fun c => decide (b.val ≤ c.val) || (s.calUnit 13 h c).status.finished
  | 14 => fin 12 && s.headAll 13 h StepStatus.finished
  | _ => true

/-- The longest a step may run, in ms (Table 15.1). -/
def stepMax (step : Nat) : Nat :=
  match step with
  | 1 => 40
  | 2 => 80
  | 3 => 60
  | 4 => 30
  | 5 => 40
  | 6 => 380
  | 7 => 50
  | 10 => 340
  | 11 => 200
  | 12 => 40
  | 13 => 400
  | 14 => 200
  | _ => 0

/-- What is left of a unit's step, in ms (R548). -/
def State.unitLeft (s : State) (step : Nat) (h : Head) (b : Beam) : Nat :=
  let u := s.calUnit step h b
  if u.status.waits then stepMax step
  else if u.status.runs then stepMax step - (s.calMs - u.atMs)
  else 0

/-- What is left of a step of group M on a head: all of it while no beam has begun, else the rest of it (R548). -/
def State.headLeft (s : State) (step : Nat) (h : Head) : Nat :=
  match scopeOf step with
  | some (.head _) => s.unitLeft step h 0
  | _ =>
    let us := allBeams.map fun b => s.calUnit step h b
    if us.all fun u => !u.status.open then 0
    else
      match (us.filter fun u => !u.status.waits && u.status != .notApplicable).map (·.atMs) with
      | [] => stepMax step
      | m :: ms => stepMax step - (s.calMs - ms.foldl min m)

/-- A pending step waits on a precondition other than LOCKED (R548). -/
def State.waitsElsewhere (s : State) : Bool :=
  allSteps.any fun n => (placesOf n).any fun x =>
    (s.calUnit n x.1 x.2).status.waits && s.needsDone n x.1 x.2 &&
      Nat.land (s.failing n x.1) (511 - 8) != 0

/-- The time left in slot 8's ramp, in ms: 8,000 samples at 4 kHz (R548, Table 11.2). -/
def State.rampLeft (s : State) : Nat :=
  if s.spin.state = 3 then 0
  else
    let k := s.loop.slots[(8 : Fin 16)]
    match k.mode with
    | .ramp => (k.cfg.rampLen.toNat - k.rampIdx) / 4
    | .run => 0
    | _ => k.cfg.rampLen.toNat / 4

/-- The Detail of BRINGUP_IN_PROGRESS (R548). -/
def State.estimate (s : State) : Nat :=
  if s.rcd.drey.outOfService || s.waitsElsewhere then 0xFFFFFFFFFFFFFFFF
  else
    let left := fun n (x : Head × Beam) => s.unitLeft n x.1 x.2
    let most := fun n => ((placesOf n).map (left n)).foldl max 0
    let chain12 := ((placesOf 1).map fun x => left 1 x + left 2 x).foldl max 0
    let gI := [chain12, most 3, most 4, most 5, most 6, most 7].foldl max 0
    let gM := (bothHeads.map fun h => (groupM.map fun n => s.headLeft n h).sum).foldl max 0
    max gI (if gM = 0 then 0 else s.rampLeft + gM)

/-- A step that applies is pending or runs, or a CALIBRATE runs (R543). -/
def State.bringupNow (s : State) : Bool :=
  s.runs [.calibrate] || allSteps.any fun n => !s.allUnits n fun st => !st.open

/-- The read channel of one beam. -/
def State.chan (s : State) (h : Head) (b : Beam) : ReadChannel :=
  match h with
  | .a => s.rd.chansA[b]
  | .b => s.rd.chansB[b]

/-- The device bank in use: the valid one of the higher generation (R563). -/
def State.bankInUse (s : State) : Option DeviceBank :=
  match s.vole.bank0, s.vole.bank1 with
  | some x, some y => if y.generation ≤ x.generation then some x else some y
  | some x, none => some x
  | none, y => y

/-- What the archive keeps of a beam: its results, or the archived ones where a step of the beam has been discarded
(R553, R567). -/
def State.archiveBeam (s : State) (h : Head) (b : Beam) : ArchivedBeam :=
  let u := s.beam h b
  let c := s.chan h b
  { par := c.par, verify := c.verify, taps := c.taps, gain := c.gain
    adcOffset := u.calOffset, readCode := u.calRead, writeCode := u.calWrite
    readTarget := u.readTarget, betaTarget := u.betaTarget, slope := u.calSlope }

/-- Write the device section into the bank not in use, one generation on (R563, R567). -/
def State.writeBank (s : State) : State :=
  let next := (s.bankInUse.map (·.generation)).getD 0 + 1
  let bank : DeviceBank := { generation := next, beamsA := Vector.ofFn (s.archiveBeam .a), beamsB := Vector.ofFn (s.archiveBeam .b)
                             gains := s.loop.gains }
  let use0 : Bool := match s.vole.bank0, s.vole.bank1 with
    | some x, some y => decide (x.generation < y.generation)
    | some _, none => false
    | none, _ => true
  { s with
    vole := if use0 then { s.vole with bank0 := some bank } else { s.vole with bank1 := some bank }
    cal := { s.cal with changed := false } }

/-- Follow BRINGUP: when it falls, BRINGUP_DONE is raised and changed results are archived (R543, R544, R567). -/
def State.followBringup (s : State) : State :=
  let now := s.bringupNow
  if s.cal.bringup && !now then
    let s1 := (s.updCal fun c => { c with bringup := false }).raise evBringupDone
    if s1.cal.changed then s1.writeBank else s1
  else s.updCal fun c => { c with bringup := now }

/-- Group M ends when MAGAZINE stops holding; its results stop counting (R556). -/
def State.endGroupM (s : State) : State :=
  ((s.updCal fun c => { c with groupM := false }).setSteps groupM .notApplicable).followBringup

/-- Running steps that lose a precondition are stopped and become pending again (R552). -/
def State.abortSteps (s : State) (mask : Nat) (p : Nat → Head → Bool) : State :=
  allSteps.foldl (fun u n => (placesOf n).foldl (fun v x =>
    if (v.calUnit n x.1 x.2).status.runs && Nat.land (stepNeeds n) mask != 0 && p n x.1 then
      v.setUnit n x.1 x.2 (.aborted (BitVec.ofNat 32 (Nat.land (stepNeeds n) mask)))
    else v) u) s

/-- A running CALIBRATE that loses a precondition completes with the lost mask (R561). -/
def State.stopCalibrate (s : State) (mask : Nat) : State :=
  let touches := fun r : Running => r.op == .calibrate && r.calLeft.any fun x => Nat.land (stepNeeds x.1) mask != 0
  (s.endAll touches .notRunPrecondition (BitVec.ofNat 64 mask)).followBringup

/-! The spindle (11_spindle_sled_moves). -/

/-- Turn every gate off; a rotor that still turns coasts (R706). -/
def State.gatesOff (s : State) : State :=
  s.updSpin fun p => { p with gates := .off, gatesAt := if p.gates = .off then p.gatesAt else s.now, tripPeriods := []
                              state := if p.state = 0 then 0 else 6 }

/-- Want the spindle forward at `rpm`: start it if it does not run, or change its speed (R414, R419, R420). -/
def State.wantSpeed (s : State) (rpm : Nat) : State :=
  if s.spin.lockout then s
  else
    match s.spin.state with
    | 0 | 6 => s.updSpin fun p => { p with startDue := true, target := rpm, reverse := false }
    | 3 | 4 => if s.spin.target = rpm then s else s.updSpin fun p => { p with state := 2, target := rpm }
    | 5 => s.updSpin fun p => { p with thenStart := some (rpm, false) }
    | _ => s.updSpin fun p => { p with target := rpm }

/-- A slot's ENABLE cleared: the slot goes to IDLE and its output to the idle value 0 (R386, R379); the counts of Table 10.2
change only at samples (R384). -/
def LoopSlot.disable (k : LoopSlot) : LoopSlot :=
  { k with enable := false, mode := .idle, out := 0, rampIdx := 0, inWindow := 0, fresh := false, events := 0 }

/-- Stop the spindle under R415: slot 8's ENABLE is cleared and the unit brakes; without the motor-control release no gate
is driven, and the rotor coasts (R514, R706); in lock-out the gates stay off (R418). -/
def State.brakeSpindle (s : State) : State :=
  if s.spin.state = 0 then (s.updSpin fun p => { p with startDue := false, target := 0 })
  else if s.spin.lockout then (s.updSlot 8 LoopSlot.disable).updSpin fun p => { p with target := 0 }
  else (s.updSlot 8 LoopSlot.disable).updSpin fun p =>
    { p with state := if s.quill.motorRelease then 5 else 6, gates := if s.quill.motorRelease then .braking else .off
             gatesAt := if p.gates = .braking then p.gatesAt else s.now, tripPeriods := []
             target := 0, startDue := false, retryDue := false, restartDue := false, attempts := 0, thenStart := none }

/-- SERVO_READY of a head clears; lanes fall to READ and sectors in flight fail with cause 5 (R318, R392). -/
def State.clearReady (s : State) (h : Head) : State :=
  let s1 := match h with
    | .a => s.updLoop fun e => { e with readyA := false }
    | .b => s.updLoop fun e => { e with readyB := false }
  let s2 := (s1.updWh h fun w => { w with sectors := w.sectors.map fun x =>
    if x.inFlight && x.doomed = 0 then { x with doomed := 5 } else x }).updBeams h fun b =>
      { b with level := if b.level = .off then .off else .read }
  if s.servoReady h then (s2.abortSteps (2 ^ 6) fun _ k => k == h).stopCalibrate (2 ^ 6) else s2

/-- The slots of a head: focus, tracking, tilt, sled (Table 10.1). -/
def headSlots (h : Head) : List LoopId :=
  match h with
  | .a => [0, 1, 2, 3]
  | .b => [4, 5, 6, 7]

/-- Set some slots IDLE. -/
def State.idleSlots (s : State) (l : List LoopId) : State := l.foldl (fun u i => u.updSlot i LoopSlot.disable) s

/-- Park a head (R427): its loops but the sled IDLE, its lanes OFF, its sled at 30.5 mm. -/
def State.parkHead (s : State) (h : Head) : State :=
  let s1 := (s.idleSlots ((headSlots h).take 3)).clearReady h
  (s1.updBeams h fun b => { b with level := .off }).updHd h fun d =>
    { d with sledNm := 30500000, sledMode := .hold, parked := true, captured := false, decoding := false, seekBand := none,
             prefocus := none, trackOffset := 0, closing := false }

/-- The emergency park (R439): every lane OFF, the head loops IDLE with their generators at 0, each sled held where it
is, every spindle gate off. -/
def State.emergencyPark (s : State) : State :=
  let f := fun (u : State) (h : Head) =>
    ((((u.idleSlots ((headSlots h).take 3)).clearReady h).updBeams h fun b => { b with level := .off }).updHd h fun d =>
      { d with genFocus := 0, genTrack := 0, genTilt := 0, sledMode := .hold, captured := false, decoding := false
               closing := false })
  (f (f s .a) .b).gatesOff

/-! Leaving the mounted state. -/

/-- Every Scurry result goes, on the events of R356, R288 and R585. -/
def State.dropScurry (s : State) : State :=
  { s with rd := { s.rd with scurry := [], scurryA := false, scurryB := false,
                             partials := s.rd.partials.filter fun p => !p.speculative
                             pool := s.rd.pool.filter fun p => !p.speculative } }

/-- What every departure from the mounted state does: MK is erased, Scurry results go, the read path empties, and the
MAGAZINE record's session number reads 0 (R285, R288, R145, R409, Table 6.7). -/
def State.leaveMount (s : State) : State :=
  let s1 := s.dropScurry.updSpin fun p => { p with commOffset := none }
  let s2 := { s1 with rd := { s1.rd with pool := [], partials := [], holding := [], assembly := [], rebuilt := []
                                         ladderA := 0, ladderB := 0, excursion := none, mediaScrub := false
                                         radialLogged := [] } }
  let gone := fun r : VolRecord => if r.rtype == 1 then { r with bytes := r.bytes.take 24 ++ Word.zeros 4 } else r
  let s3 := { s2 with vmap := { s2.vmap with records := s2.vmap.records.map gone } }
  (s3.updMnt fun m => { m with mediaKey := none, mode := .none, seals := [], sealed := false, startPending := false, relocFailed := false
                               relocFull := false, placements := [] }).updRcd fun r => { r with stopped := true }

/-- The write side of a session that has ended: no group, no record, no frame stays. -/
def State.clearWrite (s : State) : State :=
  let f := fun (w : WriteHead) => { w with open3 := none, padding := false, relocs := [], rewrites := []
                                           sectors := [], over2 := false, over8 := false }
  s.updRcd fun r => { r with records := [], auxQueue := [], stripes := [], passed := [], passedSys := [], closing := []
                             closed := [], opened := [], headA := f r.headA, headB := f r.headB }

end Sys2Proof.Machine
end

