-- ==== Sys2Proof/Machine/Burrow.lean ====
section
/-! DEFINITION. Burrow, the relocation list and the access ranges (06_volume_map_burrow): lookups, insertion, retirement
and the scrub of the table. -/

namespace Sys2Proof.Machine

/-- A key of a KIND, a function and an LSN (Table 6.5). -/
def burrowKey (kind fn lsn : Nat) : DWord := BitVec.ofNat 64 (kind * 2 ^ 60 + fn * 2 ^ 58 + lsn)

/-- The care mask with `p` ones in the LSN, from bit 31 downward (R221). -/
def burrowMask (p : Nat) : DWord := BitVec.ofNat 64 (2 ^ 64 - 2 ^ (32 - p))

/-- A result (Table 6.5). -/
def burrowResult (action seq psa : Nat) : DWord :=
  BitVec.ofNat 64 (action * 2 ^ 62 + seq % 2 ^ 30 * 2 ^ 32 + psa)

/-- ACTION of a result. -/
def resultAction (r : DWord) : Nat := r.toNat / 2 ^ 62

/-- PSA of a result. -/
def resultPsa (r : DWord) : Nat := r.toNat % 2 ^ 32

/-- Care bits of a row. -/
def BurrowRow.care (r : BurrowRow) : Nat := popBits r.mask.toNat 64

/-- A row matches a key on every cared bit (R227). -/
def BurrowRow.hits (r : BurrowRow) (k : DWord) : Bool := r.valid && (k ^^^ r.key) &&& r.mask == 0

/-- The logical index that a physical row serves (R239, R244). -/
def BurrowState.logical (t : BurrowState) (p : Nat) : Nat :=
  match t.spares.find? (fun x => x.2 == p) with
  | some x => x.1
  | none => p

/-- The physical row that serves a logical index. -/
def BurrowState.physical (t : BurrowState) (i : Nat) : Nat :=
  match t.spares.find? (fun x => x.1 == i) with
  | some x => x.2
  | none => i

/-- The valid rows in service, with the logical index of each. -/
def BurrowState.live (t : BurrowState) : List (Nat × BurrowRow) :=
  (t.rows.filter fun x => x.2.valid && !t.removed.contains x.1).map fun x => (t.logical x.1, x.2)

/-- The row of lowest index that matches a key, with its index (R227). -/
def BurrowState.lookupAt (t : BurrowState) (k : DWord) : Option (Nat × BurrowRow) :=
  (t.live.filter fun x => x.2.hits k).foldl (fun acc x =>
    match acc with
    | none => some x
    | some y => if x.1 < y.1 then some x else some y) (none : Option (Nat × BurrowRow))

/-- What a lookup answers (R227). -/
def BurrowState.lookup (t : BurrowState) (k : DWord) : Option BurrowRow := (t.lookupAt k).map (·.2)

/-- A lookup that ends on a row whose result has failed its parity uses the firmware walk, as every lookup of a degraded
table does (R250, R255). -/
def BurrowState.walks (t : BurrowState) (k : DWord) : Bool :=
  t.degraded || (t.lookupAt k).any fun x => t.badResult.contains (t.physical x.1)

/-- Put a pair into a list that rises by its first component, in place of one with the same. -/
def putRow {α : Type} (i : Nat) (v : α) : List (Nat × α) → List (Nat × α)
  | [] => [(i, v)]
  | x :: xs => if x.1 < i then x :: putRow i v xs else if x.1 = i then (i, v) :: xs else (i, v) :: x :: xs

/-- Write a row at a logical index, the shadow first (R239). -/
def BurrowState.write (t : BurrowState) (i : Nat) (r : BurrowRow) : BurrowState :=
  let p := t.physical i
  { t with shadow := putRow p r t.shadow, rows := putRow p r t.rows }

/-- Clear the valid bit at a logical index (R234). -/
def BurrowState.clear (t : BurrowState) (i : Nat) : BurrowState :=
  let p := t.physical i
  let off := fun x : Nat × BurrowRow => if x.1 = p then (x.1, { x.2 with valid := false }) else x
  { t with shadow := t.shadow.map off, rows := t.rows.map off }

/-- A logical index that is in service and holds no valid row. -/
def BurrowState.free (t : BurrowState) (i : Nat) : Bool :=
  !t.removed.contains (t.physical i) && !t.live.any fun x => x.1 == i

/-- How many rows are free. -/
def BurrowState.freeCount (t : BurrowState) : Nat :=
  let lost := ((List.range Config.burrowRows).filter fun i => t.removed.contains (t.physical i)).length
  Config.burrowRows - lost - t.live.length

/-- The valid rows of one care-bit count, by logical index. -/
def BurrowState.group (t : BurrowState) (c : Nat) : List Nat := (t.live.filter fun x => x.2.care == c).map (·.1)

/-- The least of a list of numbers. -/
def least (l : List Nat) : Option Nat :=
  match l with
  | [] => none
  | x :: xs => some (xs.foldl min x)

/-- The greatest of a list of numbers. -/
def greatest (l : List Nat) : Option Nat :=
  match l with
  | [] => none
  | x :: xs => some (xs.foldl max x)

/-- Move a row to a free index: the copy first, then the source is cleared (R232). -/
def BurrowState.move (t : BurrowState) (src dst : Nat) : BurrowState :=
  match t.live.find? (fun x => x.1 == src) with
  | none => t
  | some x => (t.write dst x.2).clear src

/-- Shift groups of count below `c` that begin before the hole by one row each, from the lowest count upward; gives
where the hole ends (R233). -/
def BurrowState.shiftDown (t : BurrowState) (c hole : Nat) : Nat → Nat → BurrowState × Nat
  | 0, _ => (t, hole)
  | n + 1, g =>
    if g < c then
      match least (t.group g) with
      | some first =>
        if first < hole then (t.move first hole).shiftDown c first n (g + 1) else t.shiftDown c hole n (g + 1)
      | none => t.shiftDown c hole n (g + 1)
    else (t, hole)

/-- The mirror of the shift, for a hole that lies among rows of count above `c` (log entry 22). -/
def BurrowState.shiftUp (t : BurrowState) (c hole : Nat) : Nat → Nat → BurrowState × Nat
  | 0, _ => (t, hole)
  | n + 1, g =>
    if c < g then
      match greatest (t.group g) with
      | some last =>
        if hole < last then (t.move last hole).shiftUp c last n (g - 1) else t.shiftUp c hole n (g - 1)
      | none => t.shiftUp c hole n (g - 1)
    else (t, hole)

/-- Where an insertion of care-bit count `c` starts: a free row inside the group itself (R234), else the first free row
after the last valid row (R233), else the last free row. -/
def BurrowState.hole (t : BurrowState) (c : Nat) : Option Nat :=
  let frees := (List.range Config.burrowRows).filter t.free
  let inside :=
    match least (t.group c), greatest (t.group c) with
    | some lo, some hi => frees.find? fun i => decide (lo < i) && decide (i < hi)
    | _, _ => none
  match inside with
  | some i => some i
  | none =>
    let last := (greatest (t.live.map (·.1))).map (· + 1)
    match frees.find? (fun i => decide (last.getD 0 ≤ i)) with
    | some i => some i
    | none => frees.getLast?

/-- Insert a row into a table that has a free one (R233). -/
def BurrowState.place (t : BurrowState) (r : BurrowRow) : BurrowState :=
  match t.hole r.care with
  | none => t
  | some h =>
    let d := t.shiftDown r.care h 65 0
    let u := d.1.shiftUp r.care d.2 65 64
    u.1.write u.2 r

/-- Clear every valid row that satisfies a test. -/
def BurrowState.clearAll (t : BurrowState) (p : BurrowRow → Bool) : BurrowState :=
  ((t.live.filter fun x => p x.2).map (·.1)).foldl BurrowState.clear t

/-! Consolidation (R237). -/

/-- The relocation rows, exact or bucket, of a block of `p` whose LSN mask is longer than `p` (R237). -/
def BurrowState.inBlock (t : BurrowState) (p block : Nat) : List Nat :=
  (t.live.filter fun x => x.2.key.toNat / 2 ^ 60 == 1 && decide (32 + p < x.2.care) &&
    x.2.key.toNat % 2 ^ 32 / 2 ^ (32 - p) == block).map (·.1)

/-- The block that consolidation takes: the first p of 20, 16 and 12 that has one, and its lowest block (R237). -/
def BurrowState.block (t : BurrowState) : Option (Nat × Nat) :=
  firstSome (fun p =>
    let blocks := (t.live.filter fun x => x.2.key.toNat / 2 ^ 60 == 1).map fun x => x.2.key.toNat % 2 ^ 32 / 2 ^ (32 - p)
    (least (blocks.filter fun b => decide (8 ≤ (t.inBlock p b).length))).map fun b => (p, b)) [20, 16, 12]

/-- With fewer than 64 rows free, one block becomes one bucket row, inserted before the rows it replaces are deleted; where
no row is free at all, the first of these is deleted first (R237). -/
def BurrowState.consolidate (t : BurrowState) : BurrowState :=
  if 64 ≤ t.freeCount then t
  else
    match t.block with
    | none => t
    | some (p, k) =>
      let counted := t.inBlock p k
      let gone := (t.live.filter fun x => counted.contains x.1).map (·.2)
      let row : BurrowRow := { key := burrowKey 1 0 (k * 2 ^ (32 - p)), mask := burrowMask p, result := burrowResult 2 0 0 }
      let t1 := match t.freeCount, counted with
        | 0, i :: _ => t.clear i
        | _, _ => t
      (t1.place row).clearAll gone.contains

/-- Insert a row (R233). Firmware keeps a row free for it: with at most one left it consolidates first (R237). -/
def BurrowState.insert (t : BurrowState) (r : BurrowRow) : BurrowState :=
  (if t.freeCount ≤ 1 then t.consolidate else t).place r

/-! Access ranges (R222 to R226). -/

/-- The fewest aligned prefixes that cover the LSNs `first` to `first + count - 1`, as first LSN and p; `n` bounds the
steps (R224). -/
def prefixes : Nat → Nat → Nat → List (Nat × Nat)
  | 0, _, _ => []
  | n + 1, first, count =>
    if count = 0 then []
    else
      let size := ((List.range 33).reverse.map fun k => 2 ^ k).find? fun b => decide (b ≤ count) && first % b == 0
      match size with
      | none => []
      | some b => (first, 32 - Nat.log2 b) :: prefixes n (first + b) (count - b)

/-- The access rows of a function's ranges: where an allow and a deny prefix coincide, only the deny row (R224). -/
def accessRows (fn : Nat) (rs : List AccessRange) : List BurrowRow :=
  let mine := rs.filter fun r => r.fn == fn
  let rowOf := fun (deny : Bool) (x : Nat × Nat) =>
    ({ key := burrowKey 2 fn x.1, mask := burrowMask x.2, result := burrowResult (if deny then 0 else 1) 0 0 } : BurrowRow)
  let denies := (((mine.filter (·.deny)).flatMap fun r => prefixes 66 r.first r.count).map (rowOf true)).eraseDups
  let allows := (((mine.filter (!·.deny)).flatMap fun r => prefixes 66 r.first r.count).map (rowOf false)).eraseDups
  denies ++ allows.filter fun a => !denies.any fun d => d.key == a.key && d.mask == a.mask

/-- The access default row of a function: deny while it has an ACCESS_RANGE record of mode 0 (R223, log entry 154). -/
def BurrowState.defaultRow (t : BurrowState) (fn : Nat) : BurrowRow :=
  { key := burrowKey 2 fn 0, mask := burrowMask 0
    result := burrowResult (if t.ranges.any fun r => r.fn == fn && !r.deny then 0 else 1) 0 0 }

/-- Make Burrow hold exactly the access rows of a function's ranges: rows that go are deleted, rows that come are
inserted, and the default row is rewritten (R223, R224). -/
def BurrowState.syncAccess (t : BurrowState) (fn : Nat) : BurrowState :=
  let want := accessRows fn t.ranges
  let isMine := fun r : BurrowRow => r.key.toNat / 2 ^ 58 == 8 + fn && r.care != 32
  let t1 := t.clearAll fun r => isMine r && !want.contains r
  let have1 := t1.live.map (·.2)
  let t2 := (want.filter fun r => !have1.contains r).foldl BurrowState.insert t1
  match t2.live.find? (fun x => x.2.key == burrowKey 2 fn 0 && x.2.care == 32) with
  | some x => t2.write x.1 (t2.defaultRow fn)
  | none => t2.insert (t2.defaultRow fn)

/-- The answer of the firmware walk of the access list for an LSN (R250). -/
def BurrowState.walkAccess (t : BurrowState) (fn lsn : Nat) : Bool :=
  let hits := (accessRows fn t.ranges).filter fun r => r.hits (burrowKey 2 fn lsn)
  match hits.foldl (fun acc r =>
      match acc with
      | none => some r
      | some y => if y.care < r.care then some r else some y) (none : Option BurrowRow) with
  | some r => resultAction r.result == 1
  | none => resultAction (t.defaultRow fn).result == 1

/-- An LSN resolves to ACTION 1 for a function (R226): by Burrow, or by the walk (R250, R255). -/
def State.accessOk (s : State) (fn : FnId) (lsn : Nat) : Bool :=
  let t := s.vmap.burrow
  if t.walks (burrowKey 2 fn.val lsn) then t.walkAccess fn.val lsn
  else
    match t.lookup (burrowKey 2 fn.val lsn) with
    | some r => resultAction r.result == 1
    | none => false

/-- The first refused LSN of a range (R75, R226). -/
def State.firstRefused (s : State) (fn : FnId) (first count : Nat) : Option Nat :=
  ((List.range count).map (first + ·)).find? fun l => !s.accessOk fn l

/-- Change an access range and mirror it in Burrow (R223 to R225): none where the function's rows would pass 128. -/
def BurrowState.setRange (t : BurrowState) (r : AccessRange) : Option BurrowState :=
  let others := t.ranges.filter fun x => !(x.fn == r.fn && x.index == r.index)
  let ranges := if r.count = 0 then others else others ++ [r]
  if 128 < (accessRows r.fn ranges).length then none
  else some (({ t with ranges := ranges }).syncAccess r.fn)

/-! Relocations (R235 to R238, R247). -/

/-- An entry of the relocation list as it lies in DDR5 (R235). -/
def RelocEntry.bytes (e : RelocEntry) : List Byte :=
  Word.toBytesLE 4 e.lsn.toNat ++ Word.toBytesLE 4 e.psa.toNat ++ Word.toBytesLE 4 e.seq.toNat ++ Word.zeros 4

/-- The entry that a RELOCATION record makes (R235, Table 8.4). -/
def relocEntryOf (r : VolRecord) : RelocEntry :=
  { lsn := BitVec.ofNat 32 (Word.fieldLE r.bytes 4 4), psa := BitVec.ofNat 32 (Word.fieldLE r.bytes 8 4)
    seq := BitVec.ofNat 32 (Word.fieldLE r.bytes 12 4) }

/-- The entry of the relocation list for an LSN: the firmware walk. -/
def BurrowState.walk (t : BurrowState) (lsn : Nat) : Option RelocEntry := t.relocs.find? fun e => e.lsn.toNat == lsn

/-- The list holds a copy of an LSN at a place. -/
def BurrowState.entered (t : BurrowState) (lsn : Nat) (psa : Word) : Bool := (t.walk lsn).any fun e => e.psa == psa

/-- The relocation lookup of an LSN (R229, R237, R248, R250, R255): where its authoritative copy lies, when it is relocated. -/
def State.relocation (s : State) (lsn : Nat) : Option RelocEntry :=
  let t := s.vmap.burrow
  if t.walks (burrowKey 1 0 lsn) || s.rd.walked.contains lsn then t.walk lsn
  else
    match t.lookup (burrowKey 1 0 lsn) with
    | none => none
    | some r =>
      match resultAction r.result with
      | 1 => some { lsn := BitVec.ofNat 32 lsn, psa := BitVec.ofNat 32 (resultPsa r.result)
                    seq := BitVec.ofNat 32 (r.result.toNat / 2 ^ 32 % 2 ^ 30) }
      | 2 => t.walk lsn
      | _ => none

/-- Put an entry into the relocation list, rising by LSN; of two of one LSN the higher stripe sequence stays (R32, R235). -/
def putReloc (e : RelocEntry) : List RelocEntry → List RelocEntry
  | [] => [e]
  | x :: xs =>
    if x.lsn < e.lsn then x :: putReloc e xs
    else if x.lsn = e.lsn then (if x.seq ≤ e.seq then e else x) :: xs
    else e :: x :: xs

/-- The relocation list that RELOCATION records give (R32, R213, R253). -/
def relocList (rs : List VolRecord) : List RelocEntry :=
  ((rs.filter fun r => r.rtype == 6).map relocEntryOf).foldl (fun l e => putReloc e l) []

/-- The access list that ACCESS_RANGE records give (R224, R253). -/
def rangeList (rs : List VolRecord) : List AccessRange :=
  (rs.filter fun r => r.rtype == 5).map fun r =>
    { fn := r.key.toNat, index := r.index.toNat, first := Word.fieldLE r.bytes 4 4, count := Word.fieldLE r.bytes 8 4
      deny := Word.fieldLE r.bytes 12 1 == 1 }

/-- The exact row of a list entry (R221, R222). -/
def relocRow (e : RelocEntry) : BurrowRow :=
  { key := burrowKey 1 0 e.lsn.toNat, mask := burrowMask 32, result := burrowResult 1 e.seq.toNat e.psa.toNat }

/-- The list entry first, then the exact row: changed in place where the LSN has one, else inserted (R222, R236). -/
def BurrowState.addReloc (t : BurrowState) (e : RelocEntry) : BurrowState :=
  let t1 := { t with relocs := putReloc e t.relocs }
  let row := relocRow e
  match t1.live.find? (fun x => x.2.key == row.key && x.2.mask == row.mask) with
  | some x => t1.write x.1 row
  | none => t1.insert row

/-- Scurry entries that touch an LSN go (R247, R356). -/
def State.dropScurryLsn (s : State) (lsn : Nat) : State :=
  s.updRd fun r => { r with scurry := s.rd.scurry.filter fun e => e.lsn != lsn }

/-- Enter a relocation (R236 to R238): the list, its RELOCATION record (Table 6.2), then Burrow. A full list sets G to
0 MB/s for the rest of the session. -/
def State.addReloc (s : State) (lsn psa seq : Nat) (r : VolRecord) : State :=
  let t := s.vmap.burrow
  if (t.walk lsn).isNone && decide (Config.relocListMax ≤ t.relocs.length) then
    s.updMnt fun m => { m with relocFull := true }
  else
    let s1 := (s.addRecord r).updBurrow fun b => b.addReloc { lsn := BitVec.ofNat 32 lsn, psa := BitVec.ofNat 32 psa, seq := BitVec.ofNat 32 seq }
    let s2 := if Config.relocListMax ≤ s1.vmap.burrow.relocs.length then s1.updMnt fun m => { m with relocFull := true }
      else s1
    s2.dropScurryLsn lsn

/-- Burrow as MOUNT rebuilds it (R213, R222): the default rows, then the relocations; no access range. Spares, removed
rows and the degraded state stay (R249, R251). With fewer than 64 rows free firmware consolidates (R237). -/
def BurrowState.rebuild (t : BurrowState) (es : List RelocEntry) : BurrowState :=
  let t0 := { t with rows := [], shadow := [], relocs := [], ranges := [], mismatches := [], checked := [], suspects := []
                     urgent := [], badResult := [], rebuilding := [], probe := 0, repeating := false }
  let dflt : BurrowRow := { key := burrowKey 1 0 0, mask := burrowMask 0, result := burrowResult 0 0 0 }
  let t1 := ([dflt] ++ [1, 2, 3].map t0.defaultRow).foldl BurrowState.insert t0
  es.foldl (fun u e => (u.addReloc e).consolidate) t1

/-! Retirement, scrub and consolidation (R237 to R255). -/

/-- The content a physical row should hold, from the shadow (R239). -/
def BurrowState.shadowRow (t : BurrowState) (p : Nat) : BurrowRow :=
  match t.shadow.find? (fun x => x.1 == p) with
  | some x => x.2
  | none => { key := 0, mask := 0, result := 0, valid := false }

/-- Retire a physical row (R244, R245): its content moves to a free spare that takes its logical index; with no spare
left the row leaves service and its content is inserted elsewhere. A spare that serves no row only leaves service (log
entry 155). -/
def State.retireRow (s : State) (p diagnosis : Nat) : State :=
  let t := s.vmap.burrow
  if t.removed.contains p then s
  else
    let s0 := s.log 0x0202 [arg p, arg diagnosis]
    let out := { t with removed := t.removed ++ [p] }
    let used := t.spares.map (·.2)
    if Config.burrowRows ≤ p ∧ used.contains p = false then s0.updBurrow fun _ => out
    else
      let content := t.shadowRow p
      let i := t.logical p
      match ((List.range 64).map (Config.burrowRows + ·)).find? fun x => !used.contains x && !out.removed.contains x with
      | some x =>
        let t1 := { out with spares := (t.spares.filter fun y : Nat × Nat => y.1 != i) ++ [(i, x)] }
        s0.updBurrow fun _ => t1.write i content
      | none =>
        let t1 := { out with exhausted := true }
        let s1 := s0.updBurrow fun _ => if content.valid then t1.insert content else t1
        if t.exhausted then s1 else s1.log 0x0203 [arg p]

/-- The command core and its Burrow run: their domain is powered and released, and the part is not in recovery (R47, R48,
R526). -/
def State.coreOn (s : State) : Bool := s.pwr.domains.getLsbD 4 && !s.quill.recovery

/-- A periodic action whose last one is noted may be made again. -/
def dueAgain (last : Option Time) (every now : Nat) : Bool := last.all fun a => decide (a + every ≤ now)

/-- What the lists hold under the key and mask of a row: the row as they give it, not valid where they give none (R222,
R253). -/
def BurrowState.fromLists (t : BurrowState) (r : BurrowRow) : BurrowRow :=
  let fn := r.key.toNat / 2 ^ 58 % 4
  let lost : BurrowRow := { r with valid := false }
  if r.key.toNat / 2 ^ 60 = 1 then
    match r.care with
    | 64 => ((t.walk (r.key.toNat % 2 ^ 32)).map relocRow).getD lost
    | 32 => { r with result := burrowResult 0 0 0 }
    | _ => { r with result := burrowResult 2 0 0 }
  else if r.care = 32 then t.defaultRow fn
  else ((accessRows fn t.ranges).find? fun x => x.key == r.key && x.mask == r.mask).getD lost

/-- A damaged burst of the shadow is rebuilt from the lists, and its row is left out of read-back meanwhile (R253). -/
def BurrowState.rebuildShadow (t : BurrowState) (p : Nat) : BurrowState :=
  let fixed := match t.rows.find? (fun x => x.1 == p) with
    | some x => if x.2.valid then putRow p (t.fromLists x.2) t.shadow else t.shadow
    | none => t.shadow
  { t with shadow := fixed, rebuilding := if t.rebuilding.contains p then t.rebuilding else t.rebuilding ++ [p] }

/-- Declare the table degraded: R250, R251, R356. -/
def State.degradeBurrow (s : State) (column : Word) : State :=
  if s.vmap.burrow.degraded then s
  else
    let s1 := (s.updBurrow fun t => { t with degraded := true }).log 0x0205 [column]
    s1.updRd fun r => { r with scurry := [], scurryA := false, scurryB := false }

/-- A row has been read back: as its shadow has it, or not (Table 6.6). A row that a probe pass has named and that reads
back right has a broken match line. -/
def State.rowRead (s : State) (p : Nat) (same : Bool) : State :=
  let named := s.vmap.burrow.suspects.contains p
  let s1 := s.updBurrow fun x => { x with
    badResult := x.badResult.filter (· != p), suspects := x.suspects.filter (· != p)
    checked := if same && !x.checked.contains p then x.checked ++ [p] else x.checked }
  if !same then s1.retireRow p 1 else if named then s1.retireRow p 2 else s1

/-- BURROW_READBACK (R240, R241, R243, R248, R255): the next row as it is read back, compared with the shadow; rows asked
for at once come first, the others every 10 µs. A row whose shadow is being rebuilt is left out; the rebuild is over by the
scan's next pass (R253, log entry 30). -/
def execBurrowReadback (t : Time) (key mask : DWord) (valid : Bool) (s : State) : Answer :=
  let s1 := s.at t
  let b := s1.vmap.burrow
  let p := b.urgent.headD b.scanRow
  .next (if !s1.coreOn || (b.urgent.isEmpty && !dueAgain b.readAt 10000 s1.now) then s1
    else
      let s2 := s1.updBurrow fun x =>
        if x.urgent.isEmpty then
          { x with
            scanRow := (x.scanRow + 1) % Config.burrowPhysical
            readAt := some s1.now
            passRead := x.passRead || decide (x.scanRow + 1 = Config.burrowPhysical) }
        else { x with urgent := x.urgent.drop 1 }
      let want := b.shadowRow p
      if b.rebuilding.contains p then s2.updBurrow fun x => { x with rebuilding := x.rebuilding.filter (· != p) }
      else s2.rowRead p (want.valid == valid && (want.key == key && want.mask == mask)))

/-- The keys of a probe pass: of every valid row in index order, then for each key bit a zero key and a zero key with
that bit set (R242). -/
def BurrowState.probeKeys (t : BurrowState) : List DWord :=
  ((t.shadow.filter (·.2.valid)).map (·.2.key)) ++ (List.range 64).flatMap fun j => [0, BitVec.ofNat 64 (2 ^ j)]

/-- The match vector computed from the shadow, with one key bit column read as given where a column is named. -/
def BurrowState.matchRows (t : BurrowState) (k : DWord) (stuck : Option (Nat × Option Bool)) : List Nat :=
  let hit := fun r : BurrowRow =>
    match stuck with
    | none => r.hits k
    | some (j, none) => r.valid && (k ^^^ r.key) &&& r.mask &&& (BitVec.ofNat 64 (2 ^ j)).not == 0
    | some (j, some v) =>
      let m := BitVec.ofNat 64 (2 ^ j)
      r.hits (if v then k ||| m else k &&& m.not)
  (t.shadow.filter fun x => !t.removed.contains x.1 && hit x.2).map (·.1)

/-- The rows in which two match vectors differ. -/
def rowDiff (a b : List Nat) : List Nat := (a.filter fun x => !b.contains x) ++ b.filter fun x => !a.contains x

/-- Two lists hold the same rows. -/
def sameRows (a b : List Nat) : Bool := a.all b.contains && b.all a.contains

/-- The column that explains every mismatch of a pass, if one does: each probe that differed did so exactly as that column,
stuck or open, would make it (Table 6.6, search-line break). -/
def BurrowState.column (t : BurrowState) : Option Nat :=
  (List.range 64).find? fun j =>
    [none, some false, some true].any fun v =>
      t.mismatches.all fun x => sameRows (rowDiff (t.matchRows x.1 none) (t.matchRows x.1 (some (j, v)))) x.2

/-- Act on the mismatches of a finished probe pass (Table 6.6). A row that has not been read back since the pass began is
read back at once, and the pass's verdict waits for that. -/
def State.diagnose (s : State) : State :=
  let t := s.vmap.burrow
  let rows := (t.mismatches.flatMap (·.2)).eraseDups
  let s1 := s.updBurrow fun x => { x with mismatches := [], repeating := false, checked := [] }
  match rows with
  | [] => s1
  | [p] =>
    if 2 ≤ t.mismatches.length then
      if t.checked.contains p then s1.retireRow p 2
      else s1.updBurrow fun x => { x with suspects := x.suspects ++ [p], urgent := x.urgent ++ [p] }
    else if t.repeating then s1.degradeBurrow 0xFFFFFFFF
    else s1.updBurrow fun x => { x with repeating := true }
  | _ =>
    match (if 3 ≤ rows.length then t.column else none) with
    | some j => s1.degradeBurrow (arg j)
    | none =>
      if t.repeating then s1.degradeBurrow 0xFFFFFFFF
      else s1.updBurrow fun x => { x with repeating := true }

/-- BURROW_PROBE (R240, R242, R243): every 50 µs the match vector of the next probe, as physical rows, is compared with the
one computed from the shadow; a pass ends in its diagnosis. With Drey out of service there is no shadow to compare with
(R49, R199). -/
def execBurrowProbe (t : Time) (rows : List Nat) (s : State) : Answer :=
  let s1 := s.at t
  let b := s1.vmap.burrow
  .next (if !s1.coreOn || s1.rcd.drey.outOfService || !dueAgain b.probeAt 50000 s1.now then s1
    else
      let keys := b.probeKeys
      let key := keys.getD b.probe 0
      let diff := rowDiff (b.matchRows key none) rows
      let s2 := s1.updBurrow fun x => { x with
        probeAt := some s1.now, mismatches := if diff.isEmpty then x.mismatches else x.mismatches ++ [(key, diff)] }
      if keys.length ≤ b.probe + 1 then (s2.updBurrow fun x => { x with probe := 0, passProbe := true }).diagnose
      else s2.updBurrow fun x => { x with probe := b.probe + 1 })

/-- BURROW_DELETE (R234): firmware deletes the row at a logical index by clearing its valid bit. -/
def execBurrowDelete (t : Time) (row : Nat) (s : State) : Answer :=
  let s1 := s.at t
  .next (if s1.coreOn then s1.updBurrow fun b => b.clear row else s1)

/-- BURROW_CONSOLIDATE (R237): with fewer than 64 rows free, one block becomes one bucket row. -/
def execBurrowConsolidate (t : Time) (s : State) : Answer :=
  let s1 := s.at t
  .next (if s1.coreOn then s1.updBurrow BurrowState.consolidate else s1)

/-- BURROW_RESULT_PARITY (R255): lookups that end on the row use the walk until it has been read back, which comes at
once. -/
def execBurrowResultParity (t : Time) (row : Nat) (s : State) : Answer :=
  let s1 := s.at t
  .next (if s1.coreOn then s1.updBurrow fun b => { b with
      urgent := if b.urgent.contains row then b.urgent else b.urgent ++ [row]
      badResult := if b.badResult.contains row then b.badResult else b.badResult ++ [row] }
    else s1)

end Sys2Proof.Machine
end

