-- ==== Sys2Proof/Machine/Bridge.lean ====
section
/-! DEFINITION. The crossing bridges between the fabric and the clock islands: their clocks, types, buffers, pointers and
latencies (12_handshake_fabric R451 to R458, R461, R462). -/

namespace Sys2Proof.Machine

/-! Islands (Table 12.3). -/

/-- The bridges of an island (Table 12.3). -/
def islandBridges (i : Island) : List Nat :=
  match i with
  | .afe => List.range 48
  | .writeLane => (List.range 8).map (0x30 + ·)
  | .pcie => (List.range 8).map (0x40 + ·)
  | .ddr5 => (List.range 8).map (0x48 + ·)
  | .slow => (List.range 8).map (0x50 + ·)

/-- The domains an island feeds (Table 12.3). -/
def islandDomains (i : Island) : List Nat :=
  match i with
  | .afe => [7, 8, 9, 10, 11, 16]
  | .writeLane => [12, 13]
  | .pcie => [15]
  | .ddr5 => [14]
  | .slow => [2]

/-- The block clock at which an island's side of a bridge counts its cycles, in kHz, the lowest and the highest: the data
rate over 8 in the DDR5 island (Table 12.3). -/
def islandClock (i : Island) : Nat × Nat :=
  match i with
  | .afe | .writeLane => (375000, 375000)
  | .pcie => (500000, 500000)
  | .ddr5 => (400000, 700000)
  | .slow => (400000, 400000)

/-- The clock of the always-on island in Hz: the crystal of Dormouse (Table 12.3). -/
def alwaysOnClock : Nat := 32768

/-- A bridge number that exists (Table 12.3). -/
def bridgeExists (n : Nat) : Bool := decide (n < 0x38) || within 0x40 0x5B n

/-- The island a bridge joins to the fabric; none is the always-on island (Table 12.3). -/
def bridgeIsland (n : Nat) : Option Island :=
  ([.afe, .writeLane, .pcie, .ddr5, .slow] : List Island).find? fun i => (islandBridges i).contains n

/-- The domain in the fabric that receives from a bridge whose sender cannot be held off (R457, log entry 29): the codec
from the 36 read channels, the Loop Engine's domain from the rest of the AFE island, the command core from the PCIe link. -/
def receivingDomain (n : Nat) : Nat := if n < 36 then 6 else if n < 48 then 7 else 4

/-! Types (Table 12.4). -/

/-- The type of a bridge: each read channel hands data over through a FIFO bridge; the rest are the part's own (R452). -/
def bridgeKind (n : Nat) : BridgeKind :=
  if n < 36 then .fifo
  else
    match (Config.bridgeType n : Fin 3).val with
    | 0 => .fifo
    | 1 => .snapshot
    | _ => .event

/-- Words in the buffer of a type F bridge (Table 12.4). -/
def bridgeDepth (n : Nat) : Nat := if n < 0x38 then 32 else 16

/-- The pointers of a bridge as they cross, Gray-coded, so that one bit changes at a step (Table 12.4). -/
def Bridge.pointers (b : Bridge) : Nat × Nat := (gray b.wr, gray b.rd)

/-- The shortest crossing of each type in cycles of the island clock, where the table gives one, and the longest: cycles, and
tenths of a ns in the fabric (Table 12.5). -/
def crossLatency (k : BridgeKind) (intoIsland : Bool) : Option Nat × (Nat × Nat) :=
  match k, intoIsland with
  | .fifo, true | .event, true => (some 2, (3, 0))
  | .fifo, false => (none, (1, 20))
  | .snapshot, true => (none, (3, 40))
  | .snapshot, false => (none, (4, 20))
  | .event, false => (none, (0, 20))

/-! One bridge. -/

/-- A saturating 32-bit sum (R462). -/
def satAdd (w : Word) (n : Nat) : Word := BitVec.ofNat 32 (min 0xFFFFFFFF (w.toNat + n))

/-- A type F bridge is full: as many words wait as its buffer holds. -/
def Bridge.full (b : Bridge) : Bool := decide (bridgeDepth b.number ≤ b.words.length)

/-- A word is written into a type F bridge: it waits behind those there, a full bridge holds its sender off, and a bridge
that is not armed discards and counts it (R455, R461). -/
def Bridge.write (b : Bridge) (w : Nat) : Bridge :=
  if !b.armed then { b with flushed := satAdd b.flushed 1 }
  else if b.full then b
  else { b with words := b.words ++ [w], wr := (b.wr + 1) % (2 * bridgeDepth b.number) }

/-- The oldest word is read from a type F bridge, once (R455). -/
def Bridge.read (b : Bridge) : Option Nat × Bridge :=
  match b.words with
  | [] => (none, b)
  | w :: ws => (some w, { b with words := ws, rd := (b.rd + 1) % (2 * bridgeDepth b.number) })

/-- A type S request: the whole word as the sender holds it at the capture, or a peer-reset indication (R453, R454, R458,
R461). -/
def Bridge.ask {α : Type} (b : Bridge) (value : α) : Option α := if b.armed then some value else none

/-- A type E event: its line toggles, and a bridge that is not armed loses it and counts it (R453, R461). -/
def Bridge.pulse (b : Bridge) : Bridge :=
  if b.armed then { b with toggle := !b.toggle } else { b with flushed := satAdd b.flushed 1 }

/-- Peer reset flushes a bridge (Table 12.6 step 2): what is in it and in its write path is discarded and counted, and both
pointers will stand at 0 at its re-arming (R463). -/
def Bridge.flush (b : Bridge) (inPath : Nat) : Bridge :=
  { b with words := [], wr := 0, rd := 0, armed := false, flushed := satAdd b.flushed (b.words.length + inPath) }

/-- A bridge is armed while neither of its sides is in reset (R463). -/
def Bridge.arm (b : Bridge) : Bridge := { b with armed := !b.fabricReset && !b.islandReset }

/-- A side of a bridge enters or leaves reset (R459). -/
def Bridge.setReset (b : Bridge) (side : Side) (on : Bool) : Bridge :=
  match side with
  | .fabric => { b with fabricReset := on }
  | .island => { b with islandReset := on }

/-! The bridges of the part. -/

/-- One bridge. -/
def State.bridge (s : State) (n : Nat) : Bridge := (s.bridges.find? fun b => b.number == n).getD { number := n }

/-- Put a bridge into the list, which rises by number. -/
def putBridge (b : Bridge) : List Bridge → List Bridge
  | [] => [b]
  | x :: xs => if x.number < b.number then x :: putBridge b xs else if x.number = b.number then b :: xs else b :: x :: xs

/-- Change one bridge. -/
def State.updBridge (s : State) (n : Nat) (f : Bridge → Bridge) : State :=
  { s with bridges := putBridge (f (s.bridge n)) s.bridges }

/-- A word crosses a type F bridge whose receiver takes it at once (log entry 160). -/
def State.crossWord (s : State) (n w : Nat) : State :=
  s.updBridge n fun b => let c := b.write w; if b.armed then c.read.2 else c

/-- The bridge of a read channel (log entry 29). -/
def chanBridge (h : Head) (b : Beam) : Nat :=
  (match h with
  | .a => 0
  | .b => 18) + b.val

/-- The bridge by which the servo front end hands a slot its samples (log entry 29). -/
def loopBridge (i : LoopId) : Option Nat := if i.val < 10 then some (36 + i.val) else none

end Sys2Proof.Machine
end

