-- ==== Sys2Proof/Machine/Loop.lean ====
section
/-! DEFINITION. The Loop Engine: number format, control law, soft start, supervision, slot states, servo-ready, default
tuning and the coding of the actuator outputs (10_loop_engine, 18_balls_supplies R643). -/

namespace Sys2Proof.Machine

/-! Numbers (R375 to R378). -/

/-- Clamp an integer between two bounds. -/
def clampInt (lo hi v : Int) : Int := max lo (min hi v)

/-- Saturate to the 40-bit accumulator (R375, R376). -/
def sat40 (v : Int) : Int := clampInt (-(2 ^ 39)) (2 ^ 39 - 1) v

/-- A saturating accumulator addition (R376). -/
def accAdd (a b : Int) : Int := sat40 (a + b)

/-- A saturating left shift (R376). -/
def accShl (a : Int) (n : Nat) : Int := sat40 (a * 2 ^ n)

/-- Saturate to 1.15 (R377). -/
def sat16 (v : Int) : Int := clampInt (-32768) 32767 v

/-- Reduce an accumulator value to 1.15, to nearest with ties away from zero (R377). -/
def round15 (a : Int) : Int := if 0 ≤ a then (a + 2 ^ 14) / 2 ^ 15 else -((-a + 2 ^ 14) / 2 ^ 15)

/-- A quotient rounded to nearest with ties away from zero (R381). -/
def divAway (a : Int) (d : Nat) : Int :=
  if 0 ≤ a then (2 * a + d) / (2 * d) else -((2 * -a + d) / (2 * d))

/-- A 1.15 register as an integer. -/
def q (x : Q15) : Int := x.toInt

/-- An integer as a 1.15 register. -/
def toQ (v : Int) : Q15 := BitVec.ofInt 16 v

/-! Configuration (R380, R393). -/

/-- A selector code that exists: the inputs or outputs of slots 0 to 9, or `aux` auxiliary pins from 0x10 (Table 10.4). -/
def selectorOk (code : BitVec 7) (aux : Nat) : Bool :=
  decide (code.toNat ≤ 9) || (decide (16 ≤ code.toNat) && decide (code.toNat < 16 + aux))

/-- A configuration may be taken (R380). -/
def LoopCfg.valid (c : LoopCfg) : Bool :=
  decide (q c.uMin ≤ q c.uMax) && decide (0 ≤ q c.iLim) && decide (c.source.toNat ≤ 3) && selectorOk c.input 8 &&
    selectorOk c.output 4

/-- AF in use: 0 with bit 15 set (R380). -/
def LoopCfg.afEff (c : LoopCfg) : Int := if c.af.getLsbD 15 then 0 else q c.af

/-- OUT_SHIFT in use: at most 8 (R380). -/
def LoopCfg.shift (c : LoopCfg) : Nat := min 8 c.outShift.toNat

/-- I_LIM in accumulator units. -/
def LoopCfg.iMax (c : LoopCfg) : Int := q c.iLim * 2 ^ 15

/-! Reference and soft start (R381 to R383). -/

/-- The first valid sample after IDLE sets the initial state (R381). -/
def LoopSlot.init (k : LoopSlot) (y : Int) : LoopSlot :=
  let c := k.cfg
  { k with
    fresh := false, y0 := y, ePrev := 0, dPrev := 0, rampIdx := 0
    iPrev := clampInt (-c.iMax) c.iMax (q k.out * 2 ^ (15 - c.shift) - q c.ff * 2 ^ 15) }

/-- The reference at the present ramp index (R381). -/
def LoopSlot.reference (k : LoopSlot) : Int :=
  let n := k.cfg.rampLen.toNat
  if n ≤ k.rampIdx then q k.cfg.refTarget
  else k.y0 + divAway ((q k.cfg.refTarget - k.y0) * k.rampIdx) n

/-! The control law (R379). -/

/-- What one computation of the law gives. -/
structure LawResult where
  e : Int
  d : Int
  i : Int
  dI : Int
  uRaw : Int
  u : Int
deriving DecidableEq, Repr

/-- The control law on an error `e` (R379). -/
def LoopSlot.law (k : LoopSlot) (e : Int) : LawResult :=
  let c := k.cfg
  let p := q c.kp * e
  let dI := q c.ki * e
  let d := if c.derivOn then
      sat16 (round15 (accAdd (c.afEff * k.dPrev) (q c.kd * (e - k.ePrev))))
    else 0
  let iTry := clampInt (-c.iMax) c.iMax (accAdd k.iPrev dI)
  let out := fun i : Int => round15 (accShl (accAdd (accAdd p i) ((d + q c.ff) * 2 ^ 15)) c.shift)
  let raw := out iTry
  let wind := (decide (q c.uMax < raw) && decide (0 < dI)) || (decide (raw < q c.uMin) && decide (dI < 0))
  let i := if wind then k.iPrev else iTry
  let raw2 := if wind then out k.iPrev else raw
  { e := e, d := d, i := i, dI := dI, uRaw := raw2, u := clampInt (q c.uMin) (q c.uMax) raw2 }

/-- SUP_COUNT after a valid sample (Table 10.2). -/
def LoopSlot.supervise (k : LoopSlot) (r : LawResult) : Nat :=
  let n := k.supCount.toNat
  match k.cfg.supervision.toNat with
  | 1 => if q k.cfg.supLim < (r.e.natAbs : Int) then n + 1 else 0
  | 2 => if r.uRaw < q k.cfg.uMin ∨ q k.cfg.uMax < r.uRaw then n + 1 else n - 1
  | _ => n

/-- The supervision of a slot trips at a count (Table 10.2); SUP_TIME 0 acts as 1. -/
def LoopSlot.supTrips (k : LoopSlot) (n : Nat) : Bool :=
  (k.cfg.supervision == 1 || k.cfg.supervision == 2) && decide (max 1 k.cfg.supTime.toNat ≤ n)

/-- A tripped slot: its output is the idle value 0 (Table 10.3). -/
def LoopSlot.trip (cause : Nat) (k : LoopSlot) : LoopSlot :=
  { k with mode := .trip, cause := BitVec.ofNat 3 cause, out := 0, inWindow := 0 }

/-- The mode after a valid sample: RAMP ends when the index has reached RAMP_LEN; HOLD goes back (Table 10.3). -/
def LoopSlot.nextMode (k : LoopSlot) (done : Bool) : LoopMode :=
  match k.mode with
  | .ramp => if done then .run else .ramp
  | .hold false => if done then .run else .ramp
  | .hold true => .run
  | m => m

/-- A valid sample of a slot in RAMP, RUN or HOLD (R379, R381, R384): the slot after it, and the cause of a trip.
`trim` is what is added to the reference, `limit` bounds the output. -/
def LoopSlot.sample (k0 : LoopSlot) (y trim limit : Int) : LoopSlot × Option Nat :=
  let k := if k0.fresh then k0.init y else k0
  let r := k.reference
  let e := if k.cfg.refExt then y else sat16 (r + trim - y)
  let w := k.law e
  let u := clampInt (-limit) limit w.u
  let n := k.supervise w
  let done := k.cfg.refExt || decide (k.cfg.rampLen.toNat ≤ k.rampIdx)
  let k1 : LoopSlot := { k with
    iPrev := w.i, dPrev := w.d, ePrev := e, refNow := r, rampIdx := k.rampIdx + (if done then 0 else 1)
    out := toQ u, eLast := toQ e, uLast := toQ u, supCount := BitVec.ofNat 16 n, missedRun := 0, mode := k.nextMode done
    inWindow := if (e.natAbs : Int) ≤ q k.cfg.rdyLim then min 64 (k.inWindow + 1) else 0 }
  if k.supTrips n then (k1.trip (if k.cfg.supervision == 1 then 1 else 2), some (if k.cfg.supervision == 1 then 1 else 2))
  else (k1, none)

/-- A saturating 16-bit count (Table 10.4). -/
def satInc (c : BitVec 16) : BitVec 16 := if c = 0xFFFF then c else c + 1

/-- A missed sample of a slot in RAMP, RUN or HOLD (R384, R385): the ninth in a row trips it. -/
def LoopSlot.miss (k : LoopSlot) : LoopSlot × Option Nat :=
  let hold : LoopMode := match k.mode with
    | .run => .hold true
    | .ramp => .hold false
    | m => m
  let k1 := { k with missed := satInc k.missed, missedRun := k.missedRun + 1, mode := hold }
  if 9 ≤ k1.missedRun then (k1.trip 3, some 3) else (k1, none)

/-- The slot computes samples: it is in RAMP, RUN or HOLD. -/
def LoopSlot.active (k : LoopSlot) : Bool :=
  match k.mode with
  | .ramp | .run | .hold _ => true
  | .idle | .trip => false

/-! Trips (R386 to R389, R402, R437). -/

/-- One slot. -/
def State.slot (s : State) (i : LoopId) : LoopSlot := s.loop.slots[i]

/-- The head whose loop a slot is (Table 10.1). -/
def slotHead (i : LoopId) : Option Head := if i.val < 4 then some .a else if i.val < 8 then some .b else none

/-- Spindle lock-out (R418): gates off, no start due, SPINDLE commands end, and the format rate is 0 while a clip is open
(R422). -/
def State.lockOut (s : State) : State :=
  let s1 := s.gatesOff.updSpin fun p =>
    { p with lockout := true, startDue := false, retryDue := false, restartDue := false, thenStart := none, attempts := 0
             target := 0 }
  (s1.endAll (fun r => r.op == .spindle) .stateConflict s1.stateValue).checkGuarantee

/-- The first trip or stall lies at most 10 s back (R437). -/
def State.dropsAgain (s : State) : Bool :=
  match s.spin.firstTrip with
  | some t => decide (s.now ≤ t + Config.ms 10000)
  | none => false

/-- Slot 8 has tripped or the spindle has stalled: gates off; it restarts once, and a second trip or stall within 10 s
locks it out (R413, R437). SERVO_READY clears for both heads (R402). -/
def State.spindleDrop (s : State) : State :=
  let s0 := (s.gatesOff.clearReady .a).clearReady .b
  let s1 := if s.dropsAgain then s0.lockOut
    else s0.updSpin fun p => { p with firstTrip := some s.now, restartDue := decide (0 < p.target), startDue := false, retryDue := false }
  ((s1.abortSteps (2 ^ 3) fun _ _ => true).stopCalibrate (2 ^ 3)).checkGuarantee

/-- What follows a trip of a slot: the log but for cause 4, and the reactions of its head or the spindle (R388, R402). -/
def State.afterTrip (s : State) (i : LoopId) (cause : Nat) : State :=
  let k := s.slot i
  let s1 := if cause = 4 then s
    else s.log 0x0501 [arg i.val, arg cause, argInt k.eLast.toInt, argInt k.uLast.toInt]
  match slotHead i with
  | some h => s1.clearReady h
  | none => if i = 8 then (s1.updSpin fun p => { p with trips := p.trips + 1 }).spindleDrop else s1

/-- Trip a slot with a cause where it is in RAMP, RUN or HOLD (Table 10.3). -/
def State.tripSlot (s : State) (cause : Nat) (i : LoopId) : State :=
  if (s.slot i).active then (s.updSlot i (LoopSlot.trip cause)).afterTrip i cause else s

/-! Servo-ready (R391, R392). -/

/-- A slot counts as running for R391: RUN, or HOLD from RUN for at most two samples. -/
def LoopSlot.steady (k : LoopSlot) : Bool :=
  match k.mode with
  | .run => true
  | .hold true => decide (k.missedRun ≤ 2)
  | _ => false

/-- The slots of a head by role: focus, tracking, tilt, sled. -/
def slotBase (h : Head) : Nat :=
  match h with
  | .a => 0
  | .b => 4

/-- The slot of a head: 0 focus, 1 tracking, 2 tilt, 3 sled. -/
def headSlot (h : Head) (role : Nat) : LoopId := Fin.ofNat 16 (slotBase h + role)

/-- The conditions of R391 hold. -/
def State.readyHolds (s : State) (h : Head) : Bool :=
  ((List.range 4).all fun r => (s.slot (headSlot h r)).steady) &&
    decide (64 ≤ (s.slot (headSlot h 0)).inWindow) && decide (64 ≤ (s.slot (headSlot h 1)).inWindow) &&
    decide (((s.slot (headSlot h 2)).eLast.toInt.natAbs : Int) ≤ q (s.slot (headSlot h 2)).cfg.rdyLim)

/-- Set SERVO_READY of a head. -/
def State.setReady (s : State) (h : Head) : State :=
  match h with
  | .a => s.updLoop fun e => { e with readyA := true }
  | .b => s.updLoop fun e => { e with readyB := true }

/-- A sample of slot `i` clears SERVO_READY (R392): it is out of its window, missed the third time, or has left RUN. -/
def LoopSlot.clearsReady (k : LoopSlot) (role : Nat) : Bool :=
  (decide (role < 2) && k.missedRun == 0 && k.inWindow == 0) || !k.steady

/-- Follow SERVO_READY after a sample of one of a head's slots (R391, R392). -/
def State.followReady (s : State) (i : LoopId) : State :=
  match slotHead i with
  | none => s
  | some h =>
    if s.servoReady h then (if (s.slot i).clearsReady (i.val % 4) then s.clearReady h else s)
    else if s.readyHolds h then s.setReady h
    else s

/-! The commands. -/

/-- LOOP_OVERRUN is logged at the first overrun in any 1,000 ms (R400). -/
def State.logOverrun (s : State) (i : LoopId) : State :=
  let due := match s.loop.overrunLogged with
    | none => true
    | some t => decide (t + Config.ms 1000 ≤ s.now)
  if due then { s.log 0x0502 [arg i.val] with loop := { s.loop with overrunLogged := some s.now } } else s

/-- SPEED_TRIM as slot 8 finds it: of samples due at the same moment slot 8's is computed before slot 9's, in whichever order
their events come (R371). -/
def State.trimNow (s : State) : Q15 :=
  match s.loop.trimAt with
  | some (t, before) => if t = s.now then before else s.loop.speedTrim
  | none => s.loop.speedTrim

/-- What slot 8 adds to its reference (R383). -/
def State.trimOf (s : State) (i : LoopId) : Int := if i = 8 then q s.trimNow else 0

/-- The bound on a slot's output beyond U_MIN and U_MAX (R374). -/
def outLimit (i : LoopId) : Int := if i = 9 then 147 else 32768

/-- The generator that takes over a slot's output (11_spindle_sled_moves): none but for focus, tracking and tilt. -/
def State.generator (s : State) (i : LoopId) : Option Int :=
  (slotHead i).bind fun h =>
    match i.val % 4 with
    | 0 => some (s.hd h).genFocus
    | 1 => some (s.hd h).genTrack
    | 2 => some (s.hd h).genTilt
    | _ => none

/-- Give a head's generator a value. -/
def State.setGenerator (s : State) (i : LoopId) (v : Int) : State :=
  match slotHead i with
  | none => s
  | some h => s.updHd h fun d =>
    match i.val % 4 with
    | 0 => { d with genFocus := v }
    | 1 => { d with genTrack := v }
    | 2 => { d with genTilt := v }
    | _ => d

/-- Clear a slot's ENABLE: the slot goes IDLE, and the generator of a head loop takes over from U_LAST (Table 10.3). -/
def State.disableSlot (s : State) (i : LoopId) : State :=
  let k := s.slot i
  let s0 := s.updLoop fun e => { e with cleared := (e.cleared.filter fun x => x.1 != i && x.2.1 == s.now) ++ [(i, s.now, k)] }
  let s1 := (if k.active then s0.setGenerator i k.uLast.toInt else s0).updSlot i LoopSlot.disable
  let s2 := if i = 9 then (s1.updLoop fun e => { e with speedTrim := 0 }) else s1
  match slotHead i with
  | some h => if s.servoReady h && k.steady then s2.clearReady h else s2
  | none => s2

/-- Set a slot's ENABLE (Table 10.3, R381, R398): MISSED and OVERRUN clear, TRIP_CAUSE clears. -/
def State.enableSlot (s : State) (i : LoopId) : State :=
  let k := s.slot i
  if k.enable then s
  else if !k.cfg.valid then s.updSlot i fun x => { x with enable := true, cfgErr := true, mode := .idle }
  else
    let mode : LoopMode := if k.cfg.rampLen = 0 ∨ k.cfg.refExt = true then .run else .ramp
    let out := match s.generator i with
      | some v => toQ v
      | none => if i = 9 then s.loop.speedTrim else k.out
    s.updSlot i fun x => { x with enable := true, mode := mode, cause := 0, missed := 0, overrun := 0, fresh := true
                                  events := 0, inWindow := 0, out := out }

/-- Firmware enables a slot again, from whatever state it is in (R389, R398). -/
def State.reEnable (s : State) (i : LoopId) : State :=
  (if (s.slot i).enable then s.updSlot i LoopSlot.disable else s).enableSlot i

/-- Tilt and then tracking follow once the captured focus has stayed within its window for 64 samples (R428). -/
def State.followCapture (s : State) (i : LoopId) : State :=
  match slotHead i with
  | none => s
  | some h =>
    if i.val % 4 = 0 ∧ (s.hd h).closing = true ∧ 64 ≤ (s.slot i).inWindow then
      ((s.updHd h fun d => { d with closing := false }).reEnable (headSlot h 2)).reEnable (headSlot h 1)
    else s

/-- The sled follows its reference (R425, R426): quiet samples count once the profile of a seek has ended; in FOLLOW the
samples are counted, and after the 72 of a revolution the mean tracking drive moves the reference by 2 µm for 1.0. -/
def HeadState.sledSample (d : HeadState) (e : Int) (now : Time) : HeadState :=
  match d.sledMode with
  | .hold => d
  | .seek => { d with quiet := if d.seekAt + d.seekTime ≤ now ∧ e.natAbs < 1024 then min 32 (d.quiet + 1) else 0 }
  | .follow =>
    let n := d.followN + 1
    if n % 72 = 0 ∧ 0 < d.driveSum.2 then
      { d with followN := n, followTrim := d.followTrim + 2000000 * d.driveSum.1 / (32768 * (d.driveSum.2 : Int))
               driveSum := (0, 0) }
    else { d with followN := n }

/-- A tracking sample counts in the mean drive of the revolution (R426). -/
def HeadState.trackSample (d : HeadState) (u : Int) : HeadState :=
  { d with driveSum := (d.driveSum.1 + u, d.driveSum.2 + 1) }

/-- What a valid sample of a head's slot does to its sled's reference (R425, R426). -/
def State.followSled (s : State) (i : LoopId) : State :=
  match slotHead i with
  | none => s
  | some h =>
    if (s.slot i).missedRun ≠ 0 then s
    else if i.val % 4 = 3 then s.updHd h fun d => d.sledSample (s.slot i).eLast.toInt s.now
    else if i.val % 4 = 1 then s.updHd h fun d => d.trackSample (s.slot i).uLast.toInt
    else s

/-- Put back a slot with what its sample did; slot 9's output is SPEED_TRIM (Table 10.4). -/
def State.putSample (s : State) (i : LoopId) (r : LoopSlot × Option Nat) : State :=
  let s1 := s.updSlot i fun _ => r.1
  let s2 := if i = 9 then
      (s1.updLoop fun e => { e with speedTrim := r.1.out, trimAt := some (s.now, s.trimNow) })
    else s1
  match r.2 with
  | some c => s2.afterTrip i c
  | none => ((s2.followSled i).followCapture i).followReady i

/-- What a sample does to a slot (R372, R373, R379, R384, R385): the slot after it, and the cause of a trip. -/
def LoopSlot.take (k : LoopSlot) (sample : LoopSample) (trim limit : Int) : LoopSlot × Option Nat :=
  match sample with
  | .valid y => k.sample (q y) trim limit
  | .invalid => k.miss
  | .overrun => ({ k with overrun := satInc k.overrun }).miss

/-- A sample that falls at the moment at which its slot's ENABLE has been cleared: a trip and its cause are recorded first,
and the slot is IDLE (R387). -/
def State.lastSample (s : State) (i : LoopId) (sample : LoopSample) : State :=
  match s.loop.cleared.find? (fun x => x.1 == i && x.2.1 == s.now && x.2.2.active) with
  | none => s
  | some (_, _, k) =>
    let r := k.take sample (s.trimOf i) (outLimit i)
    match r.2 with
    | none => s
    | some c => (s.updSlot i fun x => { x with cause := BitVec.ofNat 3 c, eLast := r.1.eLast, uLast := r.1.uLast
                                               supCount := r.1.supCount, missedRun := r.1.missedRun }).afterTrip i c

/-- The Loop Engine runs: its domain is powered and released, and the servo front end has its clock (R47, R48, R686). -/
def State.loopOn (s : State) : Bool := s.pwr.domains.getLsbD 7 && !s.pwr.pllLost.contains .afe

/-- The number in which a sample crosses a bridge: its value, or none. -/
def sampleWord : LoopSample → Nat
  | .valid y => 0x10000 + y.toNat
  | .invalid | .overrun => 0

/-- A sample of the servo front end crosses its bridge; one that refuses traffic discards it, which is a missed sample
(R461, Table 12.7). -/
def State.crossSample (s : State) (i : LoopId) (sample : LoopSample) : State × LoopSample :=
  match loopBridge i with
  | none => (s, sample)
  | some n => (s.crossWord n (sampleWord sample), if (s.bridge n).armed then sample else .invalid)

/-- SLOT_SAMPLE (R370 to R373, R379, R384): a source event; the slot samples on every DIV-th one. -/
def execSlotSample (t : Time) (slot : LoopId) (given : LoopSample) (s : State) : Answer :=
  let c := (s.at t).crossSample slot given
  let s1 := c.1
  let sample := c.2
  let k := s1.slot slot
  let n := k.events + 1
  .next (if !s1.loopOn then s.at t
    else if !k.active then s1.lastSample slot sample
    else if n < max 1 k.cfg.div.toNat then s1.updSlot slot fun x => { x with events := n }
    else
      let s2 := if sample = .overrun then s1.logOverrun slot else s1
      s2.putSample slot (({ k with events := 0 }).take sample (s1.trimOf slot) (outLimit slot)))

/-- LOOP_SLOT_ENABLE (R386, R393, R398): a sample is one step, so that ENABLE takes effect between two of them at once (log
entry 158). -/
def execLoopSlotEnable (t : Time) (slot : LoopId) (on : Bool) (s : State) : Answer :=
  let s1 := s.at t
  .next (if !s1.pwr.domains.getLsbD 7 then s1
    else if on then s1.enableSlot slot
    else if (s1.slot slot).enable then s1.disableSlot slot
    else s1)

/-- Take the shadow set into use; a new REF_TARGET starts a new ramp from the present reference (R380, R382, R393). -/
def LoopSlot.apply (k : LoopSlot) : LoopSlot :=
  if !k.shadow.valid then { k with cfgErr := true }
  else
    let ramp := k.active && !k.fresh && k.shadow.refTarget != k.cfg.refTarget
    { k with cfg := k.shadow, y0 := if ramp then k.refNow else k.y0, rampIdx := if ramp then 0 else k.rampIdx }

/-- LOOP_APPLY (R393). -/
def execLoopApply (t : Time) (slot : LoopId) (s : State) : Answer :=
  let s1 := s.at t
  .next (if s1.pwr.domains.getLsbD 7 then s1.updSlot slot LoopSlot.apply else s1)

/-- LOOP_PARITY_ERROR (Table 10.3): cause 6. -/
def execLoopParityError (t : Time) (slot : LoopId) (s : State) : Answer :=
  let s1 := s.at t
  .next (if s1.pwr.domains.getLsbD 7 then s1.tripSlot 6 slot else s1)

/-- SLOT9_FSYNC_TIMEOUT (R390): no FSYNC accepted for 100 ms; the output keeps its last value. -/
def execSlot9FsyncTimeout (t : Time) (s : State) : Answer :=
  let s1 := s.at t
  let due := match s1.sync.lastEdge with
    | none => true
    | some e => decide (e + Config.ms 100 ≤ s1.now)
  .next (if (s1.slot 9).active && due then s1.updSlot 9 fun k => { (k.disable) with out := k.out } else s1)

/-- STOPPED_SOURCE_REPORT (R397): firmware clears ENABLE on the head's focus, tracking and tilt slots. -/
def execStoppedSourceReport (t : Time) (h : Head) (s : State) : Answer :=
  let s1 := s.at t
  .next (if !s1.pwr.domains.getLsbD 7 then s1
    else ([0, 1, 2] : List Nat).foldl (fun u r => u.disableSlot (headSlot h r))
      (s1.updHd h fun d => { d with decoding := false, captured := false }))

/-! Default tuning (R395, R396). -/

/-- The values of Table 10.5 of one slot: KP, KI, KD, AF, OUT_SHIFT, U_MIN, U_MAX, I_LIM, RAMP_LEN, SUP_LIM, SUP_TIME,
RDY_LIM. -/
def tuning (i : LoopId) : List Int :=
  match i.val with
  | 0 | 4 => [12288, 64, 24576, 19661, 3, -32768, 32767, 8192, 256, 0, 64, 3277]
  | 1 | 5 => [10240, 32, 20480, 22938, 3, -32768, 32767, 4096, 128, 19661, 16, 7864]
  | 2 | 6 => [4096, 16, 0, 0, 1, -24576, 24576, 16384, 512, 0, 1, 6554]
  | 3 | 7 => [16384, 8, 28672, 26214, 2, -28672, 28672, 8192, 0, 10240, 65, 0]
  | 8 => [8192, 256, 0, 0, 4, -16384, 32767, 16384, 8000, 0, 800, 0]
  | 9 => [2048, 16, 0, 0, 0, -147, 147, 147, 0, 0, 1, 0]
  | _ => []

/-- SOURCE, DIV and SUPERVISION of one slot (Table 10.1); a sled runs from TIMER while its head does not decode (R423). -/
def slotSource (i : LoopId) : Nat × Nat × Nat :=
  match i.val with
  | 0 => (0, 1, 2)
  | 1 => (0, 1, 1)
  | 2 => (0, 4, 0)
  | 4 => (1, 1, 2)
  | 5 => (1, 1, 1)
  | 6 => (1, 4, 0)
  | 3 | 7 => (2, 20, 1)
  | 8 => (2, 64, 2)
  | _ => (3, 1, 0)

/-- The configuration of a slot with the values `v` of the columns of Table 10.5 (R395). -/
def defaultCfg (i : LoopId) (v : Nat → Int) : LoopCfg :=
  if 9 < i.val then {}
  else
    let src := slotSource i
    { source := BitVec.ofNat 3 src.1, supervision := BitVec.ofNat 2 src.2.2, derivOn := decide (v 2 ≠ 0)
      refExt := i.val == 3 || i.val == 7, outShift := BitVec.ofInt 4 (v 4), input := BitVec.ofNat 7 i.val
      output := BitVec.ofNat 7 i.val, kp := toQ (v 0), ki := toQ (v 1), kd := toQ (v 2), af := toQ (v 3)
      refTarget := if i = 8 then 29491 else 0, ff := 0, uMin := toQ (v 5), uMax := toQ (v 6), iLim := toQ (v 7)
      rampLen := BitVec.ofInt 16 (v 8), supLim := toQ (v 9), supTime := BitVec.ofInt 16 (v 10), rdyLim := toQ (v 11)
      div := BitVec.ofNat 8 src.2.1 }

/-- The nearest multiple of 1/32,768 to (a / 32,768) to the power p / q, at most 32,767 and counted in 1/32,768: each
weight of the list is taken where the value stays within half a step of the power (R396). -/
def powerBits (a p q : Nat) : List Nat → Nat → Nat
  | [], r => r
  | w :: ws, r => powerBits a p q ws (if (2 * (r + w) - 1) ^ q * 32768 ^ p ≤ a ^ p * 65536 ^ q then r + w else r)

/-- AF to the power 10,800 / N, rounded to nearest and saturated (R396). An AF with bit 15 set is taken as 0 (R380). -/
def retunedFilter (af : Q15) (n : Nat) : Q15 :=
  if q af < 0 then 0
  else
    let g := Nat.gcd 10800 n
    BitVec.ofNat 16 (powerBits af.toNat (10800 / g) (n / g)
      [16384, 8192, 4096, 2048, 1024, 512, 256, 128, 64, 32, 16, 8, 4, 2, 1] 0)

/-- The set that firmware loads for a speed of `n` rpm (R396), from the set `d` for 10,800 rpm: KI × 10,800 / N,
KD × N / 10,800, AF to the power 10,800 / N. -/
def retuned (d : LoopCfg) (n : Nat) (c : LoopCfg) : LoopCfg :=
  if n = 10800 ∨ n = 0 then { c with kp := d.kp, ki := d.ki, kd := d.kd, af := d.af }
  else { c with
    kp := d.kp
    ki := toQ (sat16 (divAway (q d.ki * 10800) n))
    kd := toQ (sat16 (divAway (q d.kd * n) 10800))
    af := retunedFilter d.af n }

/-- REF_TARGET of slot 8 for a speed: 12,000 rpm is full scale (Table 10.1, R395). -/
def speedTarget (rpm : Nat) : Q15 := BitVec.ofNat 16 (rpm * 32768 / 12000)

/-- Firmware loads slots 0 to 7 for a speed and applies the set (R396). -/
def State.retune (s : State) (rpm : Nat) : State :=
  (List.range 8).foldl (fun u n =>
    let i : LoopId := Fin.ofNat 16 n
    let d := s.loop.tuned[i]
    u.updSlot i fun k => { k with cfg := retuned d rpm k.cfg, shadow := retuned d rpm k.shadow }) s

/-- Firmware gives slot 8 a new reference and applies it (R382, R414). -/
def State.setSpeedRef (s : State) (rpm : Nat) : State :=
  s.updSlot 8 fun k => ({ k with shadow := { k.shadow with refTarget := speedTarget rpm } }).apply

/-- Firmware loads every slot with the sets it holds (R395). -/
def LoopEngine.loaded (e : LoopEngine) (c : LoopId → LoopCfg) : LoopEngine :=
  { e with slots := Vector.ofFn fun i => { (e.slots[i]) with cfg := c i, shadow := c i }, tuned := Vector.ofFn c }

/-! The pins (R643, R644, R646). -/

/-- What an output selector drives: its slot's output, or the generator of a head loop whose slot is IDLE. -/
def State.driveOf (s : State) (i : LoopId) : Int :=
  let k := s.slot i
  match k.mode, s.generator i with
  | .idle, some v => v
  | _, _ => q k.out

/-- The 14-bit code of an actuator output or AUX_OUT (R643). -/
def dacCode (u : Int) : Nat := ((u + 32768) / 4).toNat

/-- The 1.15 value of an AUX_IN conversion `k` (R646). -/
def auxIn (k : Nat) : Int := 16 * ((min 4095 k : Nat) - 2048 : Int)

/-- ACT_EN of a head (R644): the servo domain runs, Quill's release and firmware's enable are set. -/
def State.actEn (s : State) (h : Head) : Bool :=
  s.pwr.domains.getLsbD 7 && (s.hd h).release && (s.hd h).actEnable && !s.pins.vcoreLow

end Sys2Proof.Machine
end

