-- ==== Sys2Proof/Machine/Crypto.lean ====
section
/-! DEFINITION. The algorithms the spec names by their standards: AES-256 with key wrap and GCM (07_stripe_codec_crypto,
NIST SP 800-38D and 800-38F), SHA-384 and ECDSA P-384 verification (14_quill_secure_start). PRESUMED: the algorithms
themselves are taken from those standards (log entry 14). -/

namespace Sys2Proof.Machine

/-- Doubling in the AES field. -/
def aesDouble (a : Byte) : Byte := (a <<< 1) ^^^ (if a.getLsbD 7 then 0x1B#8 else 0#8)

/-- Product in the AES field by the low `n` bits of `b`. -/
def aesMulAux (a b : Byte) : Nat → Byte
  | 0 => 0#8
  | n + 1 => aesDouble (aesMulAux a (b >>> 1) n) ^^^ (if b.getLsbD 0 then a else 0#8)

/-- Product in the AES field. -/
def aesMul (a b : Byte) : Byte := aesMulAux a b 8

/-- Square in the AES field. -/
def aesSq (a : Byte) : Byte := aesMul a a

/-- The inverse in the AES field, 0 for 0: the 254th power. -/
def aesInv (a : Byte) : Byte :=
  let a2 := aesSq a
  let a4 := aesSq a2
  let a8 := aesSq a4
  let a16 := aesSq a8
  let a32 := aesSq a16
  let a64 := aesSq a32
  aesMul (aesMul (aesMul a2 a4) (aesMul a8 a16)) (aesMul (aesMul a32 a64) (aesSq a64))

/-- The AES S-box. -/
def aesSub (a : Byte) : Byte :=
  let x := aesInv a
  x ^^^ x.rotateLeft 1 ^^^ x.rotateLeft 2 ^^^ x.rotateLeft 3 ^^^ x.rotateLeft 4 ^^^ 0x63#8

/-- The inverse AES S-box. -/
def aesUnsub (a : Byte) : Byte :=
  aesInv (a.rotateLeft 1 ^^^ a.rotateLeft 3 ^^^ a.rotateLeft 6 ^^^ 0x05#8)

/-- XOR of two byte lists. -/
def xorBytes (a b : List Byte) : List Byte := List.zipWith (· ^^^ ·) a b

/-- The words of the AES-256 key schedule after the first eight, newest first; `n` more words are made. -/
def aesExpand : Nat → Nat → Byte → List (List Byte) → List (List Byte)
  | 0, _, _, ws => ws
  | n + 1, i, rc, ws =>
    let p := ws.headD []
    let q := ws.getD 7 []
    let t :=
      if i % 8 = 0 then xorBytes ((p.drop 1 ++ p.take 1).map aesSub) [rc, 0, 0, 0]
      else if i % 8 = 4 then p.map aesSub else p
    aesExpand n (i + 1) (if i % 8 = 0 then aesDouble rc else rc) (xorBytes q t :: ws)

/-- The list cut into pieces of `k`; `n` pieces. -/
def pieces {α : Type} (k : Nat) : Nat → List α → List (List α)
  | 0, _ => []
  | n + 1, l => l.take k :: pieces k n (l.drop k)

/-- The 15 round keys of AES-256. -/
def aesKeys (key : List Byte) : List (List Byte) :=
  let ws := aesExpand 52 8 0x01#8 (pieces 4 8 key).reverse
  pieces 16 15 ws.reverse.flatten

/-- ShiftRows on the 16 bytes of a state, column by column. -/
def aesShift (s : List Byte) : List Byte :=
  (List.range 16).map fun i => s.getD ((i + 4 * (i % 4)) % 16) 0

/-- The inverse of ShiftRows. -/
def aesUnshift (s : List Byte) : List Byte :=
  (List.range 16).map fun i => s.getD ((i + 16 - 4 * (i % 4)) % 16) 0

/-- MixColumns with the first row of its matrix. -/
def aesMix (row : List Byte) (s : List Byte) : List Byte :=
  (List.range 16).map fun i =>
    (List.range 4).foldl (fun acc j => acc ^^^ aesMul (row.getD ((j + 4 - i % 4) % 4) 0) (s.getD (4 * (i / 4) + j) 0)) 0

/-- One AES round for each round key, the last without MixColumns. -/
def aesRounds : List (List Byte) → List Byte → List Byte
  | [], s => s
  | [k], s => xorBytes k (aesShift (s.map aesSub))
  | k :: ks, s => aesRounds ks (xorBytes k (aesMix [2, 3, 1, 1] (aesShift (s.map aesSub))))

/-- AES-256 of one block. -/
def aesEncrypt (key block : List Byte) : List Byte :=
  match aesKeys key with
  | [] => block
  | k :: ks => aesRounds ks (xorBytes k block)

/-- The rounds of AES-256 run backwards, round keys last first. -/
def aesUnrounds : List (List Byte) → List Byte → List Byte
  | [], s => s
  | [k], s => xorBytes k s
  | k :: ks, s => aesUnrounds ks ((aesUnshift (aesMix [14, 11, 13, 9] (xorBytes k s))).map aesUnsub)

/-- The inverse of AES-256 on one block. -/
def aesDecrypt (key block : List Byte) : List Byte :=
  match (aesKeys key).reverse with
  | [] => block
  | k :: ks => aesUnrounds ks ((aesUnshift (xorBytes k block)).map aesUnsub)

/-- A number as `n` big-endian bytes. -/
def bytesBE (n v : Nat) : List Byte := (Word.toBytesLE n v).reverse

/-- The number that big-endian bytes spell. -/
def natBE (bs : List Byte) : Nat := Word.ofBytesLE bs.reverse

/-- The initial value of key wrap (R278). -/
def kwInit : List Byte := List.replicate 8 0xA6

/-- One pass of the wrapping steps over the registers R_i, from step number `t`. -/
def kwPass (key : List Byte) : List (List Byte) → Nat → List Byte → List Byte × List (List Byte)
  | [], _, a => (a, [])
  | r :: rs, t, a =>
    let b := aesEncrypt key (a ++ r)
    let a' := xorBytes (b.take 8) (bytesBE 8 t)
    let rest := kwPass key rs (t + 1) a'
    (rest.1, b.drop 8 :: rest.2)

/-- The six passes of wrapping. -/
def kwPasses (key : List Byte) : Nat → Nat → List Byte × List (List Byte) → List Byte × List (List Byte)
  | 0, _, x => x
  | n + 1, t, x => kwPasses key n (t + x.2.length) (kwPass key x.2 t x.1)

/-- AES key wrap of a key (SP 800-38F KW). -/
def kwWrap (kek key : List Byte) : List Byte :=
  let r := kwPasses kek 6 1 (kwInit, pieces 8 (key.length / 8) key)
  r.1 ++ r.2.flatten

/-- One pass of the unwrapping steps, registers last first, from step number `t` down. -/
def kwUnpass (key : List Byte) : List (List Byte) → Nat → List Byte → List Byte × List (List Byte)
  | [], _, a => (a, [])
  | r :: rs, t, a =>
    let b := aesDecrypt key (xorBytes a (bytesBE 8 t) ++ r)
    let rest := kwUnpass key rs (t - 1) (b.take 8)
    (rest.1, b.drop 8 :: rest.2)

/-- The six passes of unwrapping. -/
def kwUnpasses (key : List Byte) : Nat → Nat → List Byte × List (List Byte) → List Byte × List (List Byte)
  | 0, _, x => x
  | n + 1, t, x => kwUnpasses key n (t - x.2.length) (kwUnpass key x.2 t x.1)

/-- AES key unwrap; none where the integrity check fails (SP 800-38F KW, R279). -/
def kwUnwrap (kek blob : List Byte) : Option (List Byte) :=
  let n := blob.length / 8 - 1
  let r := kwUnpasses kek 6 (6 * n) (blob.take 8, (pieces 8 n (blob.drop 8)).reverse)
  if r.1 = kwInit then some r.2.reverse.flatten else none

/-- One bit of the GHASH product: `z` accumulates, `v` runs. -/
def ghashBits (x : BitVec 128) : Nat → BitVec 128 → BitVec 128 → BitVec 128
  | 0, z, _ => z
  | n + 1, z, v =>
    let z' := if x.getLsbD n then z ^^^ v else z
    let v' := if v.getLsbD 0 then (v >>> 1) ^^^ (0xE1#128 <<< 120) else v >>> 1
    ghashBits x n z' v'

/-- The product of GHASH. -/
def ghashMul (x h : BitVec 128) : BitVec 128 := ghashBits x 128 0 h

/-- GHASH over blocks of 16 bytes; `n` blocks. -/
def ghash (h : BitVec 128) : Nat → List Byte → BitVec 128 → BitVec 128
  | 0, _, y => y
  | n + 1, bs, y => ghash h n (bs.drop 16) (ghashMul (y ^^^ BitVec.ofNat 128 (natBE (bs.take 16))) h)

/-- Zero bytes that fill a list to whole blocks. -/
def padBlock (bs : List Byte) : List Byte := bs ++ Word.zeros ((16 - bs.length % 16) % 16)

/-- The key stream of GCM from counter `c`; `n` blocks. -/
def gcmStream (key iv : List Byte) : Nat → Nat → List Byte
  | 0, _ => []
  | n + 1, c => aesEncrypt key (iv ++ bytesBE 4 c) ++ gcmStream key iv n (c + 1)

/-- GCM encryption or decryption of the text (SP 800-38D). -/
def gcmCrypt (key iv text : List Byte) : List Byte :=
  xorBytes text (gcmStream key iv ((text.length + 15) / 16) 2)

/-- The 128-bit GCM tag over associated data and cipher text. -/
def gcmTag (key iv aad ct : List Byte) : List Byte :=
  let h := BitVec.ofNat 128 (natBE (aesEncrypt key (Word.zeros 16)))
  let bs := padBlock aad ++ padBlock ct ++ bytesBE 8 (8 * aad.length) ++ bytesBE 8 (8 * ct.length)
  xorBytes (bytesBE 16 (ghash h (bs.length / 16) bs 0).toNat) (aesEncrypt key (iv ++ bytesBE 4 1))

/-- SHA-384 round constants 0 to 19 (FIPS 180-4). -/
def shaK0 : List DWord :=
  [0x428A2F98D728AE22, 0x7137449123EF65CD, 0xB5C0FBCFEC4D3B2F, 0xE9B5DBA58189DBBC, 0x3956C25BF348B538,
  0x59F111F1B605D019, 0x923F82A4AF194F9B, 0xAB1C5ED5DA6D8118, 0xD807AA98A3030242, 0x12835B0145706FBE,
  0x243185BE4EE4B28C, 0x550C7DC3D5FFB4E2, 0x72BE5D74F27B896F, 0x80DEB1FE3B1696B1, 0x9BDC06A725C71235,
  0xC19BF174CF692694, 0xE49B69C19EF14AD2, 0xEFBE4786384F25E3, 0x0FC19DC68B8CD5B5, 0x240CA1CC77AC9C65]

/-- SHA-384 round constants 20 to 39 (FIPS 180-4). -/
def shaK1 : List DWord :=
  [0x2DE92C6F592B0275, 0x4A7484AA6EA6E483, 0x5CB0A9DCBD41FBD4, 0x76F988DA831153B5, 0x983E5152EE66DFAB,
  0xA831C66D2DB43210, 0xB00327C898FB213F, 0xBF597FC7BEEF0EE4, 0xC6E00BF33DA88FC2, 0xD5A79147930AA725,
  0x06CA6351E003826F, 0x142929670A0E6E70, 0x27B70A8546D22FFC, 0x2E1B21385C26C926, 0x4D2C6DFC5AC42AED,
  0x53380D139D95B3DF, 0x650A73548BAF63DE, 0x766A0ABB3C77B2A8, 0x81C2C92E47EDAEE6, 0x92722C851482353B]

/-- SHA-384 round constants 40 to 59 (FIPS 180-4). -/
def shaK2 : List DWord :=
  [0xA2BFE8A14CF10364, 0xA81A664BBC423001, 0xC24B8B70D0F89791, 0xC76C51A30654BE30, 0xD192E819D6EF5218,
  0xD69906245565A910, 0xF40E35855771202A, 0x106AA07032BBD1B8, 0x19A4C116B8D2D0C8, 0x1E376C085141AB53,
  0x2748774CDF8EEB99, 0x34B0BCB5E19B48A8, 0x391C0CB3C5C95A63, 0x4ED8AA4AE3418ACB, 0x5B9CCA4F7763E373,
  0x682E6FF3D6B2B8A3, 0x748F82EE5DEFB2FC, 0x78A5636F43172F60, 0x84C87814A1F0AB72, 0x8CC702081A6439EC]

/-- SHA-384 round constants 60 to 79 (FIPS 180-4). -/
def shaK3 : List DWord :=
  [0x90BEFFFA23631E28, 0xA4506CEBDE82BDE9, 0xBEF9A3F7B2C67915, 0xC67178F2E372532B, 0xCA273ECEEA26619C,
  0xD186B8C721C0C207, 0xEADA7DD6CDE0EB1E, 0xF57D4F7FEE6ED178, 0x06F067AA72176FBA, 0x0A637DC5A2C898A6,
  0x113F9804BEF90DAE, 0x1B710B35131C471B, 0x28DB77F523047D84, 0x32CAAB7B40C72493, 0x3C9EBE0A15C9BEBC,
  0x431D67C49C100D4C, 0x4CC5D4BECB3E42B6, 0x597F299CFC657E2A, 0x5FCB6FAB3AD6FAEC, 0x6C44198C4A475817]

/-- SHA-384 round constants. -/
def shaK : List DWord := shaK0 ++ shaK1 ++ shaK2 ++ shaK3

/-- The initial hash value of SHA-384. -/
def shaInit : List DWord :=
  [0xCBBB9D5DC1059ED8, 0x629A292A367CD507, 0x9159015A3070DD17, 0x152FECD8F70E5939, 0x67332667FFC00B31,
  0x8EB44A8768581511, 0xDB0C2E0D64F98FA7, 0x47B5481DBEFA4FA4]

/-- The message schedule, newest word first; `n` more words. -/
def shaExpand : Nat → List DWord → List DWord
  | 0, ws => ws
  | n + 1, ws =>
    let a := ws.getD 1 0
    let b := ws.getD 14 0
    let s1 := a.rotateRight 19 ^^^ a.rotateRight 61 ^^^ (a >>> 6)
    let s0 := b.rotateRight 1 ^^^ b.rotateRight 8 ^^^ (b >>> 7)
    shaExpand n ((s1 + ws.getD 6 0 + s0 + ws.getD 15 0) :: ws)

/-- One round of SHA-512's compression. -/
def shaRound (v : List DWord) (kw : DWord) : List DWord :=
  let a := v.getD 0 0
  let b := v.getD 1 0
  let c := v.getD 2 0
  let e := v.getD 4 0
  let f := v.getD 5 0
  let g := v.getD 6 0
  let s1 := e.rotateRight 14 ^^^ e.rotateRight 18 ^^^ e.rotateRight 41
  let ch := (e &&& f) ^^^ (~~~e &&& g)
  let t1 := v.getD 7 0 + s1 + ch + kw
  let s0 := a.rotateRight 28 ^^^ a.rotateRight 34 ^^^ a.rotateRight 39
  let mj := (a &&& b) ^^^ (a &&& c) ^^^ (b &&& c)
  [t1 + s0 + mj, a, b, c, v.getD 3 0 + t1, e, f, g]

/-- The hash of whole blocks of 128 bytes; `n` blocks. -/
def shaBlocks : Nat → List Byte → List DWord → List DWord
  | 0, _, h => h
  | n + 1, bs, h =>
    let ws := (pieces 8 16 bs).map fun p => BitVec.ofNat 64 (natBE p)
    let sched := (shaExpand 64 ws.reverse).reverse
    let v := (List.zipWith (· + ·) sched shaK).foldl shaRound h
    shaBlocks n (bs.drop 128) (List.zipWith (· + ·) h v)

/-- SHA-384 (FIPS 180-4). -/
def sha384 (m : List Byte) : List Byte :=
  let z := (239 - m.length % 128) % 128
  let bs := m ++ [0x80] ++ Word.zeros z ++ bytesBE 16 (8 * m.length)
  ((shaBlocks (bs.length / 128) bs shaInit).take 6).flatMap fun w => bytesBE 8 w.toNat

/-- The prime of P-384. -/
def p384 : Nat := 2 ^ 384 - 2 ^ 128 - 2 ^ 96 + 2 ^ 32 - 1

/-- The order of P-384. -/
def n384 : Nat :=
  0xFFFFFFFFFFFFFFFFFFFFFFFFFFFFFFFFFFFFFFFFFFFFFFFFC7634D81F4372DDF581A0DB248B0A77AECEC196ACCC52973

/-- The coefficient b of P-384. -/
def b384 : Nat :=
  0xB3312FA7E23EE7E4988E056BE3F82D19181D9C6EFE8141120314088F5013875AC656398D8A2ED19D2A85C8EDD3EC2AEF

/-- The base point of P-384. -/
def g384 : Nat × Nat :=
  (0xAA87CA22BE8B05378EB1C71EF320AD746E1D3B628BA79B9859F741E082542A385502F25DBF55296C3A545E3872760AB7,
   0x3617DE4A96262C6F5D9E98BF9292DC29F8F41DBD289A147CE9DA3113B5F0B8C00A60B1CE1D7E819D7A431D7C90EA0E5F)

/-- A power modulo `m`, by the low `n` bits of the exponent. -/
def powMod (m : Nat) : Nat → Nat → Nat → Nat
  | 0, _, _ => 1 % m
  | n + 1, a, e =>
    let h := powMod m n (a * a % m) (e / 2)
    if e % 2 = 1 then a * h % m else h

/-- The inverse modulo a prime of at most 384 bits. -/
def invMod (m a : Nat) : Nat := powMod m 384 a (m - 2)

/-- The sum of two points of P-384; none is the point at infinity. -/
def ecAdd (p q : Option (Nat × Nat)) : Option (Nat × Nat) :=
  match p, q with
  | none, _ => q
  | _, none => p
  | some (x1, y1), some (x2, y2) =>
    if x1 = x2 ∧ (y1 + y2) % p384 = 0 then none
    else
      let l :=
        if x1 = x2 then (3 * x1 * x1 + 3 * (p384 - 1)) * invMod p384 (2 * y1 % p384) % p384
        else (y2 + p384 - y1) * invMod p384 ((x2 + p384 - x1) % p384) % p384
      let x3 := (l * l + 2 * p384 - x1 - x2) % p384
      some (x3, (l * (x1 + p384 - x3) + p384 - y1) % p384)

/-- The multiple of a point by the low `n` bits of `k`. -/
def ecMul : Nat → Nat → Option (Nat × Nat) → Option (Nat × Nat)
  | 0, _, _ => none
  | n + 1, k, p =>
    let h := ecMul n (k / 2) (ecAdd p p)
    if k % 2 = 1 then ecAdd p h else h

/-- A public key as it is laid out: byte 0x04, then X, then Y, each a little-endian 48-byte integer (R4, R508). -/
def publicKeyBytes (p : Nat × Nat) : List Byte := [0x04] ++ Word.toBytesLE 48 p.1 ++ Word.toBytesLE 48 p.2

/-- A signature as it is laid out: r, then s, each a little-endian 48-byte integer (R4, R508). -/
def signatureBytes (r s : Nat) : List Byte := Word.toBytesLE 48 r ++ Word.toBytesLE 48 s

/-- ECDSA P-384 verification of a SHA-384 digest (FIPS 186-5), with a key and a signature laid out as R508 says. -/
def ecdsaVerify (key digest sig : List Byte) : Bool :=
  let r := Word.fieldLE sig 0 48
  let s := Word.fieldLE sig 48 48
  let x := Word.fieldLE key 1 48
  let y := Word.fieldLE key 49 48
  let onCurve := key.length == 97 && key.head? == some 0x04 && decide (x < p384) && decide (y < p384) && (y * y % p384 == (x * x * x + (p384 - 3) * x + b384) % p384)
  let inRange := decide (0 < r) && decide (r < n384) && decide (0 < s) && decide (s < n384)
  let w := invMod n384 s
  let e := natBE digest
  match ecAdd (ecMul 384 (e * w % n384) (some g384)) (ecMul 384 (r * w % n384) (some (x, y))) with
  | none => false
  | some q => onCurve && inRange && (q.1 % n384 == r)

/-- An ECDSA P-384 signature of a digest under the private key `d`, with the secret number `k` (FIPS 186-5). -/
def ecdsaSign (d k : Nat) (digest : List Byte) : List Byte :=
  let r := ((ecMul 384 k (some g384)).getD (0, 0)).1 % n384
  signatureBytes r (invMod n384 k * (natBE digest + r * d) % n384)

/-- HMAC with SHA-384 (FIPS 198-1). -/
def hmacSha384 (key msg : List Byte) : List Byte :=
  let k := if 128 < key.length then sha384 key else key
  let block := k ++ Word.zeros (128 - k.length)
  sha384 (block.map (· ^^^ 0x5C) ++ sha384 (block.map (· ^^^ 0x36) ++ msg))

/-- The first `n` bytes of the KDF in counter mode over HMAC-SHA-384 (NIST SP 800-108), with counter and length of 32 bits
each, most significant byte first (log entry 14). -/
def kdfCounter (key label context : List Byte) (n : Nat) : List Byte :=
  (((List.range ((n + 47) / 48)).map fun i =>
    hmacSha384 key (bytesBE 4 (i + 1) ++ label ++ [0x00] ++ context ++ bytesBE 4 (8 * n))).flatten).take n

/-- The label of the identity key: "T36 IDENTITY" (R503). -/
def identityLabel : List Byte := [0x54, 0x33, 0x36, 0x20, 0x49, 0x44, 0x45, 0x4E, 0x54, 0x49, 0x54, 0x59]

/-- The identity private key d of a device seed (R503). -/
def identityPrivate (seed : List Byte) : Nat := natBE (kdfCounter seed identityLabel [] 56) % (n384 - 1) + 1

/-- The identity public key of a device seed (R503, Table 14.5). -/
def identityPublic (seed : List Byte) : List Byte :=
  publicKeyBytes ((ecMul 384 (identityPrivate seed) (some g384)).getD (0, 0))

/-! The generator: CTR_DRBG with AES-256 (R504, NIST SP 800-90A). -/

/-- The state of the generator: its key and its counter block V. -/
abbrev Drbg := List Byte × List Byte

/-- V one further, modulo 2^128. -/
def drbgNext (v : List Byte) : List Byte := bytesBE 16 ((natBE v + 1) % 2 ^ 128)

/-- `n` output blocks and the V they leave. -/
def drbgBlocks (key : List Byte) : Nat → List Byte → List Byte × List Byte
  | 0, v => ([], v)
  | n + 1, v =>
    let v1 := drbgNext v
    let r := drbgBlocks key n v1
    (aesEncrypt key v1 ++ r.1, r.2)

/-- CTR_DRBG_Update with 48 bytes of provided data. -/
def Drbg.update (g : Drbg) (data : List Byte) : Drbg :=
  let x := xorBytes (drbgBlocks g.1 3 g.2).1 data
  (x.take 32, (x.drop 32).take 16)

/-- The generator as 48 bytes of entropy seed it, without derivation function (log entry 14). -/
def Drbg.seeded (entropy : List Byte) : Drbg := Drbg.update (Word.zeros 32, Word.zeros 16) entropy

/-- One request for `n` bytes: the bytes, and the generator after it. -/
def Drbg.generate (g : Drbg) (n : Nat) : List Byte × Drbg :=
  let r := drbgBlocks g.1 ((n + 15) / 16) g.2
  (r.1.take n, Drbg.update (g.1, r.2) (Word.zeros 48))

end Sys2Proof.Machine
end

