-- ==== Sys2Proof/Machine/Lanes.lean ====
section
/-! DEFINITION. The operations of the write lanes and the stripe codec: groups and positions, encoding and placing
sectors, verify verdicts, relocation, retirement and system sectors (01_hendun_medium, 02_frame_path,
07_stripe_codec_crypto, 08_write_lanes). -/

namespace Sys2Proof.Machine

/-- Inbound bytes of F0 are counted against the budget of the window, and by F0's weight beyond it (R92). -/
def Arbiter.spend (a : Arbiter) (n : Nat) : Arbiter :=
  { a with budget := a.budget - n, beyond := a.beyond + (n - a.budget) }

/-- Bytes of a frame have arrived in the inbound direction (R92). -/
def State.spendInbound (s : State) (n : Nat) : State := s.updHost fun h => { h with arb := h.arb.spend n }

/-! Groups and positions. -/

/-- The stripes of the group in progress on a head, in member order. -/
def State.groupStripes (s : State) (h : Head) : List Stripe :=
  match (s.wh h).open3 with
  | none => []
  | some (a, b, c) => [a, b, c].filterMap fun q => s.rcd.stripes.find? fun st => st.seq == q

/-- The single retired beam that a new group's shape leaves out (R21, R42). -/
def State.shapeDead (s : State) (h : Head) : Option Beam :=
  match s.retiredBeams h with
  | [b] => some b
  | _ => none

/-- The zone a head writes in. -/
def State.zoneNow (s : State) (h : Head) : Nat := zoneOf h (s.wh h).layer (s.wh h).swept

/-- A STRIPE record (Table 6.7): the sequence, the PSA of order index 0, the head and the live beams. -/
def stripeRecord (st : Stripe) : VolRecord :=
  mkRecord 9 st.seq 0 (le 4 st.seq ++
    le 4 (psaOf st.head st.layer st.zone st.group st.member (beamOfRank st.dead 0) 0).toNat ++
    [BitVec.ofNat 8 (Head.num st.head), BitVec.ofNat 8 st.live, 0, 0])

/-- The head may begin a group now: it takes stripes, has no group in progress, and is not at the layer end. -/
def State.canOpen (s : State) (h : Head) : Bool :=
  s.mountedRW && s.takesStripes h && (s.wh h).open3.isNone && !(s.wh h).atEnd && !s.rcd.stopped

/-- The beam of an order index. -/
def beamAt (dead : Option Beam) (i : Nat) : Beam := beamOfRank dead (i % liveOf dead)

/-- The stripe position of an order index. -/
def kAt (dead : Option Beam) (i : Nat) : Nat := i / liveOf dead

/-- Data position `i` of a stripe of the open group is free: its slot has not begun, its beam writes, no sector is encoded
for it and none was lost there (R66), and the stripe counts for R56 (R201, R311). -/
def State.posFree (s : State) (h : Head) (st : Stripe) (i : Nat) : Bool :=
  let b := beamAt st.dead i
  decide ((s.wh h).slot ≤ slotOf st.member (kAt st.dead i) b) && !(s.beam h b).retired && !st.void &&
    !(s.wh h).lost.contains (st.seq, i) && !(s.wh h).sectors.any fun y => y.seq == st.seq && y.index == i

/-- The first free data position of the open group that avoids some beams: in stream order, member 0 first (R28, R307). -/
def State.nextPos (s : State) (h : Head) (avoid : List Beam) : Option (Stripe × Nat) :=
  firstSome (fun st => ((List.range (dataOf st.dead)).find? fun i =>
    s.posFree h st i && !avoid.contains (beamAt st.dead i)).map fun i => (st, i)) (s.groupStripes h)

/-- The slot of its group in which a sector is written (R19). -/
def Sector.slot (x : Sector) : Nat := slotOf x.member x.pos x.beam

/-- The encoded sectors that slot staging holds for a head: those of the slot whose verdicts are awaited, and those of the
slot that begins next, two slot times deep (R54, R60, Table 2.3, log entry 69). -/
def State.staging (s : State) (h : Head) : List Sector :=
  (s.wh h).sectors.filter fun x => x.inFlight || x.slot == (s.wh h).slot

/-- Change one stripe. -/
def State.updStripe (s : State) (seq : Nat) (f : Stripe → Stripe) : State :=
  s.updRcd fun r => { r with stripes := r.stripes.map fun st => if st.seq = seq then f st else st }

/-! Encoding (R256, R264, R268, R269). -/

/-- The Type of a sector (Table 1.6). -/
def SectorKind.type (k : SectorKind) : Byte :=
  match k with
  | .data _ _ => 0x01
  | .copy _ _ _ _ => 0x02
  | .parity => 0x03
  | .pad => 0x04
  | .system _ => 0x05
  | .sessionStart _ => 0x05
  | .aux _ => 0x06

/-- Encrypted sectors: data, relocated copies, system and AUX data sectors but the session start sector (R268, R704). -/
def SectorKind.encrypted (k : SectorKind) : Bool :=
  match k with
  | .data _ _ | .copy _ _ _ _ | .system _ | .aux _ => true
  | .parity | .pad | .sessionStart _ => false

/-- The sector is a data sector or a relocated copy of one. -/
def SectorKind.isData (k : SectorKind) : Bool :=
  match k with
  | .data _ _ | .copy _ _ _ _ => true
  | .parity | .pad | .system _ | .sessionStart _ | .aux _ => false

/-- At most 8,192 assigned counter values lie above the committed value (R272). -/
def State.counterRoom (s : State) : Bool :=
  match s.mnt.committed with
  | some c => decide (s.mnt.counter < c + 8192)
  | none => decide (s.mnt.counter < 8192)

/-- Encode a sector for a position of a stripe and stage it (R256, R268, R269): header, nonce, ciphertext and tag; it
joins its stripe's parity and takes a data slot. -/
def State.stage (s : State) (h : Head) (st : Stripe) (i : Nat) (kind : SectorKind) (lsn : Nat) (text : List Byte) : State :=
  let b := beamAt st.dead i
  let k := kAt st.dead i
  let psa := psaOf h st.layer st.zone st.group st.member b k
  let enc := kind.encrypted
  let nonce :=
    match kind with
    | .sessionStart _ => nonceOf s.mnt.session 0xFFFFFFFFFFFFFFFF
    | _ => nonceOf s.mnt.session s.mnt.counter
  let key := s.mnt.mediaKey.getD []
  let aad := (headerOf lsn psa.toNat st.seq kind.type nonce (Word.zeros 16)).take 16
  let ct := if enc then gcmCrypt key nonce text else text
  let tag := if enc then gcmTag key nonce aad ct else Word.zeros 16
  let hdr := headerOf lsn psa.toNat st.seq kind.type nonce tag
  let x : Sector := { kind := kind, head := h, layer := st.layer, zone := st.zone, group := st.group, member := st.member
                      beam := b, pos := k, index := i, psa := psa, lsn := lsn, seq := st.seq, counter := s.mnt.counter
                      header := hdr, payload := ct }
  let s1 := s.updMnt fun m => { m with counter := if enc then m.counter + 1 else m.counter, usedSlots := m.usedSlots + 1 }
  let s2 := s1.updWh h fun w => { w with sectors := w.sectors ++ [x] }
  s2.updStripe st.seq fun y => { y with
    parts := putPart i hdr ct y.parts
    lsns := if kind.isData then y.lsns ++ [lsn] else y.lsns
    maxCounter := if enc then max y.maxCounter s.mnt.counter else y.maxCounter }
where
  /-- Fold a sector into the parity accumulator's record of its stripe, by order index. -/
  putPart (i : Nat) (hdr ct : List Byte) (l : List (Nat × List Byte × List Byte)) : List (Nat × List Byte × List Byte) :=
    (l.filter fun x => x.1 != i) ++ [(i, hdr, ct)]

/-- One column of a stripe's data positions: byte `j` of what each position holds, 0 for a pad (R263, R264). -/
def Stripe.column (st : Stripe) (f : List Byte → List Byte → List Byte) (j : Nat) : List Byte :=
  (List.range (dataOf st.dead)).map fun i =>
    match st.parts.find? (fun x => x.1 == i) with
    | some x => (f x.2.1 x.2.2).getD j 0
    | none => 0

/-- The parity sector of parity number `p`, 0 to 23 (R262 to R264). -/
def Stripe.paritySector (st : Stripe) (p : Nat) (psa : Word) : List Byte × List Byte :=
  let sym := fun (f : List Byte → List Byte → List Byte) (j : Nat) => (outerCheck (st.column f j)).getD p 0
  let hb := (List.range 28).map (sym fun h _ => h.drop 16)
  (headerOf 0xFFFFFFFF psa.toNat st.seq 0x03 (hb.take 12) (hb.drop 12), (List.range 32768).map (sym fun _ x => x))

/-! Relocation (R306 to R309, R320). -/

/-- The failed placements of an LSN. -/
def State.failedAt (s : State) (lsn : Nat) : List Word :=
  match s.mnt.placements.find? (fun x => x.1 == lsn) with
  | some x => x.2
  | none => []

/-- Note a failed placement; with the fourth the format rate falls to 0 and RELOCATION_FAILED is logged (R320). -/
def State.noteFailure (s : State) (lsn : Nat) (psa : Word) : State :=
  let l := s.failedAt lsn ++ [psa]
  let s1 := s.updMnt fun m => { m with placements := (m.placements.filter fun x => x.1 != lsn) ++ [(lsn, l)] }
  if l.length = 4 then
    ((s1.updMnt fun m => { m with relocFailed := true }).log 0x0302 (arg lsn :: l)).checkGuarantee
  else s1

/-- Relocate a data sector: a copy waits for the earliest group of the head of which no slot has been staged (R306). -/
def State.relocate (s : State) (x : Sector) (cause : Nat) : State :=
  let go := fun (clip : Word) (frame : Nat) =>
    let s1 := (s.noteFailure x.lsn x.psa).updBeam x.head x.beam fun b => { b with relocations := b.relocations + 1 }
    if (s.wh x.head).relocs.any fun r => r.lsn == x.lsn then s1
    else s1.updWh x.head fun w => { w with relocs := w.relocs ++
      [{ lsn := x.lsn, clip := clip, frame := frame, cause := cause, failed := x.psa }] }
  match x.kind with
  | .data c f => go c f
  | .copy c f _ _ => go c f
  | _ => s

/-- Write a system, AUX or session start sector again, on its own head, or on the other where its own takes no stripes
(R312, R704). -/
def State.rewrite (s : State) (h : Head) (kind : SectorKind) (text : List Byte) : State :=
  let g := if s.takesStripes h || !s.takesStripes (Head.other h) then h else Head.other h
  s.updWh g fun w => { w with rewrites := w.rewrites ++ [(kind, text)] }

/-- The plaintext of a staged sector. -/
def State.plainOf (s : State) (x : Sector) : List Byte :=
  if x.kind.encrypted then gcmCrypt (s.mnt.mediaKey.getD []) ((x.header.drop 16).take 12) x.payload else x.payload

/-- A stripe holds none of its data sectors for R56: each is relocated (R201, R311). -/
def State.voidStripe (s : State) (seq cause : Nat) : State :=
  match s.rcd.stripes.find? (fun st => st.seq == seq) with
  | none => s
  | some st =>
    if st.void then s
    else
      let s1 := s.updStripe seq fun y => { y with void := true }
      let moved := st.parts.filterMap fun p =>
        let lsn := Word.fieldLE p.2.1 0 4
        if st.lsns.contains lsn then
          (s.frameOfLsn lsn).map fun f =>
            ({ kind := .data f.1.clip f.1.number, head := st.head, layer := st.layer, zone := st.zone, group := st.group
               member := st.member, beam := beamAt st.dead p.1, pos := kAt st.dead p.1, index := p.1
               psa := psaOf st.head st.layer st.zone st.group st.member (beamAt st.dead p.1) (kAt st.dead p.1)
               lsn := lsn, seq := seq, counter := 0, header := p.2.1, payload := [] } : Sector)
        else none
      (moved.foldl (fun u x => u.relocate x cause) s1).updRcd fun r => { r with
        passed := r.passed.filter fun p => p.2 != seq }

/-- A sector does not pass: what follows for its kind (R305, R306, R311, R312). -/
def State.failSector (s : State) (x : Sector) (cause : Nat) : State :=
  match x.kind with
  | .data _ _ | .copy _ _ _ _ => s.relocate x cause
  | .parity => s.voidStripe x.seq 3
  | .pad => s
  | .system _ | .sessionStart _ | .aux _ => s.rewrite x.head x.kind (s.plainOf x)

/-- The stripes of a head that are not finished and count a beam among their live beams with parity not yet passed
there (R323). -/
def State.beamParity (s : State) (h : Head) (b : Beam) : List Nat :=
  (s.rcd.stripes.filter fun st => st.head == h && !st.void && !st.finished && st.dead != some b &&
    ([10, 11].any fun k =>
      let i := orderIndex st.dead k b
      decide (dataOf st.dead ≤ i) && !st.parityPassed.contains i)).map (·.seq)

/-- Retire a beam (R322 to R324): its bit, BEAM_RETIRED, the log; its unverified data sectors are relocated with cause
2, its parity is handled as failed; during a power failure it relocates nothing (R596). -/
def State.retireBeam (s : State) (h : Head) (b : Beam) (trigger : Nat) : State :=
  if (s.beam h b).retired then s
  else
    let s1 := ((s.updBeam h b fun u => { u with retired := true, trigger := trigger }).raise evBeamRetired).log 0x0301
      [arg (beamIndex h b), arg trigger]
    let mine := (s1.wh h).sectors.filter fun x => x.beam == b
    let s2 := s1.updWh h fun w => { w with sectors := w.sectors.filter fun x => x.beam != b }
    if s2.pwr.pfStep = 4 then s2.checkGuarantee
    else
      let s3 := mine.foldl (fun u x => if x.kind == .parity then u else u.failSector x 2) s2
      ((s3.beamParity h b).foldl (fun u q => u.voidStripe q 3) s3).checkGuarantee

/-- Retire the beams whose calibration is not valid for R50 while a magazine is mounted read-write (R322, R541). -/
def State.retireInvalid (s : State) : State :=
  if !s.mountedRW then s
  else bothHeads.foldl (fun u h => allBeams.foldl (fun v b =>
    if v.valid50 h b then v else v.retireBeam h b 3) u) s

/-! System sectors (R210 to R212, R587). -/

/-- Records that wait for a sector. -/
def State.unpacked (s : State) : List QueuedRecord := s.rcd.records.filter fun r => !r.packed

/-- Take the records that go into the next system sector, in order: none spans two sectors (R210). -/
def fillSector : List VolRecord → Nat → List VolRecord
  | [], _ => []
  | r :: rs, left => if r.bytes.length ≤ left then r :: fillSector rs (left - r.bytes.length) else []

/-- Bytes padded with zeros to one sector. -/
def sectorPad (bs : List Byte) : List Byte := bs ++ Word.zeros (32768 - bs.length)

/-- The first `n` unpacked records of a queue lie in the sectors named (R210, R212). -/
def packFirst (nos : List Nat) : List QueuedRecord → Nat → List QueuedRecord
  | [], _ => []
  | q :: qs, n =>
    if q.packed then q :: packFirst nos qs n
    else
      match n with
      | 0 => q :: qs
      | k + 1 => { q with packed := true, left := nos } :: packFirst nos qs k

/-- Name the sectors that hold the first unpacked records, `rs`, of the queue; an opening record among them is safe once
the last of these sectors has passed (R56). -/
def State.nameSector (s : State) (rs : List VolRecord) (nos : List Nat) : State :=
  let g := fun o : Word × Option Nat =>
    if o.2.isNone && rs.any (fun r => r.rtype == 2 && r.key == o.1) then (o.1, nos.getLast?) else o
  s.updRcd fun p => { p with records := packFirst nos p.records rs.length, opened := p.opened.map g }

/-- Pack the records at the front of the queue: the system sectors they take, in order, as number and payload. A
record longer than a sector begins a sector of its own and continues in those that follow (R210, R211). -/
def State.packFront (s : State) : List (Nat × List Byte) × State :=
  match s.unpacked with
  | [] => ([], s)
  | q :: _ =>
    let n := q.vol.bytes.length
    let no := s.mnt.nextSys
    if 32768 < n then
      let k := (n + 32767) / 32768
      let parts := (pieces 32768 k q.vol.bytes).map sectorPad
      (List.zip ((List.range k).map (no + ·)) parts,
        (s.updMnt fun m => { m with nextSys := no + k }).nameSector [q.vol] ((List.range k).map (no + ·)))
    else
      let rs := fillSector (s.unpacked.map (·.vol)) 32768
      ([(no, sectorPad (rs.flatMap (·.bytes)))], (s.updMnt fun m => { m with nextSys := no + 1 }).nameSector rs [no])

/-- Pack every queued record; `n` bounds the sectors. -/
def State.packAll (s : State) : Nat → List (Nat × List Byte) × State
  | 0 => ([], s)
  | n + 1 =>
    if s.unpacked.isEmpty then ([], s)
    else
      let p := s.packFront
      let q := p.2.packAll n
      (p.1 ++ q.1, q.2)

/-- A system sector is due: a clip has opened or closed, or the next record would not fit (R210). -/
def State.sectorDue (s : State) : Bool :=
  s.unpacked.any (fun q => q.vol.rtype == 2 || q.vol.rtype == 3 || q.vol.rtype == 8) ||
    decide (32768 < ((s.unpacked.map fun q => q.vol.bytes.length).sum))

/-- Queue system sectors on a head. -/
def State.pushSystem (s : State) (h : Head) (l : List (Nat × List Byte)) : State :=
  l.foldl (fun u x => u.rewrite h (.system x.1) x.2) s

/-- A head's SESSION_SEAL record (R587, Table 16.4). -/
def State.sealRecord (s : State) (h : Head) (reason dropped : Nat) : VolRecord :=
  mkRecord 8 s.mnt.session (Head.num h)
    (sealBody s.mnt.session (Head.num h) reason (s.mnt.nextStripe - 1) dropped s.mnt.commitClip.toNat s.mnt.commitFrames)

/-- Seal the session: head A writes every queued record and its seal, head B its seal (R584 step 3, R587). The sealing
is done once all these sectors have passed. -/
def State.sealSession (s : State) (reason dropped : Nat) : State :=
  let a := s.addRecord (s.sealRecord .a reason dropped)
  let p := a.packAll (a.rcd.records.length + 1)
  let b := p.2.addRecord (p.2.sealRecord .b reason dropped)
  let q := b.packAll 2
  ((q.2.pushSystem .a p.1).pushSystem .b q.1).updMnt fun m => { m with seals := (p.1 ++ q.1).map (·.1) }

/-! Opening a group and placing (R27, R28, R306, R307). -/

/-- The sectors of copies that wait go into the group just opened; `n` bounds them (R306, R307). -/
def State.placeCopies (s : State) (h : Head) : Nat → State
  | 0 => s
  | n + 1 =>
    match (s.wh h).relocs with
    | [] => s
    | r :: rest =>
      let drop := s.updWh h fun w => { w with relocs := rest }
      match s.findFrame r.clip r.frame with
      | none => drop.placeCopies h n
      | some f =>
        if !s.counterRoom then s
        else
          match s.nextPos h ((s.failedAt r.lsn).map psaBeam), f.firstLsn with
          | some (st, i), some first =>
            (drop.stage h st i (.copy r.clip r.frame r.cause r.failed) r.lsn (f.sector (r.lsn - first))).placeCopies h n
          | _, _ => s

/-- The place after a group's last slot: the next group, zone, or the layer end (R23, R26, R44). -/
def WriteHead.advance (h : Head) (w : WriteHead) : WriteHead :=
  let w1 := { w with lastRev := some (groupEndRev h w.layer w.swept w.group) }
  if w.group + 1 < groupsOf (zoneOf h w.layer w.swept) then { w1 with group := w.group + 1 }
  else if w.swept + 1 < 24 then { w1 with swept := w.swept + 1, group := 0 }
  else { w1 with atEnd := true, full := w.full || w.layer == 11, layerSlots := 0, layerCopies := 0, over2 := false
                 over8 := false }

/-- Skip the groups of a layer that a test finds passed; `n` bounds them. -/
def skipGroups (h : Head) (passed : WriteHead → Bool) : Nat → WriteHead → WriteHead
  | 0, w => w
  | n + 1, w =>
    if w.atEnd || !passed w then w
    else skipGroups h passed n { (WriteHead.advance h w) with lastRev := w.lastRev }

/-- When a slot of a head's group begins, from the time at which the layer began for both heads (R24, R690). -/
def State.slotDue (s : State) (h : Head) (n : Nat) : Option Int :=
  s.rcd.layerAt.map fun o => o + (slotBeginNs h (s.wh h).layer (s.wh h).swept (36 * (s.wh h).group + n) : Int)

/-- Both heads work on the same revolution (R24): a head that writes again while recording goes on begins at the first of
its groups that has not passed. -/
def State.catchUp (s : State) (h : Head) : State :=
  match s.rcd.layerAt with
  | none => s
  | some o =>
    s.updWh h (skipGroups h (fun w =>
      decide (o + (slotBeginNs h w.layer w.swept (36 * w.group) : Int) + (wedgeNs : Int) < (s.now : Int))) 5000)

/-- Open a head's group at its place: three stripes, their records, then the waiting copies (R28, R42, R205, R307). -/
def State.beginGroup (s : State) (h : Head) : State :=
  let w := s.wh h
  let q := s.mnt.nextStripe
  let dead := s.shapeDead h
  let mkStripe := fun m : Nat => ({ seq := q + m, head := h, layer := w.layer, zone := s.zoneNow h, group := w.group
                                    member := m, live := liveOf dead, dead := dead } : Stripe)
  let sts := [mkStripe 0, mkStripe 1, mkStripe 2]
  let s1 := (s.updMnt fun m => { m with nextStripe := q + 3 }).updRcd fun r => { r with stripes := r.stripes ++ sts }
  let s2 := s1.updWh h fun x => { x with open3 := some (q, q + 1, q + 2), slot := 0, lost := [] }
  (sts.foldl (fun u st => u.addRecord (stripeRecord st)) s2).placeCopies h (w.relocs.length)

/-- Open the next group of a head, unless the layer holds no further one for it (R24, R28, R308). -/
def State.openGroup (s : State) (h : Head) : State :=
  let u := s.catchUp h
  if (u.wh h).atEnd then u else u.beginGroup h

/-- The layer of a head's next group and its start there: the group after the one in progress, where one is (R27). After a
layer's last group it is the first of the next layer. -/
def nextStart (h : Head) (w : WriteHead) : Nat × (Nat × Nat) :=
  let n := if w.open3.isSome then WriteHead.advance h w else w
  if n.atEnd then (n.layer + 1, (0, 1)) else (n.layer, groupStart h n.layer n.swept n.group)

/-- Head A's next group begins no later than head B's (R27). -/
def nextIsA (a b : Nat × (Nat × Nat)) : Bool := decide (a.1 < b.1) || (a.1 == b.1 && startsFirst a.2 b.2)

/-- The head that the next three stripes go to, where it may begin their group now: the one whose next group begins first,
of those that take stripes (R27). -/
def State.firstHead (s : State) : Option Head :=
  let h : Head :=
    if !s.takesStripes .b then .a
    else if !s.takesStripes .a then .b
    else if nextIsA (nextStart .a (s.wh .a)) (nextStart .b (s.wh .b)) then .a else .b
  if s.canOpen h then some h else none

/-- The head whose open group has the lower stripe sequence and a free data position (R28, R31). -/
def State.openHead (s : State) : Option Head :=
  let seq := fun h : Head => match (s.wh h).open3 with
    | some q => q.1
    | none => 0
  let ok := bothHeads.filter fun h => !(s.wh h).padding && (s.nextPos h []).isSome
  match ok with
  | [h] => some h
  | [_, _] => if seq .a ≤ seq .b then some .a else some .b
  | _ => none

/-- Where the next new sector goes: a free position of an open group, else a group opened for it (R27). -/
def State.ensureGroup (s : State) : Option (Head × State) :=
  match s.openHead with
  | some h => some (h, s)
  | none =>
    match s.firstHead with
    | some h =>
      let s1 := s.openGroup h
      if (s1.nextPos h []).isSome then some (h, s1) else none
    | none => none

/-- The LSN field of a system, AUX or session start sector (R211). -/
def sysLsn (no : Nat) : Nat := 0x80000000 + no

/-- Stage a system, AUX or session start sector in the next data position of a head that has not been staged. -/
def State.placeSystem (s : State) (h : Head) (kind : SectorKind) (text : List Byte) : Option State :=
  match s.nextPos h [] with
  | some (st, i) =>
    if !s.counterRoom then none
    else
      match kind with
      | .system no | .aux no | .sessionStart no => some (s.stage h st i kind (sysLsn no) text)
      | _ => none
  | none => none

end Sys2Proof.Machine
end

