-- ==== Sys2Proof/Machine/Channel.lean ====
section
/-! DEFINITION. The read channel as functions of its state (09_read_channel R326 to R341, R362, R363): soft values of channel
bits, sync patterns, equaliser adaptation, the payload stream of a beam, the soft values of its codewords, and what the engines of the
decoder pool make of them. -/

namespace Sys2Proof.Machine

/-! Soft values (R332 to R334). A soft value is the level +1 or −1 times its reliability, so that a channel bit, which is a
transition where two levels differ, is 1 where its soft value is negative. -/

/-- The sign product and the smaller magnitude of two soft values (R333, R334). -/
def softMul (a b : Int) : Int :=
  let m : Int := min a.natAbs b.natAbs
  if (a < 0) = (b < 0) then m else -m

/-- Saturate a soft value's magnitude. -/
def capSoft (n : Nat) (v : Int) : Int := max (-(n : Int)) (min n v)

/-- The soft values of channel bits from those of the NRZ levels, whose first is the level before the first bit (R333). -/
def channelSoft : List Int → List Int
  | a :: b :: rest => softMul a b :: channelSoft (b :: rest)
  | _ => []

/-- The hard decision of a channel bit (R333). -/
def hardBit (v : Int) : Bool := decide (v < 0)

/-- The soft values of an input word of R257, bit 0 first, from the 17 of its channel word, flag first: a body bit where 0xAAAA
holds 1 takes the sign product with the flag, the others stand unchanged (R334). -/
def demodWord (w : List Int) : List Int :=
  (List.range 16).map fun t =>
    let v := w.getD (16 - t) 0
    if (0xAAAA : Nat).testBit t then softMul v (w.getD 0 0) else v

/-- The soft values of `n` words of a coded block, in the order of its bits: bit 8m + t is bit t of byte m (R257, R259,
R334). -/
def demodulate : Nat → List Int → List Int
  | 0, _ => []
  | n + 1, w => demodWord (w.take 17) ++ demodulate n (w.drop 17)

/-! Patterns (R335 to R337). -/

/-- In how many places a window of hard decisions differs from a pattern (R336, R337). -/
def differences (pattern window : List Bool) : Nat :=
  ((List.range pattern.length).filter fun i => pattern[i]? != window[i]?).length

/-- The best of the qualifying positions: fewest differences, the earliest on a tie; as an index (R336, R337). -/
def bestMatch (tol : Nat) (diffs : List Nat) : Option Nat :=
  let ok := (List.zip diffs (List.range diffs.length)).filter fun x => decide (x.1 ≤ tol)
  match ok with
  | [] => none
  | x :: xs => some (xs.foldl (fun acc y => if y.1 < acc.1 then y else acc) x).2

/-- Search a pattern at `n` successive places of hard decisions (R336, R337). -/
def findPattern (pattern : List Bool) (tol n : Nat) (bits : List Bool) : Option Nat :=
  bestMatch tol ((List.range n).map fun i => differences pattern (bits.drop i))

/-! The equaliser (R330). -/

/-- A filter coefficient: its accumulator over 2^10, to the nearest, ties away from zero (R330). -/
def tapCoeff (w : Int) : Int := if 0 ≤ w then (2 * w + 1024) / 2048 else -((-2 * w + 1024) / 2048)

/-- The samples of an adaptation step that the equaliser's output is made of, in units of 1/2^10 LSB. -/
def equalised (taps : Vector Int 24) (xs : List Int) : Int :=
  ((List.finRange 24).map fun i => tapCoeff taps[i] * xs.getD i.val 0).sum

/-- One step of equaliser adaptation (R330). -/
def adaptStep (p : ChanParams) (taps : Vector Int 24) (a : AdaptSample) : Vector Int 24 :=
  let e := a.y - p.scale * ((List.zip p.target a.ds).map fun x => (x.1 : Int) * x.2).sum
  Vector.ofFn fun i : Fin 24 =>
    if i.val = p.main then taps[i]
    else max (-2097152) (min 2097151 (taps[i] - e * a.xs.getD i.val 0 * 2 ^ (20 - p.stepExp)))

/-! Defect spans (R362, R363). -/

/-- A place is a field and a channel bit within it; one place does not lie after another. -/
def placeLe (a b : Nat × Nat) : Bool := decide (a.1 < b.1) || (a.1 == b.1 && decide (a.2 ≤ b.2))

/-- A defect span covers a place (R362). -/
def DefectSpan.covers (d : DefectSpan) (p : Nat × Nat) : Bool :=
  placeLe d.start p && !d.stop.any fun e => placeLe e p

/-- A beam's channel covers a place with a defect span. -/
def ReadChannel.covers (c : ReadChannel) (p : Nat × Nat) : Bool := c.spans.any fun d => d.covers p

/-! A data field (R327 to R341). -/

/-- The channel bit of a data field at which the field sync begins, and the one at which the payload begins (Table 1.4). -/
def syncAt : Nat := 40

/-- The first channel bit of the payload (Table 1.4). -/
def payloadAt : Nat := 56

/-- The payload of a field joins the stream of its beam; where it does not follow what is there, a new stream begins. The
stream keeps the last two sectors (R339). -/
def ReadChannel.push (c : ReadChannel) (z first : Nat) (soft : List Int) : ReadChannel :=
  let follows := c.streamZone == z && c.streamAt + c.stream.length == first
  let all := if follows then c.stream ++ soft else soft
  let start := if follows then c.streamAt else first
  let old := all.length - 2 * sectorLen
  { c with streamZone := z, streamAt := start + old, stream := all.drop old }

/-- What a field does to its read channel (R327 to R341, R362, R363); `radial` holds where a span of a radial defect
covers. -/
def ReadChannel.field (c : ReadChannel) (out : Bool) (radial : Nat × Nat → Bool) (f : FieldSense) : ReadChannel :=
  let z := f.zone.val
  let bits := channelSoft f.nrz
  let sync := findPattern fieldSync c.par.fsyncTol 9 (bits.map hardBit)
  let noSync := if sync.isSome then 0 else c.noSync + 1
  let number := f.wedge.map fun w =>
    (if out then w.1 - 362 * z else 362 * z + 361 - w.1, w.2, w.1 / 362)
  let agrees := number.map fun n => n.2.2 == z && n.1 * 1152 + n.2.1 == f.expected
  let noAddr := if agrees = some true then 0 else c.noAddr + 1
  let silent := decide (2 ≤ noSync) || decide (8 ≤ noAddr) || agrees == some false
  let cap := if sync.isNone then c.par.missSyncCap else 31
  let payload := ((bits.drop (16 + sync.getD 4)).take (payloadBits z))
  let soft := (List.range (payloadBits z)).map fun j =>
    let p := (f.expected, payloadAt + j)
    if silent || c.covers p then 0 else capSoft (if radial p then min 8 cap else cap) (payload.getD j 0)
  let held := fun b : Nat => c.covers (f.expected, b)
  let u := { c with
    noSync := noSync, noAddr := noAddr, seedNominal := false
    gain := if sync.isSome && !held (syncAt - 1) then f.gain else c.gain
    freq := if sync.isSome && !held (fieldBits z - 1) then f.freq else c.freq
    taps := if sync.isSome then (f.adapt.filter fun a : AdaptSample => !held a.bit).foldl (adaptStep c.par) c.taps else c.taps }
  u.push z (f.expected * payloadBits z) soft

/-! Sectors in the stream (R337, R339, R342). -/

/-- `n` values of the stream from a payload bit of its zone on, where all of them are there. -/
def ReadChannel.slice (c : ReadChannel) (z first n : Nat) : Option (List Int) :=
  if c.streamZone = z ∧ c.streamAt ≤ first ∧ first + n ≤ c.streamAt + c.stream.length then
    some ((c.stream.drop (first - c.streamAt)).take n)
  else none

/-- Where the sector of slot `n` of a zone begins in the stream: by its mark, within SM_WIN of the place of R22 (R337). -/
def ReadChannel.sectorAt (c : ReadChannel) (z n : Nat) : Option Nat :=
  let w := c.par.smWin
  let first := n * sectorLen - w
  let places := n * sectorLen + w - first
  match c.slice z first (places + 48) with
  | none => none
  | some v => (findPattern sectorMark c.par.smTol (places + 1) (v.map hardBit)).map fun i => first + i

/-- The soft values of codeword `k` of a slot's sector, in the order of its bits, from the stream: the mark and the header lie
before the codewords (Table 1.5, R334, R339). -/
def ReadChannel.codeword (c : ReadChannel) (z n k : Nat) : Option (List Int) :=
  match c.sectorAt z n with
  | none => none
  | some a => (c.slice z (a + 48 + 1088 + 39168 * k) 39168).map fun v => demodulate 2304 v

/-- The soft values of the coded header of a slot's sector (Table 1.5). -/
def ReadChannel.headerSoft (c : ReadChannel) (z n : Nat) : Option (List Int) :=
  match c.sectorAt z n with
  | none => none
  | some a => (c.slice z (a + 48) 1088).map fun v => demodulate 64 v

/-- The bytes that hard decisions give, bit 8m + t being bit t of byte m (R259). -/
def hardBytes (soft : List Int) : List Byte :=
  (List.range (soft.length / 8)).map fun m => byteOf fun t => hardBit (soft.getD (8 * m + t) 0)

/-- The header that soft values of a coded header decode to, up to 32 byte errors (R258). -/
def headerDecode (soft : List Int) : Option (List Byte) :=
  let w := hardBytes soft
  (rsDecode 64 ((w.take 64).reverse ++ w.drop 64) [] 32).map fun x => (x.take 64).reverse

/-- The mark of a slot's sector should be in the stream and was not found there (R342). -/
def ReadChannel.markMissed (c : ReadChannel) (z n : Nat) : Bool :=
  (c.slice z (n * sectorLen - c.par.smWin) (2 * c.par.smWin + 48)).isSome && (c.sectorAt z n).isNone

/-! The engines (09_read_channel, "LDPC decoder pool"; R259, R260): layered normalised min-sum decoding, block row after block
row, stopped early once the syndrome is zero. What an engine finds comes as operands of LDPC_DECODE_DONE, since the precision
of its messages is not given (log entry 178). -/

/-- The codeword bits that row `x` of block row `r` of H checks (Table 7.1). -/
def ldpcRow (r x : Nat) : List Nat :=
  let data := (List.range 64).flatMap fun j =>
    ((ldpcBlocks j).filter fun b => b.1 == r).map fun b => 512 * j + (x + b.2) % 512
  let first := if r = 4 then [32768 + x] else if r = 0 ∨ r = 7 then [32768 + (x + 1) % 512] else []
  let diagonal := (if r < 7 then [512 * (65 + r) + x] else []) ++ (if 0 < r then [512 * (64 + r) + x] else [])
  data ++ first ++ diagonal

/-- The syndrome of the hard decisions is zero. -/
def ldpcZero (llr : Array Int) : Bool :=
  (List.range 4096).all fun i =>
    !((ldpcRow (i / 512) (i % 512)).foldl (fun a k => Bool.xor a (hardBit (llr.getD k 0))) false)

/-- 0.75 times a magnitude, to a whole number on either side. -/
def minSumScale (m : Nat) : Nat := (3 * m + (Config.minSumRound m).val) / 4

/-- The messages of a check to its bits, from theirs to it: the sign product and the scaled least magnitude of the others. -/
def checkMessages (qs : List Int) : List Int :=
  (List.range qs.length).map fun i =>
    match qs.eraseIdx i with
    | [] => 0
    | q :: rest =>
      let m : Int := minSumScale (rest.foldl (fun a x => min a x.natAbs) q.natAbs)
      if (q :: rest).foldl (fun a x => Bool.xor a (hardBit x)) false then -m else m

/-- One row of H: the bits' values without the row's old messages go in, and come out with its new ones. -/
def minSumRow (s : Array Int × Array (List Int)) (i : Nat) : Array Int × Array (List Int) :=
  let bits := ldpcRow (i / 512) (i % 512)
  let old := s.2.getD i []
  let qs := (List.range bits.length).map fun n => s.1.getD (bits.getD n 0) 0 - old.getD n 0
  let out := checkMessages qs
  ((List.range bits.length).foldl (fun a n => a.setIfInBounds (bits.getD n 0) (qs.getD n 0 + out.getD n 0)) s.1,
    s.2.setIfInBounds i out)

/-- Iterations until the syndrome is zero, at most `n` more: how many there were, and the values then. -/
def minSumRun : Nat → Nat → Array Int × Array (List Int) → Option (Nat × Array Int)
  | 0, done, s => if ldpcZero s.1 then some (done, s.1) else none
  | n + 1, done, s =>
    if ldpcZero s.1 then some (done, s.1) else minSumRun n (done + 1) ((List.range 4096).foldl minSumRow s)

/-- What an engine finds for the soft values of a codeword within a limit of iterations (R343): the iterations and the 4,096
data bytes. -/
def ldpcEngine (soft : List Int) (limit : Nat) : Option (Nat × List Byte) :=
  (minSumRun limit 0 (soft.toArray, Array.replicate 4096 [])).map fun x => (x.1, hardBytes (x.2.toList.take 32768))

end Sys2Proof.Machine
end

