-- ==== Sys2Proof/Machine/Pages.lean ====
section
/-! DEFINITION. What the host reads of the state as bytes: the registers of Table 4.8, the IDENTIFY data, the pages of
GET_PAGE and the bytes of event log records (04_command_packets, 15_bringup_calibration, 17_vole_management). -/

namespace Sys2Proof.Machine

/-- A quotient, exact or rounded to one of its two neighbours: the spec names no rounding (log entry 19). -/
def roundFree (num : Int) (den : Nat) : Int :=
  num / (den : Int) + (if num % (den : Int) ≠ 0 ∧ Config.roundUp num den = true then 1 else 0)

/-- The word of a commit-point or event register of a function (Table 4.8). -/
def State.eventReg (s : State) (fn : FnId) (off : Nat) : Word :=
  let f := s.func fn
  match off with
  | 0x100 => s.commitClipWord
  | 0x104 => s.commitFramesWord
  | 0x108 => BitVec.ofNat 32 s.remainingSlots
  | 0x10C => s.stateCode
  | 0x110 => f.eventPending.setWidth 32
  | 0x114 => BitVec.ofNat 32 (f.eventVector.toNat * 2 ^ 16 + f.eventEnable.toNat)
  | 0x118 => s.rcd.drey.inRate
  | 0x11C => s.rcd.drey.outRate
  | 0x120 => s.rcd.drey.timeToFull
  | 0x124 => s.retiredWord .a
  | 0x128 => s.retiredWord .b
  | 0x12C => s.dramLostWord
  | 0x130 => BitVec.ofNat 32 s.guarantee
  | _ => 0

/-- Page 0x01, device status: a copy of the registers of Table 4.8. -/
def State.page1 (s : State) (fn : FnId) : List Byte :=
  (List.range 13).flatMap fun i => le 4 (s.eventReg fn (0x100 + 4 * i)).toNat

/-- Bytes of a page that the spec gives no content while nothing is mounted: free values. -/
def freeBytes (off n : Nat) : List Byte := (List.range n).map fun i => Config.freeByte (off + i)

/-- Page 0x02, magazine. Its current layer is the one head A writes; the spec names no head (DESIGN CHOICE, log entry 166). -/
def State.page2 (s : State) (_fn : FnId) : List Byte :=
  let m := s.mnt
  (if s.mounted then m.identity ++ le 4 m.session else freeBytes 0 20) ++ le 4 s.remainingSlots ++
    (if s.mounted then le 4 m.nextStripe ++ le 1 s.rcd.headA.layer ++ [if m.mode == .readOnly then 1 else 0]
     else freeBytes 24 6) ++
    le 1 (s.retiredCount .a) ++ le 1 (s.retiredCount .b) ++ Word.zeros 96

/-- One flag byte. -/
def flags (l : List Bool) : Byte :=
  BitVec.ofNat 8 ((List.zip l (List.range 8)).foldl (fun acc x => acc + bit x.1 x.2) 0)

/-- The two's complement bytes of a signed number. -/
def leInt (n : Nat) (v : Int) : List Byte := le n (v % (2 ^ (8 * n) : Nat)).toNat

/-- The departure of the WRITE code from its calibrated value in 0.1 % (R613). -/
def BeamState.departure (b : BeamState) : Int :=
  if b.calWrite = 0 then 0 else roundFree (1000 * ((b.writeCode : Int) - b.calWrite)) b.calWrite

/-- The mean iterations over the last 4,096 codewords, in 1/16 (R613). -/
def BeamState.meanIterations (b : BeamState) : Nat :=
  if b.iterations.isEmpty then 0 else (roundFree (16 * (b.iterations.sum : Int)) b.iterations.length).toNat

/-- One beam's block of page 0x03 (Table 17.5). -/
def State.beamHealth (s : State) (h : Head) (b : Beam) : List Byte :=
  let u := s.beam h b
  le 4 u.written ++ le 4 u.failures ++ le 4 u.relocations ++ le 4 u.reads ++ le 4 u.ldpcFailures ++
    le 2 u.meanIterations ++ [flags [u.retired, u.suspect, s.valid348 h b, s.valid50 h b]] ++ le 1 u.trigger ++
    leInt 2 u.departure ++ Word.zeros 6

/-- A sensor's two bytes: 0x8000 when absent or faulty (R613). -/
def sensorBytes (r : Option Int) : List Byte :=
  match r with
  | none => [0x00, 0x80]
  | some v => leInt 2 v

/-- Page 0x03, health (R613). -/
def State.page3 (s : State) (_fn : FnId) : List Byte :=
  le 2 1 ++ le 2 0 ++ le 4 1664 ++ le 4 (if s.mounted then s.mnt.session else 0) ++ le 4 s.dram.uncorrectable.toNat ++
    Word.zeros 48 ++ (allBeams.flatMap (s.beamHealth .a)) ++ (allBeams.flatMap (s.beamHealth .b)) ++
    le 4 s.spin.rpm ++ le 4 s.spin.keMeas ++ le 4 s.spin.starts ++ le 4 s.spin.stalls ++ le 4 s.spin.trips ++
    le 1 s.spin.state ++ [flags [s.spin.lockout, s.spin.wedgeLock]] ++ Word.zeros 42 ++
    ((List.finRange 20).flatMap fun d => le 4 (s.dram.corrected[d]).toNat ++ Word.zeros 4 ++
      [flags [s.dram.lost == some d], s.vole.mr4[d]] ++ Word.zeros 6) ++
    s.vole.readings.toList.flatMap sensorBytes ++ Word.zeros 14

/-- The 64 bytes of an event log record (R604, R605). -/
def LogRecord.bytes (r : LogRecord) : List Byte :=
  let args := (r.args.take 9).flatMap fun a => le 4 a.toNat
  let body := le 8 r.seq ++ le 4 r.boot ++ le 8 r.timeUs ++ le 2 r.code.toNat ++ le 1 r.count ++ [0] ++ args ++
    Word.zeros (36 - args.length)
  body ++ le 4 (crc32 body).toNat

/-- The records in the flash log region, in no particular order (R601). -/
def VoleState.programmed (v : VoleState) : List LogRecord := v.sectors.flatMap fun x => x.2.records

/-- The lowest SEQUENCE in the log region; 0 while it holds no record (R615). -/
def VoleState.lowest (v : VoleState) : Nat :=
  match v.programmed.map (·.seq) with
  | [] => 0
  | x :: xs => xs.foldl min x

/-- The highest SEQUENCE in the log region; 0 while it holds no record (R615). -/
def VoleState.highest (v : VoleState) : Nat := (v.programmed.map (·.seq)).foldl max 0

/-- Page 0x04, event log window (R615). -/
def State.page4 (s : State) (_fn : FnId) : List Byte :=
  let v := s.vole
  let recs := v.newest.reverse.flatMap LogRecord.bytes
  le 8 v.lowest ++ le 8 v.highest ++ le 4 v.dropped ++ Word.zeros 44 ++ recs ++ Word.zeros (65472 - recs.length)

/-- Status byte of a step (Table 15.7). -/
def StepStatus.num (st : StepStatus) : Nat :=
  match st with
  | .pending => 0
  | .running => 1
  | .passed => 2
  | .discarded => 3
  | .notRun _ => 4
  | .aborted _ => 5
  | .notApplicable => 6

/-- The failing or lost mask of a step. -/
def StepStatus.mask (st : StepStatus) : Nat :=
  match st with
  | .notRun m | .aborted m => m.toNat
  | _ => 0

/-- The order in which the units of a step decide its one entry: running, pending, aborted, not run, discarded, passed,
not applicable (log entry 20). -/
def statusOrder : List Nat := [1, 0, 5, 4, 3, 2, 6]

/-- The entry of a step in page 0x05 (Table 15.7). -/
def State.stepEntry (s : State) (step : Nat) : List Byte :=
  let us := (placesOf step).map fun x => s.calUnit step x.1 x.2
  let st := (statusOrder.find? fun n => us.any fun u => u.status.num == n).getD 6
  let mask := us.foldl (fun acc u => Nat.lor acc u.status.mask) 0
  le 1 step ++ le 1 st ++ le 2 mask ++ le 4 ((us.map (·.atMs)).foldl max 0)

/-- One bit per beam of a head that satisfies a test. -/
def beamBits (p : Beam → Bool) : Nat := (allBeams.filter p).foldl (fun acc b => acc + 2 ^ b.val) 0

/-- How many beams of a head are valid for R348. -/
def State.validCount (s : State) (h : Head) : Nat := (allBeams.filter (s.valid348 h)).length

/-- The heads that running reads need: those of the codewords, sectors and stripes being read; both when none runs
(R547, log entry 21). -/
def State.readHeads (s : State) : List Head :=
  let l := s.rd.pool.map (·.head) ++ s.rd.partials.map (·.head) ++ s.rd.assembly.map (·.head)
  let used := bothHeads.filter fun h => l.contains h
  if used.isEmpty then bothHeads else used

/-- BRINGUP_READ_RATE in MB/s (R547, Table 15.7). -/
def State.bringupRate (s : State) : Nat :=
  if !s.cal.bringup then 0xFFFFFFFF
  else
    let v := (s.readHeads.map s.validCount).foldl min 18
    if v < 16 then 0 else 60 * v

/-- A quotient rounded to nearest, ties away from zero. -/
def roundAway (num : Int) (den : Nat) : Int :=
  if num < 0 then -((2 * -num + den) / (2 * den : Int)) else (2 * num + den) / (2 * den : Int)

/-- One beam's block of page 0x05 (Table 15.8). -/
def State.beamBlock (s : State) (h : Head) (b : Beam) : List Byte :=
  let u := s.beam h b
  let c := s.chan h b
  let p := c.par
  le 1 (s.hd h).layer ++ le 1 (zoneSet (zoneOf h (s.wh h).layer (s.wh h).swept)) ++ le 1 p.boost ++ le 1 p.pole ++
    leInt 2 c.gain ++ le 1 p.agcTarget ++ le 1 p.agcGain ++ leInt 1 u.adcOffset ++ le 1 p.timingP ++ le 1 p.timingI ++
    le 1 p.main ++ le 1 p.stepExp ++ le 1 p.adaptEvery ++ (p.target.take 5).flatMap (le 1) ++
    Word.zeros (5 - (p.target.take 5).length) ++ le 1 p.scale ++ le 1 p.depth ++ le 1 p.envelope ++ le 1 p.fsyncTol ++
    le 1 p.smTol ++ le 1 p.smWin ++ le 1 p.missSyncCap ++ Word.zeros 6 ++
    (c.taps.toList.flatMap fun a => leInt 2 (roundAway a (2 ^ 10))) ++ (p.noise.take 32).flatMap (leInt 1) ++
    Word.zeros (32 - (p.noise.take 32).length) ++ (p.weights.take 32).flatMap (le 2) ++
    Word.zeros (64 - 2 * (p.weights.take 32).length) ++ le 2 u.readCode ++ le 2 u.writeCode ++ le 2 u.midCode ++
    le 2 u.calWrite ++ le 2 u.betaTarget ++ Word.zeros 6

/-- Page 0x05, calibration results (R569). -/
def State.page5 (s : State) (_fn : FnId) : List Byte :=
  let both := fun p : Head → Beam → Bool => le 4 (beamBits (p .a)) ++ le 4 (beamBits (p .b))
  le 2 1 ++ le 2 0 ++ le 4 7168 ++ le 8 (if s.cal.bringup then s.estimate else 0) ++ le 4 s.bringupRate ++
    le 4 ((s.bankInUse.map (·.generation)).getD 0) ++ [flags [s.vole.integratorValid, s.bankInUse.isSome]] ++ Word.zeros 7 ++
    both (fun h b => (s.beam h b).suspect) ++ both s.valid348 ++ both s.valid50 ++ Word.zeros 8 ++
    allSteps.flatMap s.stepEntry ++ Word.zeros 96 ++ allBeams.flatMap (s.beamBlock .a) ++ allBeams.flatMap (s.beamBlock .b)

/-- A page of GET_PAGE (R128); a page that does not exist has no bytes. -/
def State.page (s : State) (n : Nat) (fn : FnId) : List Byte :=
  match n with
  | 1 => s.page1 fn
  | 2 => s.page2 fn
  | 3 => s.page3 fn
  | 4 => s.page4 fn
  | 5 => s.page5 fn
  | _ => []

/-- The Device ID of a function (Table 3.2). -/
def State.deviceId (s : State) (fn : FnId) : Nat := if s.quill.recovery && fn == 3 then 0x036F else 0x0360 + fn.val

/-- The running slot as reported: 0xFF in recovery (R527). -/
def State.runningSlot (s : State) : Nat := if s.quill.recovery then 0xFF else s.quill.running.getD 0xFF

/-- The IDENTIFY data (R129, Table 4.6). -/
def State.identifyData (s : State) (fn : FnId) : List Byte :=
  le 2 0x1F8D ++ le 2 (s.deviceId fn) ++ [0xC0, 0x01, 0x01] ++ le 1 s.runningSlot ++ s.quill.serial ++
    le 4 (if s.quill.recovery then 0 else s.quill.sequence) ++ le 2 32 ++ le 2 1024 ++ le 4 268435456 ++ le 4 8192 ++
    Word.zeros 4056

end Sys2Proof.Machine
end

