-- ==== Sys2Proof/Machine/ReadPath.lean ====
section
/-! DEFINITION. The read direction (09_read_channel, 07_stripe_codec_crypto): running reads, the decoder pool, stripe
assembly, the erasure decode, tags, the retry ladder, Scurry and the media scrub. -/

namespace Sys2Proof.Machine

/-! Where LSNs lie. -/

/-- Where the authoritative sector of an LSN lies, and whether it is a relocated copy (R32, R229). -/
def State.placeOf (s : State) (lsn : Nat) : Option (Word × Bool) :=
  match s.relocation lsn with
  | some e => some (e.psa, true)
  | none => (s.vmap.places.find? fun x => x.1 == lsn).map fun x => (x.2, false)

/-- Two PSAs lie in one stripe. -/
def sameStripe (p q : Word) : Bool :=
  psaHead p == psaHead q && psaLayer p == psaLayer q && psaZone p == psaZone q && psaGroup p == psaGroup q &&
    psaMember p == psaMember q

/-- The sequence and the live beams of the stripe that holds a PSA, from its STRIPE record (Table 6.7). -/
def State.stripeAt (s : State) (p : Word) : Option (Nat × Nat) :=
  (s.vmap.records.find? fun r => r.rtype == 9 && sameStripe (BitVec.ofNat 32 (Word.fieldLE r.bytes 8 4)) p).map fun r =>
    (Word.fieldLE r.bytes 4 4, Word.fieldLE r.bytes 13 1)

/-! Running reads (R61, R97, R145, R354). -/

/-- A command that reads LSNs and still waits for this one. -/
def Running.needs (lsn : Nat) (r : Running) : Bool := r.need.contains lsn

/-- Some running read waits for an LSN. -/
def State.wanted (s : State) (lsn : Nat) : Bool := s.host.running.any (Running.needs lsn)

/-- A running read with one more sector delivered. -/
def Running.take (lsn : Nat) (bytes : List Byte) (r : Running) : Running :=
  { r with need := r.need.filter (· != lsn), got := r.got ++ [(lsn, bytes)] }

/-- The bytes of an LSN that a read has received. -/
def Running.sector (r : Running) (lsn : Nat) : Option (List Byte) := (r.got.find? fun x => x.1 == lsn).map (·.2)

/-- The data a complete read delivers. -/
def Running.data (r : Running) : List Byte :=
  ((r.lsns.flatMap fun l => (r.sector l).getD []).drop r.offset).take r.entry.length.toNat

/-- The first LSN a read has not received. -/
def Running.firstMissing (r : Running) : Nat := (least r.need).getD 0

/-- The first LSN not delivered of a read that fails at an LSN: that one, or one it still waits for below it (R145). -/
def Running.firstLost (r : Running) (lsn : Nat) : Nat := min lsn ((least r.need).getD lsn)

/-- The data of a read that fails at an LSN: what lies below the first LSN not delivered is valid, every other byte undefined
(R145). -/
def Running.partialData (r : Running) (lsn : Nat) : List Byte :=
  ((r.lsns.flatMap fun l =>
    if l < r.firstLost lsn then (r.sector l).getD [] else (List.range 32768).map (Config.undefinedByte l)).drop r.offset).take
      r.entry.length.toNat

/-- Scurry may run on a head (R350). -/
def State.allowScurry (s : State) (h : Head) : State :=
  s.updRd fun r =>
    match h with
    | .a => { r with scurryA := true }
    | .b => { r with scurryB := true }

/-- The stripe in assembly holds a PSA. -/
def Assembly.holds (p : Word) (a : Assembly) : Bool :=
  a.head == psaHead p && a.layer == psaLayer p && a.zone == psaZone p && a.group == psaGroup p && a.member == psaMember p

/-- Stripes that hold a sector some read still needs stay in stripe assembly; the others leave it (R347). -/
def State.trimAssembly (s : State) : State :=
  let needs := s.host.running.flatMap (·.need)
  let places := needs.filterMap fun l => (s.placeOf l).map (·.1)
  s.updRd fun r => { r with
    assembly := r.assembly.filter fun a => places.any fun p => a.holds p
    walked := r.walked.filter needs.contains }

/-- Complete a read that needs nothing more. -/
def State.endRead (s : State) (r : Running) : State :=
  (r.heads.foldl State.allowScurry (s.endRunning r .success (r.result.setWidth 64) r.data)).trimAssembly

/-- The Detail of a read that cannot be finished: the first LSN not delivered where the medium is at fault (Table 4.9). -/
def Running.readDetail (r : Running) (st : Status) : DWord :=
  if st = .mediaUnrecovered ∨ st = .authTagMismatch then BitVec.ofNat 64 r.firstMissing else 0

/-- Complete a read that cannot be finished (R145). -/
def State.failRead (s : State) (r : Running) (st : Status) : State :=
  (s.endRunning r st (r.readDetail st) (r.partialData r.firstMissing)).trimAssembly

/-- Deliver one sector to every read that waits for it; those complete that need nothing more. -/
def State.deliver (s : State) (lsn : Nat) (bytes : List Byte) : State :=
  let who := s.host.running.filter (Running.needs lsn)
  let s1 := s.updHost fun h => { h with running := h.running.map fun r => if r.needs lsn then r.take lsn bytes else r }
  (who.foldl (fun u r => let r' := r.take lsn bytes
    if r'.need.isEmpty then u.endRead r' else u) s1).trimAssembly

/-- Fail every read that waits for one of some LSNs. -/
def State.failReads (s : State) (lsns : List Nat) (st : Status) : State :=
  (s.host.running.filter fun r => lsns.any r.need.contains).foldl (fun u r => u.failRead r st) s

/-- Start a read of LSNs: from frame slots (R63), then from Scurry (R64, R354), the rest from the medium. An assigned
LSN that lies nowhere cannot be recovered (log entry 23), nor one on a head whose capture has failed (R429); a head
pre-focused on another layer goes back (R435). -/
def State.startRead (s : State) (r : Running) : State :=
  let fromSlot := r.lsns.filterMap fun l => (s.frameOfLsn l).map fun x => (l, x.1.sector x.2)
  let rest := r.lsns.filter fun l => !fromSlot.any fun x => x.1 == l
  let held := s.rd.scurry.filter fun e => e.session == s.mnt.session && rest.contains e.lsn
  let need := rest.filter fun l => !held.any fun e => e.lsn == l
  let places := need.map fun l => (l, s.placeOf l)
  let r' := { r with
    got := fromSlot ++ held.map fun e : ScurryEntry => (e.lsn, e.data)
    need := need
    heads := bothHeads.filter fun h => places.any fun x => x.2.any fun p : Word × Bool => psaHead p.1 == h }
  let s1 := s.updRd fun d => { d with scurry := d.scurry.filter fun e => !held.contains e }
  let pre := fun (u : State) (h : Head) => (u.updHd h fun d => { d with prefocus := none }).updRd fun d =>
    match h with
    | .a => { d with scurryA := false }
    | .b => { d with scurryB := false }
  if need.isEmpty then s1.finish r'.org r'.entry r'.alloc .success (r'.result.setWidth 64) r'.data
  else
    match places.find? (fun x => x.2.all fun p : Word × Bool => (s.hd (psaHead p.1)).captureFailed) with
    | some x =>
      s1.finish r'.org r'.entry r'.alloc .mediaUnrecovered (BitVec.ofNat 64 (r'.firstLost x.1)) (r'.partialData x.1)
    | none => (r'.heads.foldl pre s1).startRunning r'

/-! The decoder pool (R343 to R346). -/

/-- The codewords that the 16 engines have taken: in order, speculative ones only when no other waits, extended ones on
at most 3 engines (R344). -/
def takenWords : List PoolWord → Nat → Nat → List PoolWord
  | [], _, _ => []
  | w :: ws, n, x =>
    if n = 0 then []
    else if w.extended then (if x = 0 then takenWords ws n x else w :: takenWords ws (n - 1) (x - 1))
    else w :: takenWords ws (n - 1) x

/-- The pool in the order in which it is served. -/
def ReadPath.served (r : ReadPath) : List PoolWord :=
  let main := r.pool.filter (!·.speculative)
  if main.isEmpty then r.pool else main

/-- The taken codewords of the pool. -/
def ReadPath.taken (r : ReadPath) : List PoolWord := takenWords r.served 16 3

/-- The power domain of a beam's read channel (Table 2.1). -/
def chanDomain (h : Head) (b : Beam) : Nat := 8 + 2 * Head.num h + b.val / 9

/-- A read channel works for reading: its domain and clock are up, its calibration is valid, and its beam does not write
(R47, R302, R348, R686). -/
def State.channelReads (s : State) (h : Head) (b : Beam) : Bool :=
  s.pwr.domains.getLsbD (chanDomain h b) && !s.pwr.pllLost.contains .afe && s.valid348 h b && (s.beam h b).level != .write

/-- The decoder pool and stripe assembly work: the stripe codec, its SRAM and Drey have their domains (R47, Table 2.3). -/
def State.codecOn (s : State) : Bool := s.pwr.domains.getLsbD 5 && s.pwr.domains.getLsbD 6 && s.pwr.domains.getLsbD 14

/-- The medium may be read beside the recording: no clip is open, or an excursion serves reads, from the end of the groups
in progress on, and not past the 1,000 ms after its decision (R574, R576, R577). -/
def State.mediumFree (s : State) : Bool :=
  !s.clipOpen || (s.rd.excursion.any fun a => decide (s.now < a + Config.ms 1000)) &&
    (s.wh .a).open3.isNone && (s.wh .b).open3.isNone

/-- The medium can be read: the recording leaves it free; no retry ladder runs on the head (R361); the read channels have
their clock and the pool works (Table 13.2, R686). -/
def State.readable (s : State) (h : Head) : Bool :=
  s.mounted && s.codecOn && !s.pwr.pllLost.contains .afe && s.mediumFree &&
    (match h with
     | .a => s.rd.ladderA == 0
     | .b => s.rd.ladderB == 0)

/-- Key of a sector within its stripe's assembly. -/
def partKey (p : Word) : Nat := 18 * psaPos p + (psaBeam p).val

/-- A stripe some read needs, put into stripe assembly when there is room: at most 9 stripes, 4 per head (R347). -/
def State.openAssembly (s : State) (p : Word) : State :=
  let h := psaHead p
  let here := s.rd.assembly.any fun a => a.holds p
  let room := decide (s.rd.assembly.length < 9) && decide ((s.rd.assembly.filter fun a => a.head == h).length < 4)
  let wanted := (s.host.running.flatMap (·.need)).any fun l => (s.placeOf l).any fun x => sameStripe x.1 p
  match s.stripeAt p with
  | some (seq, live) =>
    if here || !room || !wanted then s
    else s.updRd fun r => { r with assembly := r.assembly ++
      [{ seq := seq, head := h, layer := psaLayer p, zone := psaZone p, group := psaGroup p, member := psaMember p
         live := live, parts := [] }] }
  | none => s

/-- Record what is known of a sector in its stripe's assembly. -/
def State.setPart (s : State) (p : Word) (x : PartState) : State :=
  let f := fun a : Assembly => if a.holds p then { a with parts := putRow (partKey p) x a.parts } else a
  s.updRd fun r => { r with assembly := r.assembly.map f }

/-- A codeword that never reached the decoder, or failed there, as a failed result of its sector. -/
def PartialSector.add (index : Nat) (r : Option (List Byte)) (hdr : Option (List Byte)) (x : PartialSector) : PartialSector :=
  { x with words := putRow index r x.words, header := match x.header with
    | some b => some b
    | none => hdr }

/-- The LSN that a PSA is read for: a needed LSN whose place it is, and whether that place holds a relocated copy. -/
def State.readFor (s : State) (p : Word) : Option (Nat × Bool) :=
  firstSome (fun l =>
    match s.placeOf l with
    | some (q, c) => if q = p then some (l, c) else none
    | none => none) (s.host.running.flatMap (·.need))

/-- The Type a place is read for (Table 1.6). -/
def typeOfPlace (copy : Bool) : Byte := if copy then 0x02 else 0x01

/-- A decoded sector: its header is checked (R45, R46); where it is wanted it goes to decrypt holding, and where it
lies at the place Burrow names with another LSN or Type, BURROW_MISMATCH is logged, the LSN is resolved again by the
firmware walk and the row is read back at once (R248). -/
def State.sectorDecoded (s : State) (p : Word) (hdr payload : List Byte) : State :=
  if !headerAt hdr p then s.setPart p .erased
  else
    match s.readFor p with
    | none => s.setPart p (.bytes hdr payload)
    | some (lsn, copy) =>
      if Word.fieldLE hdr 0 4 = lsn ∧ hdr.getD 12 0 = typeOfPlace copy then
        (s.setPart p (.bytes hdr payload)).updRd fun r => { r with holding := r.holding ++ [(p, hdr, payload)] }
      else if copy then
        (((s.setPart p .erased).log 0x0204 [arg lsn]).updRd fun r => { r with
          walked := if r.walked.contains lsn then r.walked else r.walked ++ [lsn] }).updBurrow fun t => { t with
            urgent := match t.lookupAt (burrowKey 1 0 lsn) with
              | some x => if t.urgent.contains (t.physical x.1) then t.urgent else t.urgent ++ [t.physical x.1]
              | none => t.urgent }
      else s.setPart p .erased

/-- A sector has all its eight codewords: it decodes, or it is an erasure (R266). -/
def State.closePartial (s : State) (p : Word) : State :=
  match s.rd.partials.find? (fun x => x.psa == p) with
  | none => s
  | some x =>
    if x.words.length < 8 then s
    else
      let s0 := s.updRd fun r => { r with partials := r.partials.filter fun y => y.psa != p }
      if x.speculative then s0
      else
        let s1 := s0.updBeam x.head x.beam fun b => { b with reads := b.reads + 1 }
        match x.header with
        | some hdr =>
          if x.words.all (·.2.isSome) then s1.sectorDecoded p hdr (x.words.flatMap fun w => w.2.getD [])
          else s1.setPart p .erased
        | none => s1.setPart p .erased

/-- Give a codeword's result to its sector. -/
def State.wordResult (s : State) (w : PoolWord) (r : Option (List Byte)) (hdr : Option (List Byte)) : State :=
  let x0 : PartialSector := { psa := w.psa, head := w.head, beam := w.beam, speculative := w.speculative }
  let s1 := if s.rd.partials.any fun x => x.psa == w.psa then s
    else s.updRd fun d => { d with partials := d.partials ++ [x0] }
  let f := fun x : PartialSector => if x.psa == w.psa then x.add w.index r hdr else x
  (s1.updRd fun d => { d with partials := d.partials.map f }).closePartial w.psa

/-- A codeword counts as an LDPC failure (R266, R613); a speculative one changes no counter (R62, R357). -/
def State.wordFailed (s : State) (w : PoolWord) : State :=
  (s.updBeam w.head w.beam fun b =>
    { b with ldpcFailures := b.ldpcFailures + (if w.speculative then 0 else 1) }).wordResult w none none

/-- Codewords of a beam that no engine has taken when its buffer is needed are discarded (R346). -/
def State.overrunBeam (s : State) (h : Head) (b : Beam) : State :=
  let taken := s.rd.taken
  let late := s.rd.pool.filter fun w => w.head == h && w.beam == b && !taken.contains w
  late.foldl (fun u w =>
    let u1 := (u.updRd fun r => { r with pool := r.pool.filter fun x => x != w }).wordFailed w
    if w.speculative then u1 else u1.log 0x0402 [arg (beamIndex h b), w.psa]) s

/-- The slot of its zone that a PSA lies in (R19, R30). -/
def psaSlot (p : Word) : Nat := 36 * psaGroup p + slotOf (psaMember p) (psaPos p) (psaBeam p)

/-- CODEWORD_DETECTED (R344, R346 to R348, R455, R461): the last bit of a codeword has left the detector, and its soft
values, taken from the beam's stream, cross the channel's bridge; a bridge not armed discards them, and the codeword
fails. With its sector's mark not found it fails at once (R342). -/
def execCodewordDetected (t : Time) (h : Head) (b : Beam) (psa : Word) (index : Fin 8) (speculative : Bool) (s : State) :
    Answer :=
  let s1 := s.at t
  .next (if !s1.readable h || psaHead psa != h || psaBeam psa != b || !s1.channelReads h b then s1
    else
      let s2 := (if speculative then s1 else s1.openAssembly psa).overrunBeam h b
      let c := s1.chan h b
      let w : PoolWord := { head := h, beam := b, psa := psa, index := index.val, speculative := speculative
                            soft := (c.codeword (psaZone psa) (psaSlot psa) index.val).getD [] }
      let n := chanBridge h b
      if c.markMissed (psaZone psa) (psaSlot psa) then s2.wordFailed w
      else if !(s2.bridge n).armed then (s2.crossWord n (8 * psa.toNat + index.val)).wordFailed w
      else (s2.crossWord n (8 * psa.toNat + index.val)).updRd fun r => { r with pool := r.pool ++ [w] })

/-- LDPC_DECODE_DONE (R342 to R344, R546): the result of a taken codeword, as `ldpcEngine` describes it but for its precision
(log entry 178); `header` is the decoded header, empty where it could not be corrected. A codeword that fails during bring-up is decoded once more, extended. While decrypt holding is full
the codeword stays where it is (R163, log entry 153). -/
def execLdpcDecodeDone (t : Time) (h : Head) (b : Beam) (index : Fin 8) (iterations : Nat) (result : Option (List Byte))
    (header : List Byte) (s : State) : Answer :=
  let s1 := s.at t
  .next (match s1.rd.taken.find? (fun w => w.head == h && w.beam == b && w.index == index.val) with
    | none => s1
    | some w =>
      if Config.holdingSectors ≤ s1.rd.holding.length || !s1.codecOn then s1 else
      let lim := if w.extended then s1.rd.limExtended else s1.rd.limNormal
      let got := if iterations ≤ lim then result else none
      let s2 := (s1.updRd fun r => { r with pool := r.pool.filter fun x => x != w }).updBeam h b fun u =>
        { u with iterations := if w.speculative then u.iterations else (min iterations lim :: u.iterations).take 4096 }
      match got with
      | some d => s2.wordResult w (some d) (if header.isEmpty then none else some header)
      | none =>
        if s2.cal.bringup && !w.extended then s2.updRd fun r => { r with pool := r.pool ++ [{ w with extended := true }] }
        else s2.wordFailed w)

/-! Tags (R268, R291, R292). -/

/-- The tag of a sector verifies, and its plaintext (R268). -/
def openSector (key hdr ct : List Byte) : Option (List Byte) :=
  let iv := (hdr.drop 16).take 12
  if gcmTag key iv (hdr.take 16) ct = (hdr.drop 28).take 16 then some (gcmCrypt key iv ct) else none

/-- A sector fails authentication for good (R292). -/
def State.authFail (s : State) (lsn : Nat) (p : Word) : State :=
  (s.failReads [lsn] .authTagMismatch).log 0x0401 [arg lsn, p]

/-- SECTOR_TAG_CHECK (R61, R268, R291, R292): the tag verdict of a sector in decrypt holding. -/
def execSectorTagCheck (t : Time) (psa : Word) (s : State) : Answer :=
  let s1 := s.at t
  .next (match s1.rd.holding.find? (fun x => x.1 == psa), s1.mnt.mediaKey with
    | some (_, hdr, ct), some key =>
      let s2 := s1.updRd fun r => { r with holding := r.holding.filter fun x => x.1 != psa }
      let lsn := Word.fieldLE hdr 0 4
      match openSector key hdr ct with
      | some pt => (s2.updRd fun r => { r with rebuilt := r.rebuilt.filter (· != psa) }).deliver lsn pt
      | none =>
        if s2.rd.rebuilt.contains psa then
          (s2.updRd fun r => { r with rebuilt := r.rebuilt.filter (· != psa) }).authFail lsn psa
        else s2.setPart psa .badTag
    | _, _ => s1)

/-! The erasure decode (R262 to R267, R293). -/

/-- What an assembly holds at a key. -/
def Assembly.part (a : Assembly) (k : Nat) : PartState :=
  match a.parts.find? (fun x => x.1 == k) with
  | some x => x.2
  | none => .missing

/-- A sector gives its bytes to the outer code. -/
def PartState.good (p : PartState) : Bool :=
  match p with
  | .bytes _ _ => true
  | _ => false

/-- The dead beam of a 17-beam stripe: the first beam of which no sector is there (log entry 24). -/
def Assembly.dead (a : Assembly) : Option Beam :=
  if a.live = 18 then none
  else allBeams.find? fun b => (List.range 12).all fun k => !(a.part (18 * k + b.val)).good

/-- The keys of a stripe's sectors in order-index order (R20, R21). -/
def Assembly.keys (a : Assembly) : List Nat :=
  let d := a.dead
  (List.range (12 * liveOf d)).map fun i => 18 * (i / liveOf d) + (beamOfRank d (i % liveOf d)).val

/-- The PSA of a key of an assembly. -/
def Assembly.psa (a : Assembly) (k : Nat) : Word :=
  psaOf a.head a.layer a.zone a.group a.member (Fin.ofNat 18 k) (k / 18)

/-- A key can give nothing from the outset: its beam has no valid calibration (R348). -/
def State.silentKey (s : State) (a : Assembly) (k : Nat) : Bool := !s.valid348 a.head (Fin.ofNat 18 k)

/-- Every sector of the stripe is known, one way or the other. -/
def State.stripeComplete (s : State) (a : Assembly) : Bool :=
  a.keys.all fun k => s.silentKey a k || a.part k != .missing

/-- One column of a stripe: byte `j` of what each sector holds, 0 where it is an erasure. -/
def Assembly.column (a : Assembly) (f : List Byte → List Byte → List Byte) (j : Nat) : List Byte :=
  a.keys.map fun k =>
    match a.part k with
    | .bytes h p => (f h p).getD j 0
    | _ => 0

/-- Decode one column with the erasures of the stripe; whatever is not erased may hold up to (24 - e) / 2 errors (R265). -/
def Assembly.fixColumn (a : Assembly) (f : List Byte → List Byte → List Byte) (j : Nat) : Option (List Byte) :=
  let n := a.keys.length
  let erased := ((List.range n).filter fun i => !(a.part (a.keys.getD i 0)).good).map fun i => n - 1 - i
  if 24 < erased.length then none else rsDecode 24 (a.column f j) erased ((24 - erased.length) / 2)

/-- Decode `n` columns. -/
def Assembly.fixColumns (a : Assembly) (f : List Byte → List Byte → List Byte) (n : Nat) : Option (List (List Byte)) :=
  (List.range n).mapM (a.fixColumn f)

/-- The outer code's answer for a stripe: header columns 16 to 43 and payload columns (R263). -/
def Assembly.decode (a : Assembly) : Option (List (List Byte) × List (List Byte)) :=
  match a.fixColumns (fun h _ => h.drop 16) 28, a.fixColumns (fun _ p => p) 32768 with
  | some h, some p => some (h, p)
  | _, _ => none

/-- A rebuilt sector (R267): LSN and Type of the place, PSA and stripe sequence of the position, nonce and tag of the
header columns. -/
def Assembly.rebuild (a : Assembly) (cols : List (List Byte) × List (List Byte)) (i k lsn : Nat) (copy : Bool) :
    List Byte × List Byte :=
  let hc := cols.1.map fun c => c.getD i 0
  let body := le 4 lsn ++ le 4 (a.psa k).toNat ++ le 4 a.seq ++ [typeOfPlace copy, 0, 0, 0] ++ hc ++ Word.zeros 16
  (body ++ le 4 (crc32 body).toNat, cols.2.map fun c => c.getD i 0)

/-- Mark an assembly. -/
def State.updAssembly (s : State) (seq : Nat) (f : Assembly → Assembly) : State :=
  s.updRd fun r => { r with assembly := r.assembly.map fun a => if a.seq = seq then f a else a }

/-- The retry ladder of a head. -/
def State.ladder (s : State) (h : Head) : Nat :=
  match h with
  | .a => s.rd.ladderA
  | .b => s.rd.ladderB

/-- Set the retry ladder of a head; 0 ends it. -/
def State.setLadder (s : State) (h : Head) (n : Nat) : State :=
  s.updRd fun r =>
    match h with
    | .a => { r with ladderA := n }
    | .b => { r with ladderB := n }

/-- The LSNs of a stripe that running reads still need and that the assembly does not hold good, with their keys. -/
def State.stripeNeeds (s : State) (a : Assembly) : List (Nat × Nat × Bool) :=
  a.keys.filterMap fun k =>
    match s.readFor (a.psa k) with
    | some (l, c) => if (a.part k).good then none else some (k, l, c)
    | none => none

/-- Run the erasure decode of a stripe: needed sectors are rebuilt and go to decrypt holding, or the stripe enters the
retry ladder; a sector that failed its tag and cannot be rebuilt fails authentication (R265, R267, R291 to R293). -/
def State.eraseDecode (s : State) (a : Assembly) : State :=
  let needs := s.stripeNeeds a
  if needs.isEmpty || decide (Config.holdingSectors < s.rd.holding.length + needs.length) then s
  else
    match a.decode with
    | some cols =>
      let s1 := s.updAssembly a.seq fun x => { x with ladder := false }
      needs.foldl (fun u n =>
        let i := (a.keys.findIdx? (· == n.1)).getD 0
        let b := a.rebuild cols i n.1 n.2.1 n.2.2
        let p := a.psa n.1
        (u.setPart p (.bytes b.1 b.2)).updRd fun r => { r with
          holding := r.holding ++ [(p, b.1, b.2)], rebuilt := p :: r.rebuilt.filter (· != p) }) s1
    | none =>
      let bad := needs.filter fun n => a.part n.1 == .badTag
      match bad with
      | n :: _ => s.authFail n.2.1 (a.psa n.1)
      | [] =>
        let s1 := s.updAssembly a.seq fun x => { x with ladder := true }
        if s1.ladder a.head = 0 then s1.setLadder a.head 1 else s1

/-- ERASURE_DECODE (R265): a stripe of which every sector is known. -/
def execErasureDecode (t : Time) (seq : Nat) (s : State) : Answer :=
  let s1 := s.at t
  .next (match s1.rd.assembly.find? (fun a => a.seq == seq) with
    | none => s1
    | some a => if s1.stripeComplete a && !a.ladder then s1.eraseDecode a else s1)

/-! The retry ladder (R365 to R368). -/

/-- Sectors that a reread recovered. -/
def State.recovered (s : State) (l : List (Word × List Byte × List Byte)) : State :=
  l.foldl (fun u x => if headerAt x.2.1 x.1 then u.sectorDecoded x.1 x.2.1 x.2.2 else u) s

/-- The needed sectors of the stripes on a head's ladder that are still not recovered. -/
def State.ladderLeft (s : State) (h : Head) : List (Nat × Word) :=
  (s.rd.assembly.filter fun a => a.head == h && a.ladder).flatMap fun a => (s.stripeNeeds a).map fun n => (n.2.1, a.psa n.1)

/-- RETRY_LADDER_STEP (R365, R368): the sectors a step recovered; the erasure decode runs again; after the last step the
commands whose sectors are still missing end. -/
def execRetryLadderStep (t : Time) (h : Head) (recovered : List (Word × List Byte × List Byte)) (s : State) : Answer :=
  let s1 := s.at t
  let n := s1.ladder h
  .next (if n = 0 || !s1.mediumFree then s1
    else
      let s2 := s1.recovered recovered
      let s3 := (s2.rd.assembly.filter fun a => a.head == h && a.ladder).foldl State.eraseDecode s2
      let left := s3.ladderLeft h
      if left.isEmpty then s3.setLadder h 0
      else if n < 5 then s3.setLadder h (n + 1)
      else
        let s4 := (s3.setLadder h 0).failReads (left.map (·.1)) .mediaUnrecovered
        left.foldl (fun u x => u.log 0x0404 [arg x.1, x.2, 5]) s4)

/-! Scurry (R349 to R358). -/

/-- Scurry may run on a head (R349, R350). -/
def State.scurryOn (s : State) (h : Head) : Bool :=
  s.inRun && s.mounted && !s.clipOpen && s.ladder h == 0 && !s.vmap.burrow.degraded &&
    !s.host.running.any (fun r => r.heads.contains h && !r.need.isEmpty) &&
    (match h with
     | .a => s.rd.scurryA
     | .b => s.rd.scurryB)

/-- One more than the highest LSN whose frame has committed: of the session, or all that the mount found (R351). -/
def State.committedEnd (s : State) : Nat :=
  if s.mnt.commitClip = 0 then
    match s.rcd.opened with
    | [] => s.mnt.nextLsn
    | o :: _ => (s.clipFirst o.1).getD s.mnt.nextLsn
  else
    match s.clipFirst s.mnt.commitClip, s.clipFrameBytes s.mnt.commitClip with
    | some f, some b => f + s.mnt.commitFrames * sectorsOf b
    | _, _ => s.mnt.nextLsn

/-- The stripe holding the highest committed LSN. -/
def State.lastCommittedStripe (s : State) : Nat :=
  match s.placeOf (s.committedEnd - 1) with
  | some (p, _) => ((s.stripeAt p).map (·.1)).getD 0
  | none => 0

/-- Hold one decoded sector in the Scurry area (R351, R352, R355). -/
def State.holdScurry (s : State) (h : Head) (x : Word × List Byte × List Byte) : State :=
  let lsn := Word.fieldLE x.2.1 0 4
  let seq := Word.fieldLE x.2.1 8 4
  let seqs := ((s.rd.scurry.filter fun e => e.head == h).map (·.seq)).eraseDups
  let ok := headerAt x.2.1 x.1 && psaHead x.1 == h && x.2.1.getD 12 0 == 0x01 && (s.relocation lsn).isNone &&
    decide (seq ≤ s.lastCommittedStripe) && (seqs.contains seq || decide (seqs.length < 40))
  match s.mnt.mediaKey with
  | some key =>
    match (if ok then openSector key x.2.1 x.2.2 else none) with
    | some pt =>
      let e : ScurryEntry := { lsn := lsn, session := s.mnt.session, head := h, seq := seq, data := pt }
      s.updRd fun r =>
        let kept := r.scurry.filter fun y => y.lsn != lsn
        { r with scurry := (if 16384 ≤ kept.length then kept.drop 1 else kept) ++ [e] }
    | none => s
  | none => s

/-- SCURRY_READ (R349 to R352): sectors that Scurry decoded or rebuilt on a head. -/
def execScurryRead (t : Time) (h : Head) (sectors : List (Word × List Byte × List Byte)) (s : State) : Answer :=
  let s1 := s.at t
  .next (if s1.scurryOn h then sectors.foldl (fun u x => u.holdScurry h x) s1 else s1)

/-! Data fields (R327 to R341, R362 to R364). -/

/-- The beams of a head on which a defect span opened in a field (R363). -/
def State.openedIn (s : State) (h : Head) (field : Nat) : List Beam :=
  allBeams.filter fun b => (s.chan h b).spans.any fun d => d.start.1 == field

/-- A place is covered by a span of a radial defect: spans that opened on 3 or more beams of the head within one field (R363). -/
def State.radialAt (s : State) (h : Head) (p : Nat × Nat) : Bool :=
  allBeams.any fun b => (s.chan h b).spans.any fun d => d.covers p && decide (3 ≤ (s.openedIn h d.start.1).length)

/-- DATA_FIELD_READ (R327 to R341): one data field of a beam; spans that closed before the field before it are done with. -/
def execDataFieldRead (t : Time) (h : Head) (b : Beam) (f : FieldSense) (s : State) : Answer :=
  let s1 := s.at t
  .next (if s1.channelReads h b then
      (s1.updChan h b fun c => c.field (outward h (s1.hd h).layer) (s1.radialAt h) f).updChan h b fun c =>
        { c with spans := c.spans.filter fun d => !d.stop.any fun e => decide (e.1 + 1 < f.expected) }
    else s1)

/-- DEFECT_SPAN_OPEN (R362 to R364): with the third beam of the same field the event is a radial defect, logged once per
stripe. -/
def execDefectSpanOpen (t : Time) (h : Head) (b : Beam) (psa : Word) (field bit : Nat) (s : State) : Answer :=
  let s0 := s.at t
  .next (if !s0.channelReads h b then s0
    else
      let s1 := s0.updChan h b fun c => { c with spans := c.spans ++ [{ start := (field, bit) }], defectPsa := psa }
      let flagged := s1.openedIn h field
      match s1.stripeAt psa with
      | some (seq, _) =>
        if 3 ≤ flagged.length ∧ s1.rd.radialLogged.contains seq = false ∧
            s1.rd.assembly.any (fun a => a.seq == seq) = true then
          (s1.updRd fun r => { r with radialLogged := seq :: r.radialLogged }).log 0x0403
            [arg (Head.num h), (s1.chan h (flagged.headD 0)).defectPsa, arg flagged.length]
        else s1
      | none => s1)

/-- The open span of a channel closes at a place (R362). -/
def ReadChannel.closeSpan (c : ReadChannel) (p : Nat × Nat) : ReadChannel :=
  { c with spans := c.spans.map fun d => if d.stop.isNone then { d with stop := some p } else d }

/-- DEFECT_SPAN_CLOSE (R362). -/
def execDefectSpanClose (t : Time) (h : Head) (b : Beam) (field bit : Nat) (s : State) : Answer :=
  .next ((s.at t).updChan h b fun c => c.closeSpan (field, bit))

/-! The media scrub (R578, R579). -/

/-- The media scrub reads: enabled, mounted, not suspended by RECORD, and in RUN (R573). -/
def State.scrubbing (s : State) : Bool := s.rd.mediaScrub && s.mounted && !s.clipOpen && s.inRun

/-- Scurry has work on a head: it may run there and has room for another stripe (R349, R352). -/
def State.scurryWork (s : State) (h : Head) : Bool :=
  s.scurryOn h && decide (((s.rd.scurry.filter fun e => e.head == h).map (·.seq)).eraseDups.length < 40)

/-- A head is free for the media scrub: no review request wants it, no ladder runs on it, Scurry has no work there, and no
step of a CALIBRATE is to run there (R573). -/
def State.scrubMay (s : State) (h : Head) : Bool :=
  s.ladder h == 0 && !s.scurryWork h && !s.host.running.any fun r =>
    (r.heads.contains h && !r.need.isEmpty) || (r.op == .calibrate && r.calLeft.any fun u => u.2.1 == h)

/-- The head on whose side a stripe lies, by its STRIPE record. -/
def State.stripeHead (s : State) (seq : Nat) : Option Head :=
  (s.vmap.records.find? fun r => r.rtype == 9 && Word.fieldLE r.bytes 4 4 == seq).map fun r =>
    psaHead (BitVec.ofNat 32 (Word.fieldLE r.bytes 8 4))

/-- The stripe after one in the stream, the first one after the last written (R578). -/
def State.scrubAfter (s : State) (seq : Nat) : Nat := if s.mnt.nextStripe ≤ seq + 1 then 0 else seq + 1

/-- One stripe of the media scrub, the next in stream order: sequence, largest column erasure count, and whether the outer
code rebuilds it, which it cannot beyond 24 erasures in a column (R265, R578, R579). -/
def State.scrubStripe (s : State) (x : Nat × Nat × Bool) : State :=
  let lost := !x.2.2 || decide (24 < x.2.1)
  let weak := !lost && decide (12 < x.2.1)
  if x.1 ≠ s.rd.scrubNext ∨ s.mnt.nextStripe ≤ x.1 ∨ (s.stripeHead x.1).all s.scrubMay = false then s
  else
    let s1 :=
      if lost then s.log 0x0406 [arg x.1, arg x.2.1]
      else if weak then s.log 0x0405 [arg x.1, arg x.2.1]
      else s
    let c := s1.rd.scrubCounts
    let c' := (c.1 + 1, c.2.1 + weak.toNat, c.2.2 + lost.toNat)
    let done := decide (s1.mnt.nextStripe ≤ c'.1)
    let s2 := s1.updRd fun r => { r with scrubCounts := if done then (0, 0, 0) else c', scrubNext := s1.scrubAfter x.1 }
    if done then s2.log 0x0407 [arg c'.1, arg c'.2.1, arg c'.2.2] else s2

/-- MEDIA_SCRUB_READ (R578, R579): the stripes of one group that the scrub has read. -/
def execMediaScrubRead (t : Time) (stripes : List (Nat × Nat × Bool)) (s : State) : Answer :=
  let s1 := s.at t
  .next (if s1.scrubbing then stripes.foldl State.scrubStripe s1 else s1)

end Sys2Proof.Machine
end

