-- ==== Sys2Proof/Machine/RecordPath.lean ====
section
/-! DEFINITION. The record path: frame data, encoding, system sectors, slots, verify verdicts, stops and resumptions, and
parity errors on chip (01_hendun_medium, 02_frame_path, 06_volume_map_burrow, 08_write_lanes). -/

namespace Sys2Proof.Machine

/-! Frames arriving (R154) and clips closing (R149). -/

/-- The FRAME_APPEND that brings a frame runs. -/
def Running.appends (f : Frame) (r : Running) : Bool := r.op == .frameAppend && r.org == f.org && r.entry == f.entry

/-- FRAME_DMA_COMPLETE (R154): every DMA read of the frame has completed, so the frame is held in its slot. -/
def execFrameDmaComplete (t : Time) (clip : Word) (number : Nat) (data : List Byte) (s : State) : Answer :=
  let s1 := s.at t
  .next (match s1.findFrame clip number with
    | none => s1
    | some f =>
      if f.phase = .dma ∧ data.length = f.bytes then
        let s2 := s1.updFrame clip number fun x => { x with phase := .full, data := data }
        match s2.host.running.find? (Running.appends f) with
        | none => s2
        | some r => (s2.endRunning { r with alloc := .none } .success (BitVec.ofNat 64 number) []).spendInbound f.bytes
      else s1)

/-- A closing clip still waits for a frame: its DMA runs, or, on a forced close, it is not encoded (R149, R580, R581). -/
def ClosingClip.waits (c : ClosingClip) (f : Frame) : Bool :=
  f.clip == c.clip && decide (f.number < c.frames) && (f.phase == .dma || (c.reason != 0 && f.unencoded))

/-- CLIP_CLOSE_RECORD_QUEUED (R149): the oldest clip being closed has no FRAME_APPEND left to wait for. -/
def execClipCloseRecordQueued (t : Time) (s : State) : Answer :=
  let s1 := s.at t
  .next (match s1.rcd.closing with
    | [] => s1
    | c :: _ => if s1.rcd.frames.any c.waits then s1 else s1.queueCloseRecord.publish)

/-! Encoding frames (R51 to R53, R202). -/

/-- Encoding and system sectors may be placed: a session is open, its start sector has passed, recording is not stopped
and the power state is RUN (R274, R468). -/
def State.encoding (s : State) : Bool :=
  s.mountedRW && !s.mnt.startPending && (s.mnt.magazine == 4 || s.mnt.magazine == 6) && s.pwr.state == .run

/-- The first frame in slot order that is not encoded, if all its data are there (R51, R52). -/
def State.nextFrame (s : State) : Option (Frame × Nat) :=
  match s.rcd.frames.find? (fun f => f.phase != .encoded) with
  | none => none
  | some f =>
    match f.phase with
    | .full => some (f, 0)
    | .encoding n => some (f, n)
    | _ => none

/-- Set the first LSN and the timecode in a clip's opening record while it waits for its sector (log entry 18). -/
def State.fixOpening (s : State) (f : Frame) (lsn : Nat) : State :=
  let put := fun (bs : List Byte) => bs.take 20 ++ le 4 lsn ++ (bs.drop 24).take 4 ++ le 4 f.timecode.toNat ++ bs.drop 32
  let fix : VolRecord → VolRecord := fun r => if VolRecord.named 0x02 f.clip 0 r then { r with bytes := put r.bytes } else r
  let waits := s.rcd.records.any fun q => VolRecord.named 0x02 f.clip 0 q.vol && !q.packed
  let again : QueuedRecord → QueuedRecord := fun q => if q.packed then q else { q with vol := fix q.vol }
  if f.number = 0 ∧ waits = true then
    ({ s with vmap := { s.vmap with records := s.vmap.records.map fix } }).updRcd fun r =>
      { r with records := r.records.map again }
  else s

/-- Encode sector `i` of a frame into the next data position of the stream: it takes the next LSN (R31, R33, R53). A
discarded encoding has cost a counter value each time (R202, R290, R275). -/
def State.encodeOne (s : State) (f : Frame) (i lost : Nat) : Option State :=
  match s.ensureGroup with
  | none => none
  | some (h, s1) =>
    let s2 := s1.updMnt fun m => { m with counter := m.counter + lost }
    if !s2.counterRoom then none
    else
      match s2.nextPos h [] with
      | none => none
      | some (st, ix) =>
        let lsn := s2.mnt.nextLsn
        let psa := psaOf h st.layer st.zone st.group st.member (beamAt st.dead ix) (kAt st.dead ix)
        let s3 := (s2.stage h st ix (.data f.clip f.number) lsn (f.sector i)).updMnt fun m => { m with nextLsn := lsn + 1 }
        let s4 := { s3 with vmap := { s3.vmap with places := (lsn, psa) :: s3.vmap.places } }
        if i = 0 then some ((s4.updFrame f.clip f.number fun x => { x with firstLsn := some lsn }).fixOpening f lsn)
        else some s4

/-- A FRAME record (Table 6.3). -/
def frameRecord (f : Frame) : VolRecord :=
  mkRecord 0x04 f.clip.toNat f.number (le 4 f.clip.toNat ++ le 4 f.number ++ le 4 f.timecode.toNat)

/-- Encode a frame from sector `i` on, as far as positions last; `n` bounds the sectors. -/
def State.encodeFrame (s : State) (f : Frame) (discards : List Nat) (i : Nat) : Nat → State
  | 0 => s
  | n + 1 =>
    match s.encodeOne f i (discards.count i) with
    | none => s.updFrame f.clip f.number fun x => { x with phase := if i = 0 then .full else .encoding i }
    | some s1 =>
      if i + 1 = sectorsOf f.bytes then
        (s1.updFrame f.clip f.number fun x => { x with phase := .encoded }).addRecord (frameRecord f)
      else s1.encodeFrame f discards (i + 1) n

/-- A parity rebuild from the frame slots is complete (R200, R287). -/
def State.endRebuilds (s : State) : State :=
  s.updRcd fun r => { r with stripes := r.stripes.map fun st => { st with rebuilding := false } }

/-- FRAME_ENCODE (R51 to R53): the codec takes the next frame whose data are complete; `discards` are the sectors of it
whose encoding is discarded, each once for each discard (R202, R290). -/
def execFrameEncode (t : Time) (discards : List Nat) (s : State) : Answer :=
  let s1 := (s.at t).endRebuilds
  .next (if s1.encoding && !s1.rcd.stopped then
      match s1.nextFrame with
      | none => s1
      | some (f, i) => (s1.encodeFrame f discards i (sectorsOf f.bytes - i)).publish
    else s1)

/-! Going on after a stop (R23, R41). -/

/-- The earliest revolution of the layer in which a group may begin after a stop (R41). -/
def State.resumeRev (s : State) : Nat :=
  match s.rcd.headA.lastRev, s.rcd.headB.lastRev with
  | some a, some b => max a b + 3
  | some a, none => a + 3
  | none, some b => b + 3
  | none, none => 0

/-- Both heads go on at the first groups that R41 allows, on the beams that have a set there (R298, R322). -/
def State.resume (s : State) : State :=
  let n := 5000
  let early := fun (h : Head) (w : WriteHead) => decide (groupRev h w.layer w.swept w.group < s.resumeRev)
  (s.updRcd fun r =>
    { r with stopped := false, layerAt := none, headA := skipGroups .a (early .a) n r.headA
             headB := skipGroups .b (early .b) n r.headB }).retireInvalid

/-! System sectors (R210 to R212, R312, R704). -/

/-- Begin a group on a head that may begin one. -/
def State.openIfIdle (s : State) (h : Head) : State := if s.canOpen h then s.openGroup h else s

/-- The first sector waiting to be written on a head takes its next free data position. -/
def State.placeRewrite (s : State) (h : Head) : Option State :=
  match (s.wh h).rewrites with
  | [] => none
  | (k, text) :: rest =>
    let s1 := s.openIfIdle h
    (s1.placeSystem h k text).map fun u => u.updWh h fun w => { w with rewrites := rest }

/-- Pack the records at the front of the queue and place their first sector; the sectors a long record goes on in
follow on the same head (R210). -/
def State.placeRecords (s : State) : Option State :=
  if !s.sectorDue then none
  else
    match s.ensureGroup with
    | none => none
    | some (h, s1) =>
      match s1.packFront with
      | ([], _) => none
      | ((no, text) :: rest, s2) => (s2.placeSystem h (.system no) text).map fun u => u.pushSystem h rest

/-- Place the next AUX data sector; the side-pool space it held is free again (R704). -/
def State.placeAux (s : State) : Option State :=
  match s.rcd.auxQueue with
  | [] => none
  | (no, text, units) :: rest =>
    match s.ensureGroup with
    | none => none
    | some (h, s1) =>
      (s1.placeSystem h (.aux no) text).map fun u =>
        (u.updRcd fun r => { r with auxQueue := rest }).updDrey fun d => { d with sideUsed := d.sideUsed - units }

/-- Seal the session of a read-write mount; after a stop writing goes on first (R41, R584 step 3, R587). -/
def State.writeSeals (s : State) (reason dropped : Nat) : State :=
  let s1 := if s.rcd.stopped then s.resume else s
  (s1.sealSession reason dropped).updMnt fun m => { m with sealed := true }

/-- A running UNMOUNT seals its session once every accepted frame is encoded and every close record queued (R587). -/
def State.sealIfDue (s : State) : State :=
  if s.runs [.unmount] && s.mountedRW && !s.mnt.sealed && s.rcd.closing.isEmpty &&
    s.rcd.frames.all (fun f => f.phase == .encoded) then s.writeSeals 0 0 else s

/-- SYSTEM_SECTOR_WRITE (R210): the next system or AUX data sector is staged: one written again first, then queued
records where a sector is due, then auxiliary data. -/
def execSystemSectorWrite (t : Time) (s : State) : Answer :=
  let s1 := (s.at t).sealIfDue
  let tries : List (State → Option State) :=
    [(State.placeRewrite · .a), (State.placeRewrite · .b)] ++ (if s1.encoding then [State.placeRecords, State.placeAux] else [])
  .next (if s1.mountedRW then (firstSome (fun f => f s1) tries).getD s1 else s1)

/-! Slots (R19 to R23, R65, R201, R319). -/

/-- Why a sector that begins now will fail whatever is measured: its lane is OFF, or its head is not servo-ready (R315,
R318); 0 where nothing stands against it. -/
def State.slotDoom (s : State) (h : Head) (b : Beam) : Nat :=
  if !s.ldEn h || (s.beam h b).driverLost || s.laneHeld h then 4 else if !s.servoReady h then 5 else 0

/-- When the last channel bit of the slot that begins now passes (R690). -/
def State.slotEnds (s : State) (h : Head) : Time :=
  let w := s.wh h
  let n := 36 * w.group + w.slot
  s.now + (slotEndNs h w.layer w.swept n - slotBeginNs h w.layer w.swept n)

/-- One more data slot of the layer is written, with a relocated copy or without (R39, R319). -/
def WriteHead.countSlot (w : WriteHead) (kind : SectorKind) : WriteHead :=
  { w with
    layerSlots := w.layerSlots + 1
    layerCopies := w.layerCopies + (match kind with
      | .copy _ _ _ _ => 1
      | _ => 0) }

/-- A sector begins: it is in flight, and its lane writes it where it may; `dataSlot` where it lies in a data slot. -/
def State.startSector (s : State) (h : Head) (x : Sector) (dataSlot : Bool) : State :=
  let d := s.slotDoom h x.beam
  let s1 := s.updWh h fun w => { w with
    sectors := (w.sectors.filter fun z => !(z.seq == x.seq && z.index == x.index)) ++
      [{ x with inFlight := true, doomed := d, ends := s.slotEnds h }] }
  if d = 0 then
    let s2 := if dataSlot then s1.updWh h fun w => w.countSlot x.kind else s1
    (s2.updBeam h x.beam fun u => { u with written := u.written + 1, level := .write }).emit
      (.written h x.beam x.psa (sectorChannel x.header x.payload))
  else s1

/-- A sector at a position of a stripe, with its header and payload. -/
def sectorAt (st : Stripe) (kind : SectorKind) (i : Nat) (hdr payload : List Byte) : Sector :=
  { kind := kind, head := st.head, layer := st.layer, zone := st.zone, group := st.group, member := st.member
    beam := beamAt st.dead i, pos := kAt st.dead i, index := i
    psa := psaOf st.head st.layer st.zone st.group st.member (beamAt st.dead i) (kAt st.dead i)
    lsn := 0xFFFFFFFF, seq := st.seq, counter := 0, header := hdr, payload := payload }

/-- A pad sector begins; it takes a data slot where it lies in one, and where it is no padding after a stop it is an
underrun (R36, R40, R65). -/
def State.startPad (s : State) (h : Head) (st : Stripe) (i slot : Nat) (underrun : Bool) : State :=
  let psa := psaOf h st.layer st.zone st.group st.member (beamAt st.dead i) (kAt st.dead i)
  let hdr := headerOf 0xFFFFFFFF psa.toNat st.seq 0x04 (Word.zeros 12) (Word.zeros 16)
  let inData := decide (i < dataOf st.dead)
  let s1 := s.startSector h (sectorAt st .pad i hdr (Word.zeros 32768)) inData
  let s2 := if inData then s1.updMnt fun m => { m with usedSlots := m.usedSlots + 1 } else s1
  if underrun then s2.log 0x0101 [arg (Head.num h), arg st.group, arg slot] else s2

/-- A parity slot begins with the stripe's rebuild not complete, or after such a slot: a pad as for an underrun, and from the
first one on the stripe holds none of its data sectors (R201). -/
def State.startLostParity (s : State) (h : Head) (st : Stripe) (i slot : Nat) : State :=
  ((s.startPad h st i slot true).updStripe st.seq fun y => { y with noParity := true }).voidStripe st.seq 3

/-- What a beam writes in slot `n` of its head's group: its parity sector, its staged sector, or a pad (R19, R65, R201). A
beam without a valid calibration writes nothing and is retired (R50, R322). -/
def State.startBeam (s : State) (h : Head) (n : Nat) (b : Beam) : State :=
  match (s.groupStripes h)[memberOf n b]? with
  | none => s
  | some st =>
    if (s.beam h b).retired || st.dead == some b then s
    else if !s.valid50 h b then s.retireBeam h b 3
    else
      let i := orderIndex st.dead (posOf n) b
      if dataOf st.dead ≤ i then
        if st.noParity || st.rebuilding then s.startLostParity h st i n
        else
          let psa := psaOf h st.layer st.zone st.group st.member b (posOf n)
          let p := st.paritySector (i - dataOf st.dead) psa
          s.startSector h (sectorAt st .parity i p.1 p.2) false
      else
        match (s.wh h).sectors.find? (fun x => x.seq == st.seq && x.index == i && !x.inFlight) with
        | some x => s.startSector h x true
        | none => s.startPad h st i n (!(s.wh h).padding || (s.wh h).lost.contains (st.seq, i))

/-- The relocation steps of a layer (R39, R319): from the moment a head's copies exceed the share until the layer ends. -/
def WriteHead.steps (w : WriteHead) : WriteHead :=
  { w with over2 := w.over2 || decide (w.layerSlots < 50 * w.layerCopies)
           over8 := w.over8 || decide (8 * w.layerSlots < 100 * w.layerCopies) }

/-- A group ends with its last slot: its lanes go back to READ; a beam without a set for the next zone is retired (R40,
R298, R319, R322). The end of a layer's last slot is what the turnaround is timed from (R432). -/
def State.closeGroup (s : State) (h : Head) : State :=
  let ends := s.slotEnds h
  let s1 := if (WriteHead.advance h (s.wh h)).atEnd && decide ((s.wh h).layer < 11) then
      s.updRcd fun r => { r with turnAt := some (max ends (r.turnAt.getD 0)) }
    else s
  ((s1.updWh h fun w => { (w.advance h) with open3 := none, padding := false, slot := 0, lost := [] }).updBeams h fun u =>
    { u with level := if u.level = .off then .off else .read }).retireInvalid.checkGuarantee

/-- Writing sectors that wait for no frame: copies, or sectors to be written again. -/
def WriteHead.waits (w : WriteHead) : Bool := !w.relocs.isEmpty || !w.rewrites.isEmpty

/-- The head's next slot may begin now: while recording goes on, within a wedge interval of the moment that its position
gives (R24, R690); padding after a stop is not held to it (log entry 152). -/
def State.slotInTime (s : State) (h : Head) : Bool :=
  s.rcd.stopped || (s.slotDue h (s.wh h).slot).all fun d => decide ((d - (s.now : Int)).natAbs ≤ wedgeNs)

/-- The layer began where the slot that begins now puts its start (R690). -/
def State.anchor (s : State) (h : Head) : State :=
  let w := s.wh h
  s.updRcd fun r => { r with
    layerAt := some ((s.now : Int) - (slotBeginNs h w.layer w.swept (36 * w.group + w.slot) : Int)) }

/-- A slot of the head's group begins on every beam; after the last one the group is closed (R19, R40). -/
def State.beginSlot (s : State) (h : Head) : State :=
  let n := (s.wh h).slot
  let u := (allBeams.foldl (fun u b => u.startBeam h n b) (s.anchor h)).updWh h WriteHead.steps
  if n + 1 < 36 then (u.updWh h fun w => { w with slot := n + 1 }).checkGuarantee else u.closeGroup h

/-- SLOT_BEGIN (R65): the next slot of the head's group begins on every beam; a group begins for waiting copies. -/
def execSlotBegin (t : Time) (h : Head) (s : State) : Answer :=
  let s0 := s.at t
  let s1 := if (s0.wh h).open3.isNone && (s0.wh h).waits then s0.openIfIdle h else s0
  .next (if (s1.wh h).open3.isSome && s1.mountedRW && s1.slotInTime h then s1.beginSlot h else s1)

/-! Verdicts (R303 to R312, R320 to R323). -/

/-- A sector meets the criteria of Table 8.3; a pad is judged on mark and header only (R305). -/
def BeamState.passes (u : BeamState) (kind : SectorKind) (m : VerifyMeasure) : Bool :=
  let dev := ((m.beta : Int) - (u.betaTarget : Int)).natAbs
  m.markFound && decide (m.markOffset ≤ u.limMark) && decide (m.headerErrs ≤ u.limHeader) &&
    (kind == .pad || (m.syncsFound && m.cwErrs.all (fun e => decide (e ≤ u.limWord)) &&
      decide (100 * dev ≤ u.limBeta * u.betaTarget)))

/-- The MOUNT that runs completes with the session number once the session start sector has passed (R274, R126). -/
def State.mountDone (s : State) : State :=
  let s1 := s.updMnt fun m => { m with startPending := false }
  let s2 := s1.setMagazine 4
  match s2.host.running.find? (fun r => r.op == .mount) with
  | none => s2
  | some r => s2.endRunning r .success (BitVec.ofNat 64 s2.mnt.session) []

/-- The magazine leaves the mounted state at an UNMOUNT: the device section is written, retirements end, MK goes (R285,
R324, R409, R567). -/
def State.unmountNow (s : State) : State :=
  let clear := fun (u : BeamState) => { u with retired := false, trigger := 0 }
  let s1 := if s.mountedRW then s.writeBank else s
  ((s1.leaveMount.clearWrite.updBeams .a clear).updBeams .b clear).setMagazine 2

/-- Nothing of the session is left to write. -/
def State.drained (s : State) : Bool :=
  s.mnt.sealed && s.mnt.seals.isEmpty && s.rcd.auxQueue.isEmpty && bothHeads.all fun h =>
    (s.wh h).open3.isNone && (s.wh h).rewrites.isEmpty && ((s.wh h).relocs.isEmpty || !s.takesStripes h) && !(s.wh h).sectors.any (·.inFlight)

/-- An UNMOUNT completes once its seals have passed and the groups in progress are complete (R40, R587). -/
def State.settleUnmount (s : State) : State :=
  match s.host.running.find? (fun r => r.op == .unmount) with
  | none => s
  | some r => if s.drained && s.mountedRW then s.unmountNow.endRunning r .success 0 [] else s

/-- The clips whose close record leaves the queue when a system sector passes. -/
def State.closesIn (s : State) (no : Nat) : List Word :=
  (s.rcd.records.filter fun q => q.left == [no] && q.vol.rtype == 3).map (·.vol.key)

/-- The record queue when a system sector passes: a record leaves once every sector that holds it has passed (R212). -/
def sectorGone (no : Nat) (l : List QueuedRecord) : List QueuedRecord :=
  (l.map fun q => { q with left := q.left.filter (· != no) }).filter fun q => !(q.packed && q.left.isEmpty)

/-- A system sector passes: its records leave the queue, and the CLIP_CLOSE of a close record in it completes (R149,
R212). -/
def State.sysPassed (s : State) (no : Nat) : State :=
  let clips := s.closesIn no
  let s1 := (s.updRcd fun r => { r with
    passedSys := r.passedSys ++ [no], records := sectorGone no r.records }).updMnt fun m =>
      { m with seals := m.seals.filter (· != no) }
  let mine := s1.host.running.filter fun r => r.op == .clipClose && clips.contains (parm r.entry 0)
  mine.foldl (fun u r => u.endRunning r .success (BitVec.ofNat 64 ((u.closedCount (parm r.entry 0)).getD 0)) []) s1

/-- The RELOCATION record of a copy (R310, Table 8.4). -/
def relocRecord (x : Sector) (cause : Nat) (failed : Word) : VolRecord :=
  mkRecord 0x06 x.lsn 0 (le 4 x.lsn ++ le 4 x.psa.toNat ++ le 4 x.seq ++ le 4 failed.toNat ++
    [BitVec.ofNat 8 cause, 0, 0, 0])

/-- The first parity sector of a stripe to pass commits the counter values of the stripe (R271). -/
def State.commitCounter (s : State) (st : Stripe) : State :=
  if st.counterDone || !st.parts.any (fun p => Word.fieldLE p.2.1 12 1 != 3) then s
  else
    (s.updMnt fun m => { m with committed := some (max (m.committed.getD 0) st.maxCounter) }).updStripe st.seq fun y =>
      { y with counterDone := true }

/-- A sector passes (R56, R271, R309, R312). -/
def State.passSector (s : State) (x : Sector) : State :=
  let keep := s.updRcd fun r => { r with passed := r.passed ++ [(x.lsn, x.seq)] }
  match x.kind with
  | .data _ _ => keep
  | .copy _ _ cause failed =>
    let s1 := s.addReloc x.lsn x.psa.toNat x.seq (relocRecord x cause failed)
    if s1.vmap.burrow.entered x.lsn x.psa then s1.updRcd fun r => { r with passed := r.passed ++ [(x.lsn, x.seq)] } else s1
  | .parity =>
    match s.rcd.stripes.find? (fun st => st.seq == x.seq) with
    | none => s
    | some st => (s.updStripe x.seq fun y => { y with parityPassed := y.parityPassed ++ [x.index] }).commitCounter st
  | .pad => s
  | .system no => s.sysPassed no
  | .aux no => s.updRcd fun r => { r with passedSys := r.passedSys ++ [no] }
  | .sessionStart no =>
    ((s.updRcd fun r => { r with passedSys := r.passedSys ++ [no] }).updMnt fun m =>
      { m with committed := some (Word.fieldLE x.payload 4 8) }).mountDone

/-- Count a failed verdict, and retire the beam at 8 of its last 64; causes 4 and 5 take no place (R305, R321, R322). -/
def State.countVerdict (s : State) (h : Head) (b : Beam) (failed : Bool) (cause : Nat) : State :=
  let s1 := s.updBeam h b fun u => { u with
    failures := if failed then u.failures + 1 else u.failures
    history := if cause = 4 ∨ cause = 5 then u.history else (failed :: u.history).take 64 }
  if failed && decide (8 ≤ (s1.beam h b).history.count true) then s1.retireBeam h b 1 else s1

/-- One correction of a driver code from the measured beta (R300): at most two steps. -/
def betaCode (code beta target : Nat) : Nat :=
  let want := roundFree ((code : Int) * (9 * (target : Int) - (beta : Int))) (8 * target)
  (max 0 (min 1023 (max ((code : Int) - 2) (min ((code : Int) + 2) want)))).toNat

/-- The power correction after a sector (R300), or the retirement where WRITE would depart by more than 12 % (R301). -/
def State.trimBeta (s : State) (h : Head) (b : Beam) (beta : Nat) : State :=
  let u := s.beam h b
  if u.retired || u.betaTarget = 0 then s
  else
    let w := betaCode u.writeCode beta u.betaTarget
    if 12 * u.calWrite < 100 * ((w : Int) - (u.calWrite : Int)).natAbs then s.retireBeam h b 2
    else s.updBeam h b fun x => { x with writeCode := w, midCode := betaCode x.midCode beta x.betaTarget }

/-- The verdict of a sector may be known now: its last channel bit has passed (R304, R690), or it has failed already
(Table 8.5 step 4, R318). -/
def Sector.judged (x : Sector) (now : Time) : Bool := decide (x.ends ≤ now) || x.doomed != 0

/-- VERIFY_VERDICT (R303, R304): the oldest sector in flight of a beam is judged and leaves staging (R54); a beam whose
calibration is not valid gives no verdict and is retired (R49, R322). -/
def execVerifyVerdict (t : Time) (h : Head) (b : Beam) (m : VerifyMeasure) (s : State) : Answer :=
  let s1 := s.at t
  .next (match (s1.wh h).sectors.find? (fun x => x.beam == b && x.inFlight && x.judged s1.now) with
    | none => s1
    | some x =>
      if !s1.valid50 h b then (s1.retireBeam h b 3).publish.settleUnmount else
      let u := s1.beam h b
      let ok := x.doomed == 0 && u.passes x.kind m
      let cause := if x.doomed = 0 then 1 else x.doomed
      let s2 := s1.updWh h fun w => { w with sectors := w.sectors.erase x }
      let s3 := if ok then s2.passSector x else s2.failSector x cause
      let s4 := s3.countVerdict h b (!ok) (if ok then 0 else cause)
      let s5 := if x.doomed = 0 then s4.trimBeta h b m.beta else s4
      s5.publish.settleUnmount)

/-! Stops and resumptions (R40, R41). -/

/-- Nothing waits to be written. -/
def State.dry (s : State) : Bool :=
  s.nextFrame.isNone && s.rcd.auxQueue.isEmpty && !s.sectorDue && bothHeads.all fun h =>
    !(s.takesStripes h && (s.wh h).waits)

/-- Pad what is left of the groups in progress, and stop (R40). -/
def State.stopRecording (s : State) : State :=
  let f := fun (w : WriteHead) => { w with padding := w.open3.isSome }
  s.updRcd fun r => { r with stopped := true, headA := f r.headA, headB := f r.headB }

/-- STREAM_DRY (R40). -/
def execStreamDry (t : Time) (s : State) : Answer :=
  let s1 := s.at t
  .next (if s1.mountedRW && !s1.rcd.stopped && s1.dry then s1.stopRecording else s1)

/-- A head that takes stripes is able to write: its lasers are enabled and its loops are ready (R318). -/
def State.mayWrite (s : State) (h : Head) : Bool := !s.takesStripes h || (s.ldEn h && s.servoReady h)

/-- A session start sector that has failed still waits to be written, for which writing goes on (R274, R312). -/
def State.startWaits (s : State) : Bool :=
  s.mountedRW && s.mnt.startPending && s.pwr.state == .run && bothHeads.any fun h => !(s.wh h).rewrites.isEmpty

/-- RECORDING_RESUME (R41): after a stop, once both heads can write and no group is in progress. -/
def execRecordingResume (t : Time) (s : State) : Answer :=
  let s1 := s.at t
  .next (if (s1.encoding || s1.startWaits) && s1.rcd.stopped && s1.rd.excursion.isNone &&
      (bothHeads.all fun h => s1.mayWrite h && (s1.wh h).open3.isNone) then s1.resume else s1)

/-! Parity errors on chip (R66, R67, R200 to R202). -/

/-- A staged sector is lost before its slot begins: its position is kept for a pad, and a data sector is encoded again as a
copy (R66). -/
def State.stagingError (s : State) (h : Head) (b : Beam) : State :=
  match (s.staging h).find? (fun x => x.beam == b && !x.inFlight) with
  | none => s
  | some x =>
    let s1 := (s.updWh h fun w => { w with sectors := w.sectors.erase x, lost := (x.seq, x.index) :: w.lost }).updMnt
      fun m => { m with usedSlots := m.usedSlots - 1 }
    let s2 := s1.updStripe x.seq fun st => { st with
      parts := st.parts.filter fun p => p.1 != x.index, lsns := st.lsns.erase x.lsn }
    s2.failSector x 6

/-- The head and the beam for which the codec encodes a sector next: a copy or a sector written again on the head that
waits for one, else the next of the stream (R27, R306, R312). -/
def State.encodesFor (s : State) (h : Head) (b : Beam) : Bool :=
  let on := fun u : State => (u.nextPos h []).any fun x => beamAt x.1.dead x.2 == b
  let waits := s.mountedRW && s.pwr.state == .run && (s.wh h).waits && on (s.openIfIdle h)
  let stream := s.encoding && !s.rcd.stopped && (s.nextFrame.isSome || s.sectorDue || !s.rcd.auxQueue.isEmpty) &&
    s.ensureGroup.any fun x => x.1 == h && on x.2
  waits || stream

/-- A sector is discarded in encode working memory: its encoding has cost a counter value, and it is encoded again (R202,
R270, R272). -/
def State.encodeError (s : State) (h : Head) (b : Beam) : State :=
  if s.encodesFor h b && s.counterRoom then s.updMnt fun m => { m with counter := m.counter + 1 } else s

/-- The codeword that a beam's codeword buffers hold: the oldest that no engine has taken (R60, Table 2.3). -/
def State.buffered (s : State) (h : Head) (b : Beam) : Option PoolWord :=
  s.rd.pool.find? fun w => w.head == h && w.beam == b && !s.rd.taken.contains w

/-- SRAM_PARITY_ERROR (R66, R67, R202). -/
def execSramParityError (t : Time) (site : SramSite) (byte : Byte) (parity : Bool) (s : State) : Answer :=
  let s1 := s.at t
  .next (if !parityFails byte parity then s1 else match site with
    | .staging h b => s1.stagingError h b
    | .encode h b => s1.encodeError h b
    | .decrypt psa =>
      if s1.rd.holding.any fun x => x.1 == psa then
        (s1.updRd fun r => { r with holding := r.holding.filter fun x => x.1 != psa }).setPart psa .erased
      else s1
    | .codeword h b =>
      match s1.buffered h b with
      | none => s1
      | some w => (s1.updRd fun r => { r with pool := r.pool.erase w }).wordFailed w)

/-- PARITY_ACCUMULATOR_ERROR (R200): the parity of the stripe is built again from the frame slots. -/
def execParityAccumulatorError (t : Time) (h : Head) (member : Fin 3) (byte : Byte) (parity : Bool) (s : State) : Answer :=
  let s1 := s.at t
  .next (if !parityFails byte parity then s1 else match (s1.groupStripes h)[member.val]? with
    | none => s1
    | some st => s1.updStripe st.seq fun y => { y with rebuilding := true })

end Sys2Proof.Machine
end

