-- ==== Sys2Proof/Machine/Laser.lean ====
section
/-! DEFINITION. The laser safety chain, Quill's releases as they are withdrawn, the door, the presence of the magazine and
the laser driver bus (08_write_lanes R313 to R318 and R701, 14_quill R515, 16_modes R592 and R593, 18_balls R637 to R651). -/

namespace Sys2Proof.Machine

/-! Opening the chain (Table 8.5). -/

/-- The sectors in flight on a head are given a verdict FAIL with a cause (R315, R318). -/
def State.doomFlight (s : State) (h : Head) (cause : Nat) : State :=
  s.updWh h fun w => { w with sectors := w.sectors.map fun x =>
    if x.inFlight && x.doomed = 0 then { x with doomed := cause } else x }

/-- One head's chain opens: its lanes at OFF, its sectors in flight failed with cause 4, firmware's enable cleared
(Table 8.5, R317). -/
def State.cutLasers (s : State) (h : Head) : State :=
  ((s.doomFlight h 4).updBeams h fun b => { b with level := .off }).updHd h fun d =>
    { d with laserEnable := false, needRecapture := d.needRecapture || d.captured, captured := false, decoding := false
             closing := false }

/-- Trip some of a head's loops by role with a cause (Table 10.3). -/
def State.tripRoles (s : State) (h : Head) (roles : List Nat) (cause : Nat) : State :=
  roles.foldl (fun u r => u.tripSlot cause (headSlot h r)) s

/-- An opening of the chain counts as a stop (R593): groups in progress are padded. -/
def State.stopIfRecording (s : State) : State := if s.mountedRW && !s.rcd.stopped then s.stopRecording else s

/-- Both chains open by a pin: the steps that lose a precondition stop, the lasers go off, the head loops trip with cause
4, and recording stops (R315, R401, R552, R561, R593). -/
def State.openChains (s : State) (mask : Nat) : State :=
  let s1 := (s.abortSteps mask fun _ _ => true).stopCalibrate mask
  let s2 := (s1.cutLasers .a).cutLasers .b
  ((s2.tripRoles .a [0, 1, 2] 4).tripRoles .b [0, 1, 2] 4).stopIfRecording

/-- DOOR_SENSE_RISE (R315 steps 1, 2 and 4): DOOR and DARK cease to hold. No row shows a fall, so a rise while the pin
counts as high is a new one (log entry 25). -/
def execDoorSenseRise (t : Time) (s : State) : Answer :=
  let s1 := s.at t
  .next ((s1.updPins fun p => { p with doorSense := true, doorSince := s1.now, doorRose := s1.now }).openChains (2 ^ 0 + 2 ^ 5))

/-- LASER_ARM_DEASSERT (R315 steps 1, 2 and 4): ARM ceases to hold (log entry 25). -/
def execLaserArmDeassert (t : Time) (s : State) : Answer :=
  let s1 := s.at t
  .next ((s1.updPins fun p => { p with laserArm := false, armSince := s1.now }).openChains (2 ^ 2))

/-- The chain of one head opens because its release goes, and its four loops trip with cause 5 (Table 8.5 step 3). -/
def State.withdrawHead (s : State) (h : Head) : State :=
  ((s.cutLasers h).updHd h fun d => { d with release := false }).tripRoles h [0, 1, 2, 3] 5

/-- Quill withdraws every laser release and the motor-control release (R515): each chain opens, all four loops of each
head and slots 8 and 9 trip with cause 5, the spindle gates go off (Table 8.5 step 3, Table 10.3, R706). -/
def State.withdraw (s : State) : State :=
  let s1 := (s.abortSteps (2 ^ 2 + 2 ^ 7) fun _ _ => true).stopCalibrate (2 ^ 2 + 2 ^ 7)
  let s2 := ((s1.withdrawHead .a).withdrawHead .b).updQuill fun q => { q with motorRelease := false }
  (((s2.tripSlot 5 8).tripSlot 5 9).gatesOff).stopIfRecording

/-- QUILL_RELEASE_WITHDRAW (R515). -/
def execQuillReleaseWithdraw (t : Time) (s : State) : Answer := .next ((s.at t).withdraw)

/-! Leaving the mounted state by the door or by removal (R145, R592, R651). -/

/-- The commands whose end waits on the magazine, the spindle or the medium and that no read path ends. -/
def endsWithMagazine (o : Opcode) : Bool :=
  match o with
  | .mount | .unmount | .clipOpen | .clipClose | .frameAppend | .auxAppend | .metaWrite | .spindle => true
  | _ => false

/-- Every running media command but CALIBRATE ends with a status; a read keeps what it has delivered (R145). -/
def State.endMedia (s : State) (st : Status) : State :=
  let reads := s.host.running.filter fun r => r.op == .read || r.op == .frameRead || r.op == .metaRead
  (reads.foldl (fun u r => u.failRead r st) s).endAll (fun r => endsWithMagazine r.op) st 0

/-- The magazine leaves the mounted state: commands end, the slots of uncommitted frames are freed, queued records are
dropped, MK is erased (R145, R592). -/
def State.departMount (s : State) (st : Status) : State :=
  let s1 := (s.endMedia st).touchLink.updRcd fun r => { r with clip := none }
  (s1.loseFrames fun _ => true).clearWrite.leaveMount

/-- DOOR_DECLARED_OPEN (Table 8.5 step 5, R592): DOOR_SENSE has been high for 5 ms. -/
def execDoorDeclaredOpen (t : Time) (s : State) : Answer :=
  let s1 := s.at t
  .next (if s1.pins.doorSense && decide (s1.pins.doorRose + Config.ms 5 ≤ s1.now) then
      let s2 := (((s1.departMount .doorOpen).parkHead .a).parkHead .b).brakeSpindle
      (s2.setMagazine (if s2.pins.magPresent then 1 else 0)).endGroupM
    else s1)

/-- DOOR holds from now on where it may: DOOR_SENSE rose at least 5 ms ago, or is low (R702). MAGAZINE goes from door open
to present (Table 4.7, log entry 25). -/
def State.doorClosed (s : State) : State :=
  if s.pins.doorSince + Config.ms 5 ≤ s.now then
    let s1 := s.updPins fun p => { p with doorSense := false }
    if s1.mnt.magazine = 1 then s1.setMagazine 2 else s1
  else s

/-- The write-lane domain of a head (Table 13.2). -/
def laneDomain (h : Head) : Nat :=
  match h with
  | .a => 12
  | .b => 13

/-- LASER_REENABLE (R317): LASER_ARM has been asserted and DOOR_SENSE low for 5 ms, so firmware sets its enable where the
head's release is set and READ power comes up; never while the magazine turns in reverse (R417). -/
def execLaserReenable (t : Time) (h : Head) (s : State) : Answer :=
  let s1 := s.at t
  .next (if s1.pins.doorSince + Config.ms 5 ≤ s1.now ∧ s1.pins.armSince + Config.ms 5 ≤ s1.now then
      let s2 := s1.doorClosed.updPins fun p => { p with laserArm := true }
      if (s2.hd h).release && s2.pwr.domains.getLsbD (laneDomain h) && !s2.spin.reverse && decide (s2.pwr.pfStep < 5) then
        (s2.updHd h fun d => { d with laserEnable := true }).updBeams h fun b =>
          { b with level := if b.driverLost then .off else .read }
      else s2
    else s1)

/-- MAG_PRESENT_CHANGE (R650, R651): MAG_PRESENT_N has held its new level for 5 ms. -/
def execMagPresentChange (t : Time) (present : Bool) (s : State) : Answer :=
  let s1 := s.at t
  .next (if s1.pins.magPresent = present then s1
    else
      let s2 := s1.updPins fun p => { p with magPresent := present }
      if present then
        (s2.updMnt fun m => { m with stoppedByHost := false }).setMagazine (if s2.pins.doorSense then 1 else 2)
      else
        let s3 := if s2.mnt.magazine ≥ 3 then ((s2.departMount .magazineAbsent).parkHead .a).parkHead .b else s2
        (s3.brakeSpindle.setMagazine 0).endGroupM)

/-! The laser driver bus (R641, R642). -/

/-- The index of a level (Table 18.4). -/
def Level.index (l : Level) : Nat :=
  match l with
  | .off => 0
  | .read => 1
  | .cool => 2
  | .bias => 3
  | .mid => 4
  | .write => 5

/-- An LDCFG frame (Table 18.5). -/
def ldcfgWord (b : Beam) (l : Level) (code : BitVec 10) : Word :=
  BitVec.ofNat 32 (b.val * 2 ^ 27 + Level.index l * 2 ^ 24 + code.toNat * 2 ^ 14)

/-- Put a driver code in force (R295). -/
def BeamState.setCode (u : BeamState) (l : Level) (code : Nat) : BeamState :=
  match l with
  | .off => u
  | .read => { u with readCode := code }
  | .cool => { u with coolCode := code }
  | .bias => { u with biasCode := code }
  | .mid => { u with midCode := code }
  | .write => { u with writeCode := code }

/-- LDCFG_FRAME (R641, R642): a driver code is written; a frame returned wrong is sent once more, and wrong again holds
the lane at OFF and leaves the beam without a code set (R298). OFF has no code, so no frame names it. -/
def execLdcfgFrame (t : Time) (h : Head) (b : Beam) (level : Level) (code : BitVec 10) (echo1 echo2 : Word) (s : State) :
    Answer :=
  let s1 := s.at t
  let w := ldcfgWord b level code
  .next (if level = .off ∨ s1.pwr.domains.getLsbD (laneDomain h) = false then s1
    else
      let s2 := s1.emit (.ldcfg h w)
      if echo1 = w then s2.updBeam h b fun u => u.setCode level code.toNat
      else
        let s3 := s2.emit (.ldcfg h w)
        if echo2 = w then s3.updBeam h b fun u => u.setCode level code.toNat
        else (s3.updBeam h b fun u => { u with driverLost := true, level := .off }).retireInvalid)

end Sys2Proof.Machine
end

