-- ==== Sys2Proof/Machine/Moves.lean ====
section
/-! DEFINITION. The sleds, focus capture, layer and track jumps, parks, the layer turnaround, speculative pre-focus and the
gap trims (11_spindle_sled_moves, 15_bringup_calibration R549 and R550, 08_write_lanes R299 and R701). -/

namespace Sys2Proof.Machine

/-! Seeks (R423 to R425). -/

/-- The largest number below 2^n that satisfies a test that holds from 0 up to some number. -/
def largest (p : Nat → Bool) : Nat → Nat → Nat
  | 0, acc => acc
  | n + 1, acc => largest p n (if p (acc + 2 ^ n) then acc + 2 ^ n else acc)

/-- The profile time of a seek over `d` nm in ns (R424); fractions of a ns are dropped. In each range it is the largest T
that does not pass the formula, cleared of its quotients and roots. -/
def profileTime (p : SledProfile) (d : Nat) : Nat :=
  let v := 1000 * p.vMax
  let a := 1000 * p.aMax
  let j := 1000 * p.jMax
  if v * v * j + v * a * a ≤ d * a * j then 1000000000 * (d * a * j + v * v * j + a * a * v) / (v * a * j)
  else if 2 * a * a * a ≤ d * j * j then
    let near := fun x : Nat => x * j ≤ 1000000000 * a ∨
      (x * j - 1000000000 * a) * (x * j - 1000000000 * a) * a ≤ 1000000000000000000 * (a * a * a + 4 * d * j * j)
    largest (fun x => decide (near x)) 48 0
  else largest (fun x => decide (x * x * x * j ≤ 32000000000000000000000000000 * d)) 48 0

/-- The distance of two radii. -/
def distance (a b : Nat) : Nat := max a b - min a b

/-- The band that covers a radius in nm, within the data band of 32.0 to 70.0 mm (R689). -/
def bandAt (nm : Nat) : Option Nat :=
  if 32000000 ≤ nm ∧ nm < 70000000 then some ((nm - 32000000) * 8688 / 38000000) else none

/-- The servo domain runs (Table 13.2). -/
def State.servoOn (s : State) : Bool := s.pwr.domains.getLsbD 7

/-- Begin a seek to a radius, from where the sled stands (R424). -/
def State.startSeek (s : State) (h : Head) (nm : Nat) (band : Option Nat) : State :=
  s.updHd h fun d => { d with sledMode := .seek, seekNm := nm, seekBand := band, seekAt := s.now
                              seekTime := profileTime s.spin.sled (distance d.sledNm nm), parked := false, quiet := 0 }

/-- Begin to follow the spiral from a radius (R426). -/
def State.startFollow (s : State) (h : Head) (nm : Nat) : State :=
  s.updHd h fun d => { d with sledMode := .follow, sledNm := nm, seekBand := none, followN := 0, followTrim := 0
                              driveSum := (0, 0) }

/-- Enable the sled slot of a head where it is not. -/
def State.runSled (s : State) (h : Head) : State := s.enableSlot (headSlot h 3)

/-- SLED_SEEK (R424): to a radius within the travel of 30.5 to 70.5 mm, once step 6 has passed (Table 15.1); not in
reverse rotation (R417). -/
def execSledSeek (t : Time) (h : Head) (radiusNm : Nat) (s : State) : Answer :=
  let s1 := s.at t
  .next (if s1.servoOn && !s1.spin.reverse && (s1.calUnit 6 h 0).status == .passed && within 30500000 70500000 radiusNm then
      (s1.runSled h).startSeek h radiusNm (if s1.mounted then bandAt radiusNm else none)
    else s1)

/-- A decoded band lies 0 to 2 bands before the target in the head's sweep direction (R425). -/
def beforeBand (out : Bool) (target got : Nat) : Bool :=
  if out then decide (got ≤ target) && decide (target ≤ got + 2) else decide (target ≤ got) && decide (got ≤ target + 2)

/-- SEEK_SETTLED (R425): the profile is over and 32 samples in a row have been quiet. After a seek onto data the decoded band
decides between following the spiral and seeking again. -/
def execSeekSettled (t : Time) (h : Head) (band : Option Nat) (s : State) : Answer :=
  let s1 := s.at t
  let d := s1.hd h
  .next (if d.sledMode = .seek ∧ d.seekAt + d.seekTime ≤ s1.now ∧ 32 ≤ d.quiet then
      match d.seekBand, band with
      | some target, some got =>
        if beforeBand (outward h d.layer) target got then
          s1.startFollow h (bandRadius got)
        else (s1.updHd h fun x => { x with sledNm := bandRadius got }).startSeek h (bandRadius target) (some target)
      | _, _ => s1.updHd h fun x => { x with sledMode := .hold, sledNm := x.seekNm }
    else s1)

/-- Firmware gives a sled slot the source of its head's present state by APPLY (R423). -/
def State.sledSource (s : State) (h : Head) (decoding : Bool) : State :=
  let src : BitVec 3 := if !decoding then 2 else match h with
    | .a => 0
    | .b => 1
  (s.updSlot (headSlot h 3) fun k =>
    ({ k with shadow := { k.shadow with source := src, div := if decoding then 16 else 20 } }).apply).updHd h fun d =>
      { d with decoding := decoding }

/-- SLED_SOURCE_SWITCH (R423): decoding of wedges has started or stopped. -/
def execSledSourceSwitch (t : Time) (h : Head) (decoding : Bool) (s : State) : Answer :=
  let s1 := s.at t
  .next (if s1.servoOn && !(decoding && s1.spin.reverse) then s1.sledSource h decoding else s1)

/-! Focus capture (R428, R429, R701). -/

/-- Draw the focus drive at which a sweep or a jump ends (log entry 8). -/
def State.drawFocus (s : State) (h : Head) : State :=
  (s.updRcd fun r => { r with draws := r.draws + 1 }).updHd h fun d =>
    { d with genFocus := (Config.focusDrive s.rcd.draws).toInt }

/-- Focus is closed at a layer: firmware enables the focus slot, tilt and tracking follow (R428, R430). -/
def State.closeFocus (s : State) (h : Head) (layer : Nat) : State :=
  let s1 := (s.drawFocus h).updHd h fun d =>
    { d with captured := true, captureFailed := false, needRecapture := false, layer := layer, closing := true, parked := false
             prefocus := none }
  (s1.runSled h).reEnable (headSlot h 0)

/-- The lanes of a head that are not at OFF go to READ. -/
def State.lanesRead (s : State) (h : Head) : State :=
  s.updBeams h fun b => { b with level := if b.level = .off then .off else .read }

/-- Jump to a layer (R430): lanes to READ, tracking, tilt and focus IDLE with their generators holding, then focus again. -/
def State.jumpTo (s : State) (h : Head) (layer : Nat) : State :=
  let s1 := ([1, 2, 0] : List Nat).foldl (fun u r => u.disableSlot (headSlot h r)) (s.lanesRead h)
  s1.closeFocus h layer

/-- Three captures have failed: the head's loops are IDLE, its reads end, it takes no stripes (R429). -/
def State.captureFails (s : State) (h : Head) : State :=
  let s1 := ((s.idleSlots ((headSlots h).take 3)).clearReady h).updHd h fun d =>
    { d with captured := false, captureFailed := true, closing := false }
  let s2 := s1.log 0x050A [arg (Head.num h), arg (s.hd h).layer]
  let reads := s2.host.running.filter fun r => r.heads.contains h && !r.need.isEmpty
  (reads.foldl (fun u r => u.failRead r .mediaUnrecovered) s2).checkGuarantee

/-- A series of at most three capture attempts: the first that locks closes the loops on a layer, which the first decoded
wedge names, and a wrong layer is corrected by jumps to the one the head is to stand on; the third failure ends it. -/
def State.capture (s : State) (h : Head) (attempts : List CaptureSense) : State :=
  let l := attempts.take 3
  let target := (s.hd h).layer
  match l.find? (·.locked) with
  | some c => if c.layer = target then s.closeFocus h target else (s.closeFocus h c.layer).jumpTo h target
  | none => if l.length = 3 then s.captureFails h else s

/-- A head's lasers are at READ and its servo domain runs, so a sweep can be made. -/
def State.canSweep (s : State) (h : Head) : Bool := s.ldEn h && s.servoOn && !s.spin.reverse && s.mnt.magazine ≥ 2

/-- FOCUS_CAPTURE (R428, R429). -/
def execFocusCapture (t : Time) (h : Head) (attempts : List CaptureSense) (s : State) : Answer :=
  let s1 := s.at t
  .next (if s1.canSweep h && !(s1.hd h).captured then s1.capture h attempts else s1)

/-- HEAD_RECAPTURE (R701): after an opening of the chain, once READ power is back. -/
def execHeadRecapture (t : Time) (h : Head) (attempts : List CaptureSense) (s : State) : Answer :=
  let s1 := s.at t
  .next (if s1.canSweep h && (s1.hd h).needRecapture then s1.capture h attempts else s1)

/-! Jumps (R430, R431). -/

/-- LAYER_JUMP (R430); a jump of several layers is a sequence of single ones. -/
def execLayerJump (t : Time) (h : Head) (target : Nat) (s : State) : Answer :=
  let s1 := s.at t
  .next (if s1.canSweep h && (s1.hd h).captured && decide (target ≤ 11) && target != (s1.hd h).layer then s1.jumpTo h target
    else s1)

/-- TRACK_JUMP (R431): for step 5 of the retry ladder, by one track. -/
def execTrackJump (t : Time) (h : Head) (outward : Bool) (s : State) : Answer :=
  let s1 := s.at t
  let n : Int := if outward then 1 else -1
  .next (if (s1.hd h).captured && s1.ladder h == 5 then
      let s2 := s1.disableSlot (headSlot h 1)
      (s2.updHd h fun d => { d with trackOffset := d.trackOffset + n
                                    genTrack := sat16 (d.genTrack + n * Config.trackPitchDrive) }).enableSlot (headSlot h 1)
    else s1)

/-! Parks (R427, R439). -/

/-- PARK (R427). -/
def execPark (t : Time) (h : Head) (s : State) : Answer :=
  let s1 := s.at t
  .next (if s1.servoOn then s1.parkHead h else s1)

/-- EMERGENCY_PARK (R439). -/
def execEmergencyPark (t : Time) (s : State) : Answer := .next ((s.at t).emergencyPark)

/-! Pre-focus (R434, R435). -/

/-- SPECULATIVE_PREFOCUS (R434): Scurry has stopped at a layer end and nothing else wants the head. -/
def execSpeculativePrefocus (t : Time) (h : Head) (s : State) : Answer :=
  let s1 := s.at t
  .next (if s1.scurryOn h && (s1.hd h).captured && decide ((s1.hd h).layer < 11) then
      s1.updHd h fun d => { d with prefocus := some (d.layer + 1) }
    else s1)

/-! The layer turnaround (R432, R433). -/

/-- A correction of the loop gain in 1/1,024 stays within 6 dB (Table 15.4): 10^(6/20) is 1.99526. -/
def gainOk (g : Nat) : Bool := within 514 2043 g

/-- A coefficient scaled by a correction in 1/1,024. -/
def scaled (x : Q15) (g : Nat) : Q15 := toQ (sat16 (divAway (q x * g) 1024))

/-- The loop gain trim of one focus or tracking slot, then APPLY (Table 15.4); a correction above 6 dB is discarded
(R550). -/
def State.gainTrim (s : State) (x : LoopId × Nat) : State :=
  if decide (x.1.val < 8) && decide (x.1.val % 4 < 2) && gainOk x.2 then
    s.updSlot x.1 fun k => ({ k with shadow := { k.shadow with kp := scaled k.cfg.kp x.2, ki := scaled k.cfg.ki x.2
                                                               kd := scaled k.cfg.kd x.2 } }).apply
  else s

/-- One head turns to the next layer (Table 11.5): where its address checks it closes its loops there and follows the spiral
in the reversed direction, else its loops stay IDLE and its sled holds. -/
def State.turnHead (s : State) (h : Head) (ok : Bool) : State :=
  let w := s.wh h
  let s1 := s.updWh h fun x => { x with layer := w.layer + 1, swept := 0, group := 0, atEnd := false, lastRev := none }
  let s1 := s1.retireInvalid
  if ok then ((s1.jumpTo h (w.layer + 1)).sledSource h true).startFollow h (s.hd h).sledNm
  else ((((s1.lanesRead h).sledSource h false).idleSlots ((headSlots h).take 3)).clearReady h).updHd h fun d =>
    { d with sledMode := .hold }

/-- A head has reached the layer end, or takes no stripes (R432). -/
def State.atLayerEnd (s : State) (h : Head) : Bool := (s.wh h).atEnd || !s.takesStripes h

/-- The turnaround of 54 revolutions after the 8,688 bands of a layer, from the layer's start, in ns at record speed (R29). -/
def turnaroundNs : Nat := 8742 * 1000000000 / 180

/-- LAYER_TURNAROUND (R29, R432): on both heads at once; `gains` are the corrections that step 5 found. The first slot of
the new layer lies 54 revolutions after the last band of the layer before. -/
def execLayerTurnaround (t : Time) (okA okB : Bool) (gains : List (LoopId × Nat)) (s : State) : Answer :=
  let s1 := s.at t
  .next (if s1.mountedRW && s1.atLayerEnd .a && s1.atLayerEnd .b && ((s1.wh .a).atEnd || (s1.wh .b).atEnd) &&
      decide ((s1.wh .a).layer < 11) && s1.rd.excursion.isNone then
      let s2 := (s1.turnHead .a okA).turnHead .b okB
      (gains.foldl State.gainTrim s2).updRcd fun r => { r with turnAt := some (r.turnAt.getD s1.now), layerAt := r.layerAt.map (· + (turnaroundNs : Int)) }
    else s1)

/-- TURNAROUND_TIMEOUT (R433): without SERVO_READY on both heads 290 ms after the layer's last slot it counts as a stop. -/
def execTurnaroundTimeout (t : Time) (s : State) : Answer :=
  let s1 := s.at t
  .next (match s1.rcd.turnAt with
    | none => s1
    | some a =>
      if a + Config.ms 290 ≤ s1.now then
        let s2 := s1.updRcd fun r => { r with turnAt := none }
        if s2.servoReady .a && s2.servoReady .b then s2 else s2.stopIfRecording
      else s1)

/-! Gap trims (Table 15.4, R550). -/

/-- A trim of a beam was applied or needed nothing; marks stay (R550, R555). -/
def State.trimKept (s : State) (h : Head) (b : Beam) (i : Fin 3) : State :=
  s.updBeam h b fun u => { u with trimDiscards := Vec.upd u.trimDiscards i fun n => if 4 ≤ n then n else 0 }

/-- A trim of a beam was discarded: four in a row mark the beam CAL_SUSPECT and end its validity (R550, R322). -/
def State.trimLost (s : State) (h : Head) (b : Beam) (i : Fin 3) : State :=
  let n := (s.beam h b).trimDiscards[i] + 1
  let s1 := s.updBeam h b fun u => { u with trimDiscards := Vec.upd u.trimDiscards i fun k => min 4 (k + 1) }
  if n = 4 then ((s1.updBeam h b fun u => { u with suspect := true }).raise evCalSuspect).retireInvalid else s1

/-- Trims run after bring-up, on a head whose lasers are on (R549). -/
def State.trims (s : State) (h : Head) (b : Beam) : Bool := !s.cal.bringup && s.ldEn h && (s.beam h b).level != .off

/-- AFE_OFFSET_TRIM (Table 15.4): `dev` is the sum over 64 wedges of the blank field's departures from mid-code in LSB. -/
def execAfeOffsetTrim (t : Time) (h : Head) (b : Beam) (dev : Int) (s : State) : Answer :=
  let s1 := s.at t
  let u := s1.beam h b
  let want := if 32 < dev then u.adcOffset - 1 else if dev < -32 then u.adcOffset + 1 else u.adcOffset
  .next (if !s1.trims h b then s1
    else if 32 < (want - u.calOffset).natAbs then s1.trimLost h b 0
    else (s1.updBeam h b fun x => { x with adcOffset := want }).trimKept h b 0)

/-- READ_POWER_TRIM (R299): `mean` is the blank-field level over 64 wedges, in the unit of the target. -/
def execReadPowerTrim (t : Time) (h : Head) (b : Beam) (mean : Nat) (s : State) : Answer :=
  let s1 := s.at t
  let u := s1.beam h b
  let off := decide (2 * u.readTarget < 100 * ((mean : Int) - u.readTarget).natAbs)
  let want := if !off then u.readCode else if mean < u.readTarget then min 1023 (u.readCode + 1) else u.readCode - 1
  .next (if !s1.trims h b then s1
    else if off && decide (15 * u.calRead < 100 * ((want : Int) - u.calRead).natAbs) then s1.trimLost h b 1
    else (s1.updBeam h b fun x => { x with readCode := want }).trimKept h b 1)

/-- LASER_REFERENCE_TRIM (Table 15.4): the starting codes of R300 are set from the slope, within the limit of R301. -/
def execLaserReferenceTrim (t : Time) (h : Head) (b : Beam) (slope : Nat) (s : State) : Answer :=
  let s1 := s.at t
  let u := s1.beam h b
  let w := min 1023 (Config.startCode slope u.calSlope u.writeCode)
  let m := min 1023 (Config.startCode slope u.calSlope u.midCode)
  .next (if !s1.trims h b then s1
    else if 30 * u.calSlope < 100 * ((slope : Int) - u.calSlope).natAbs then s1.trimLost h b 2
    else
      let s2 := s1.trimKept h b 2
      if 12 * u.calWrite < 100 * ((w : Int) - u.calWrite).natAbs then s2.retireBeam h b 2
      else s2.updBeam h b fun x => { x with writeCode := w, midCode := m })

end Sys2Proof.Machine
end

