-- ==== Sys2Proof/Machine/Queues.lean ====
section
/-! DEFINITION. Queue pairs, doorbells, arbitration and fetch (03_host_link_tenants; the pools of 05_drey_buffers). -/

namespace Sys2Proof.Machine

/-- A BAR write of a function: it is discarded while the function is not ready (R698). -/
def State.barWrite (s : State) (fn : FnId) (k : State → State) : State :=
  if (s.func fn).ready then k s else s.emit (.discarded fn)

/-- An ignored doorbell write sets DBERR and logs DOORBELL_ERROR (R85). -/
def State.doorbellError (s : State) (fn : FnId) (q : QId) (idx : Nat) : State :=
  (s.updQueue fn q fun u => { u with dberr := true }).log 0x0102 [arg fn.val, arg q.val, arg idx]

/-- A doorbell wakes the link from L1. -/
def State.wakeLink (s : State) : State := s.updHost fun h => { h with link := { h.link with l1 := false } }

/-- A submission tail doorbell write (R84, R85). -/
def sqDoorbell (fn : FnId) (q : QId) (value : Word) (s : State) : State :=
  let idx := fieldOf value 9 0
  let p := s.queue fn q
  if !p.enable || decide (p.depth ≤ idx) then s.doorbellError fn q idx
  else s.wakeLink.updQueue fn q fun u => { u with sqTail := idx }

/-- SQ_TAIL_DOORBELL (R84). -/
def execSqTailDoorbell (t : Time) (fn : FnId) (q : QId) (value : Word) (s : State) : Answer :=
  .next ((s.at t).barWrite fn (sqDoorbell fn q value))

/-- A completion head doorbell write (R85, R86). -/
def cqDoorbell (fn : FnId) (q : QId) (value : Word) (s : State) : State :=
  let idx := fieldOf value 9 0
  let p := s.queue fn q
  if !p.active || decide (p.depth ≤ idx) then s.doorbellError fn q idx
  else (s.wakeLink.updQueue fn q fun u => { u with cqHead := idx }).flushHeld fn q p.depth

/-- CQ_HEAD_DOORBELL (R86). -/
def execCqHeadDoorbell (t : Time) (fn : FnId) (q : QId) (value : Word) (s : State) : Answer :=
  .next ((s.at t).barWrite fn (cqDoorbell fn q value))

/-- The fields of a control word that a write sets; DEPTH_LOG2 and VECTOR stay while ACTIVE is 1 (R78, R80). -/
def QueuePair.setFields (p : QueuePair) (fn : FnId) (w : Word) : QueuePair :=
  { p with
    policyHalt := w.getLsbD 29
    urgent := w.getLsbD 28 && fn == 0
    depthLog2 := if p.active then p.depthLog2 else BitVec.ofNat 4 (fieldOf w 27 24)
    vector := if p.active then p.vector else BitVec.ofNat 6 (fieldOf w 21 16)
    coalCount := BitVec.ofNat 8 (fieldOf w 15 8)
    coalTime := BitVec.ofNat 8 (fieldOf w 7 0) }

/-- Enabling a queue pair, or refusing to (R79, R81, R160). -/
def QueuePair.tryEnable (p : QueuePair) : QueuePair :=
  if p.active || !within 4 10 p.depthLog2.toNat then { p with cfgerr := true }
  else { p with
    enable := true, active := true, halted := false, fetcherr := false, sqHead := 0, cqTail := 0, sqTail := 0, cqHead := 0,
    haltOrder := 0, phase := true, held := [], waiting := [], heldFetch := none, unsignalled := 0, firstUnsignalled := none }

/-- Take a queue out of the order of held FRAME_APPENDs. -/
def State.dropHeldOrder (s : State) (fn : FnId) (q : QId) : State :=
  s.updHost fun h => { h with heldOrder := h.heldOrder.filter fun x => !(x.1 == fn && x.2 == q) }

/-- The lock is held by this queue. -/
def Lock.ownedBy (fn : FnId) (q : QId) (l : Lock) : Bool := l.ownerFn == fn && l.ownerQ == q

/-- Setting ENABLE to 0: fetch stops, unstarted entries are dropped, waiting acquires leave, and the queue's locks are
freed with ABANDONED set (R112, R113). -/
def State.deleteQueue (s : State) (fn : FnId) (q : QId) : State :=
  let s1 := (((s.dropUnstarted fn q).dropWaiters fn q).dropHeldOrder fn q).updQueue fn q fun u =>
    { u with enable := false, heldFetch := none }
  s1.abandonLocks (Lock.ownedBy fn q)

/-- A write of a control word (R78 to R81, R111, R112). -/
def State.writeCtrl (s : State) (fn : FnId) (q : QId) (w : Word) : State :=
  let was := (s.queue fn q).enable
  let s1 := s.updQueue fn q fun u => u.setFields fn w
  let s2 := if w.getLsbD 30 then s1.updQueue fn q fun u => { u with halted := false } else s1
  if w.getLsbD 31 && !was then s2.updQueue fn q QueuePair.tryEnable
  else if !w.getLsbD 31 && was then s2.deleteQueue fn q
  else s2

/-- QUEUE_ENABLE (R79, R81): a control word with ENABLE 1, written while ENABLE is 0. -/
def execQueueEnable (t : Time) (fn : FnId) (q : QId) (ctrl : Word) (s : State) : Answer :=
  .next ((s.at t).barWrite fn fun u =>
    if ctrl.getLsbD 31 && !(u.queue fn q).enable then u.writeCtrl fn q ctrl else u)

/-- QUEUE_DELETE (R112): a control word with ENABLE 0, written while ENABLE is 1. -/
def execQueueDelete (t : Time) (fn : FnId) (q : QId) (ctrl : Word) (s : State) : Answer :=
  .next ((s.at t).barWrite fn fun u =>
    if !ctrl.getLsbD 31 && (u.queue fn q).enable then u.writeCtrl fn q ctrl else u)

/-- A started command of the queue has not ended. -/
def State.queueBusy (s : State) (fn : FnId) (q : QId) : Bool :=
  s.host.running.any (fun r => r.org.fn == fn && r.org.q == q && !r.org.uart && !r.org.silent) ||
    s.host.deferred.any (fun d => d.cmd.org.fn == fn && d.cmd.org.q == q && !d.cmd.org.uart)

/-- QUEUE_DELETION_COMPLETE (R112, R113): ACTIVE reads 0 once started commands have ended, held completions are
written and the locks are settled. -/
def execQueueDeletionComplete (t : Time) (fn : FnId) (q : QId) (s : State) : Answer :=
  let s1 := s.at t
  let p := s1.queue fn q
  .next (if p.active && !p.enable && !s1.queueBusy fn q && p.held.isEmpty then
      (s1.abandonLocks (Lock.ownedBy fn q)).updQueue fn q fun u => { u with active := false }
    else s1)

/-- RESTART (R111): a control word with RESTART 1 written while the queue stays enabled. -/
def execRestart (t : Time) (fn : FnId) (q : QId) (ctrl : Word) (s : State) : Answer :=
  .next ((s.at t).barWrite fn fun u =>
    if ctrl.getLsbD 30 && ctrl.getLsbD 31 == (u.queue fn q).enable then u.writeCtrl fn q ctrl else u)

/-! Admission at fetch (05_drey_buffers). -/

/-- The part of the external buffer that the zero fill has covered, in bytes (R190, R191). -/
def State.covered (s : State) : Nat :=
  match s.dram.fillStart with
  | none => 0
  | some t => (s.now - t) * 8

/-- Take a frame slot of `n` bytes at the tail of the ring (R165); none when it does not fit, or lies in memory the
zero fill has not covered (R191). -/
def State.takeSlot (s : State) (n : Nat) : Option (Nat × State) :=
  let d := s.rcd.drey
  let rest := Config.framePool - d.tail
  let skip := if n ≤ rest then 0 else rest
  let start := if n ≤ rest then d.tail else 0
  if s.occupancy + skip + n ≤ Config.framePool ∧ start + n ≤ s.covered then
    let blocks := (if skip = 0 then [] else [{ slot := none, bytes := skip }]) ++
      [({ slot := some d.nextSlot, bytes := n } : Block)]
    some (d.nextSlot, (s.updDrey fun x => { x with
      ring := ringTrim (x.ring ++ blocks), tail := start + n, nextSlot := x.nextSlot + 1
      allocs := (s.now, n) :: inWindow s.now x.allocs }))
  else none

/-- Units of a pool at `base` that the zero fill has covered, of `total` units of `unit` bytes. -/
def State.coveredUnits (s : State) (base unit total : Nat) : Nat := min total ((s.covered - base) / unit)

/-- Take a review slot of `n` units: the function's reserve first, then the shared part (R170). -/
def State.takeReview (s : State) (fn : FnId) (n : Nat) : Option (Alloc × State) :=
  let d := s.rcd.drey
  let own := min n (Config.reviewUnits - d.reviewOwn[fn])
  let shared := n - own
  let used := (d.reviewOwn.toList.sum) + d.reviewShared
  if d.reviewShared + shared ≤ Config.reviewUnits ∧ used + n ≤ s.coveredUnits Config.reviewBase 32768 (4 * Config.reviewUnits) then
    some (.review own shared, s.updDrey fun x => { x with
      reviewOwn := Vec.upd x.reviewOwn fn (· + own), reviewShared := x.reviewShared + shared })
  else none

/-- Take `n` units of the side pool (R171). -/
def State.takeSide (s : State) (n : Nat) : Option (Alloc × State) :=
  if s.rcd.drey.sideUsed + n ≤ s.coveredUnits Config.sideBase 4096 Config.sideUnits then
    some (.side n, s.updDrey fun x => { x with sideUsed := x.sideUsed + n })
  else none

/-- FRAME_BYTES of the profile in force for a FRAME_APPEND fetched now: that of the last CLIP_OPEN, or CLIP_CLOSE with
a next profile, fetched before it and not started, else that of the open clip (R164, R141). -/
def State.profileAhead (s : State) : Option Nat :=
  let waiting := ((List.finRange 32).flatMap fun q => (s.queue 0 q).waiting) ++ s.host.deferred.map (·.cmd)
  let given := fun f : Fetched =>
    match Opcode.ofCode f.entry.opcode with
    | some .clipOpen => some (f.order, (parm f.entry 1).toNat)
    | some .clipClose => if parm f.entry 1 = 0 then none else some (f.order, (parm f.entry 2).toNat)
    | _ => none
  let best := (waiting.filterMap given).foldl (fun acc x =>
    match acc with
    | none => some x
    | some y => if y.1 < x.1 then some x else some y) (none : Option (Nat × Nat))
  match best with
  | some b => some b.2
  | none => s.rcd.clip.map (·.prof.frameBytes)

/-- The frame a FRAME_READ names occupies a slot, so the read takes no review slot (R170). -/
def State.servedFromSlot (s : State) (e : Entry) : Bool := (s.findFrame (parm e 0) (parm e 1).toNat).isSome

/-- What fetching an entry takes: none where it must be held at fetch (R88, R165, R169 to R172). A command that will be
refused for its function or LENGTH takes nothing. -/
def State.allotSpace (s : State) (fn : FnId) (e : Entry) (headOfHeld : Bool) : Option (Alloc × State) :=
  match Opcode.ofCode e.opcode with
  | none => some (.none, s)
  | some o =>
    if !Opcode.allowed o fn || !lengthOk o e || s.quill.recovery || s.rcd.drey.outOfService then some (.none, s)
    else
      match o with
      | .frameAppend =>
        match s.profileAhead with
        | none => some (.none, s)
        | some n =>
          if !within 1 268435456 n then some (.none, s)
          else if !s.host.heldOrder.isEmpty && !headOfHeld then none
          else (s.takeSlot (sectorsOf n * 32768)).map fun r => (.frame r.1, r.2.watchOccupancy)
      | .read | .metaRead => s.takeReview fn ((e.length.toNat + 32767) / 32768)
      | .frameRead =>
        if s.servedFromSlot e then some (.none, s) else s.takeReview fn ((e.length.toNat + 32767) / 32768)
      | .auxAppend | .metaWrite => s.takeSide ((e.length.toNat + 4095) / 4096)
      | _ => some (.none, s)

/-- The timecode a FRAME_APPEND fetched now takes, with the latch that R681 makes at the fetch (R680, R681). -/
def State.latchTimecode (s : State) : State :=
  let recent := match s.sync.lastEdge with
    | none => false
    | some e => decide (s.now ≤ e + Config.ms 100)
  if recent then s
  else s.updSync fun y => { y with latched := s.sync.toLatch s.now }

/-- The next ring index. -/
def QueuePair.nextHead (p : QueuePair) : Nat := (p.sqHead + 1) % p.depth

/-- Move a fetched entry behind the waiting ones; SQHEAD passes it. -/
def State.pushFetched (s : State) (fn : FnId) (q : QId) (e : Entry) (a : Alloc) : State :=
  let s1 := if Opcode.ofCode e.opcode = some .frameAppend then s.latchTimecode else s
  let p := s1.queue fn q
  let f : Fetched := { org := { fn := fn, q := q, sqIndex := p.sqHead, order := s1.host.fetchOrder }, entry := e
                       alloc := a, timecode := s1.sync.latched }
  (s1.updQueue fn q fun u => { u with waiting := u.waiting ++ [f], sqHead := p.nextHead, heldFetch := none }).updHost
    fun h => { h with fetchOrder := h.fetchOrder + 1 }

/-- Complete the held FRAME_APPEND at the head of a queue with BUFFER_FULL_RETRY (R178). -/
def State.bufferFull (s : State) (fn : FnId) (q : QId) (e : Entry) : State :=
  let r := s.rates
  let detail := BitVec.ofNat 64 (mbRound r.1 * 2 ^ 32 + mbRound r.2)
  let p := s.queue fn q
  ((s.updQueue fn q fun u => { u with sqHead := p.nextHead, heldFetch := none }).dropHeldOrder fn q).complete
    { fn := fn, q := q, sqIndex := p.sqHead, order := s.host.fetchOrder } e .bufferFullRetry detail []

/-- Hold an entry at fetch (R88, R172, R177); a FRAME_APPEND with FULL_WAIT_MS 0 completes as soon as it is held
(R178). -/
def State.holdFetch (s : State) (fn : FnId) (q : QId) (e : Entry) : State :=
  let isFrame := Opcode.ofCode e.opcode == some .frameAppend
  let s1 := s.updQueue fn q fun u => { u with heldFetch := some { entry := e, since := s.now, waitMs := s.params.fullWaitMs } }
  if !isFrame then s1
  else
    let s2 := s1.updHost fun h => { h with heldOrder := h.heldOrder ++ [(fn, q)] }
    if s.params.fullWaitMs = 0 then s2.bufferFull fn q e else s2

/-- A queue has an entry the T36 may fetch (R87, R88, R108). -/
def State.fetchable (s : State) (fn : FnId) (q : QId) : Bool :=
  let p := s.queue fn q
  (s.func fn).ready && p.enable && !p.halted && decide (0 < p.available) && p.heldFetch.isNone &&
    decide (p.held.length < 64) && !s.host.fetchStopped

/-- Fetch entries of one queue in ring order until one is held (R84, R88, R90). -/
def State.fetchAll (s : State) (fn : FnId) (q : QId) : List (List Byte) → State
  | [] => s
  | bs :: rest =>
    if s.fetchable fn q then
      let e := entryOf bs
      match s.allotSpace fn e false with
      | some (a, s1) => (s1.pushFetched fn q e a).fetchAll fn q rest
      | none => s.holdFetch fn q e
    else s

/-- The arbitration weight of a function; 0 acts as 1 (R91, Table 3.6). -/
def Arbiter.weight (a : Arbiter) (fn : Nat) : Nat :=
  max 1 (match fn with
    | 0 => a.w0.toNat
    | 1 => a.w1.toNat
    | 2 => a.w2.toNat
    | _ => a.w3.toNat)

/-- The first of 32 queues, from `start` in round robin, that satisfies a test. -/
def roundRobin (start : Nat) (p : QId → Bool) : Option QId :=
  ((List.range 32).map fun i => (Fin.ofNat 32 (start + i) : QId)).find? p

/-- The queue that arbitration selects, and the arbiter after the turn (R90): the urgent class first, then weighted
round robin among functions and round robin among the queues of one function. -/
def State.arbitrate (s : State) : Option ((FnId × QId) × Arbiter) :=
  let a := s.host.arb
  let urgent := fun q : QId => (s.queue 0 q).urgent && s.fetchable 0 q
  match roundRobin a.nextUrgent urgent with
  | some q => some ((0, q), { a with nextUrgent := (q.val + 1) % 32 })
  | none =>
    let normal := fun (fn : FnId) (q : QId) => s.fetchable fn q && !(fn == 0 && (s.queue 0 q).urgent)
    let tryFn := fun n : Nat =>
      let fn : FnId := Fin.ofNat 4 n
      (roundRobin a.next[fn] (normal fn)).map fun q => (fn, q)
    let first := if a.credit = 0 then none else tryFn a.cur
    match first with
    | some (fn, q) =>
      some ((fn, q), { a with credit := a.credit - 1, next := Vec.upd a.next fn fun _ => (q.val + 1) % 32 })
    | none =>
      match firstSome tryFn [a.cur + 1, a.cur + 2, a.cur + 3, a.cur + 4] with
      | none => none
      | some (fn, q) =>
        some ((fn, q), { a with cur := fn.val, credit := a.weight fn.val - 1
                                next := Vec.upd a.next fn fun _ => (q.val + 1) % 32 })

/-- COMMAND_FETCH (R90): one turn of arbitration; `entries` are the bytes read from the selected ring, at most four
and no more than are available. -/
def execCommandFetch (t : Time) (entries : List (List Byte)) (s : State) : Answer :=
  let s1 := s.at t
  .next (match s1.arbitrate with
    | none => s1
    | some ((fn, q), a) =>
      let s2 := s1.updHost fun h => { h with arb := a }
      s2.fetchAll fn q (entries.take (min 4 (s1.queue fn q).available)))

/-- FETCH_READ_ERROR (R691): the queue halts whatever its policy; SQHEAD stays, nothing is posted. -/
def execFetchReadError (t : Time) (fn : FnId) (q : QId) (addr : DWord) (s : State) : Answer :=
  let s1 := s.at t
  .next (if s1.fetchable fn q then
      ((s1.setHalted fn q).updQueue fn q fun u => { u with fetcherr := true }).logError fn (BitVec.ofNat 16 q.val)
        (BitVec.ofNat 16 (s1.queue fn q).sqHead) 0 true .dmaError 0 addr
    else s1)

/-- COALESCE_TIMER_EXPIRY (R78): COAL_TIME units of 10 µs have passed since the first unsignalled completion. -/
def execCoalesceTimerExpiry (t : Time) (fn : FnId) (q : QId) (s : State) : Answer :=
  let s1 := s.at t
  let p := s1.queue fn q
  .next (match p.firstUnsignalled with
    | none => s1
    | some f =>
      if p.coalTime ≠ 0 ∧ f + p.coalTime.toNat * 10000 ≤ s1.now then
        (s1.updQueue fn q fun u => { u with unsignalled := 0, firstUnsignalled := none }).msix fn p.vector
      else s1)

/-! Inbound bandwidth (R92). -/

/-- F0's budget of one window: 1.25 × D × 1 ms bytes while a clip is open (R92). -/
def State.inboundBudget (s : State) : Nat :=
  match s.rcd.clip with
  | none => 0
  | some c => c.prof.rate * 125 / 100000

/-- A function has DMA pending in the inbound direction: frames of F0 that arrive (R92). -/
def State.inboundPending (s : State) (fn : FnId) : Bool :=
  s.rcd.frames.any fun f => f.phase == .dma && f.org.fn == fn

/-- F0's inbound DMA has strict priority: a clip is open and the window's budget is not used up (R92). -/
def State.f0First (s : State) : Bool := s.clipOpen && decide (0 < s.host.arb.budget) && s.inboundPending 0

/-- The part of some inbound bandwidth that a function gets of what F0's priority leaves, by the weights of the functions
with pending DMA (R92). -/
def Arbiter.share (a : Arbiter) (pending : FnId → Bool) (total : Nat) (fn : FnId) : Nat :=
  let w := (((List.finRange 4).filter pending).map fun f => a.weight f.val).sum
  if pending fn ∧ w ≠ 0 then total * a.weight fn.val / w else 0

/-- INBOUND_BUDGET_WINDOW (R92): at the first moment of a window the budget is set anew, without carry-over; the windows
are 1 ms long, fixed and consecutive. -/
def execInboundBudgetWindow (t : Time) (s : State) : Answer :=
  let s1 := s.at t
  let n := s1.now / 1000000
  .next (if s1.host.arb.window < n then
      s1.updHost fun h => { h with arb := { h.arb with budget := s1.inboundBudget, window := n, beyond := 0 } }
    else s1)

/-- A command, a held completion or an open clip keeps the link out of L1 (R71). -/
def State.linkBusy (s : State) : Bool :=
  s.clipOpen || !s.host.running.isEmpty || !s.host.deferred.isEmpty ||
    s.host.funcs.toList.any (fun f => f.queues.toList.any fun p => !p.waiting.isEmpty || !p.held.isEmpty) ||
    s.host.locks.toList.any (fun l => !l.waiters.isEmpty)

/-- ASPM_L1_ENTRY (R71): only after 100 µs without any of these. -/
def execAspmL1Entry (t : Time) (s : State) : Answer :=
  let s1 := s.at t
  .next (if s1.host.link.up && !s1.linkBusy && decide (s1.host.link.idleSince + 100000 ≤ s1.now) then
      s1.updHost fun h => { h with link := { h.link with l1 := true } }
    else s1)

/-- CONFIG_REQUEST_NOT_READY (R698): what a function that is not ready answers. -/
def execConfigRequestNotReady (t : Time) (fn : FnId) (req : HostAccess) (s : State) : Answer :=
  let s1 := s.at t
  .next (if (s1.func fn).ready then s1
    else
      match req with
      | .configRead | .configWrite | .configFlr => s1.emit (.retryStatus fn)
      | .barRead n => s1.emit (.allOnes fn n)
      | .barWrite => s1.emit (.discarded fn))

/-- HELD_FETCH_RESUME (R177, R179): space has become free for the entry held at the head of a queue. -/
def execHeldFetchResume (t : Time) (fn : FnId) (q : QId) (s : State) : Answer :=
  let s1 := s.at t
  let p := s1.queue fn q
  .next (match p.heldFetch with
    | none => s1
    | some h =>
      if p.halted || s1.host.fetchStopped || decide (64 ≤ p.held.length) then s1
      else
        match s1.allotSpace fn h.entry (s1.host.heldOrder.head? == some (fn, q)) with
        | some (a, s2) => (s2.pushFetched fn q h.entry a).dropHeldOrder fn q
        | none => s1)

/-- FULL_WAIT_EXPIRY (R178): a FRAME_APPEND held for the FULL_WAIT_MS in force when it was first held. -/
def execFullWaitExpiry (t : Time) (fn : FnId) (q : QId) (s : State) : Answer :=
  let s1 := s.at t
  let p := s1.queue fn q
  .next (match p.heldFetch with
    | none => s1
    | some h =>
      if Opcode.ofCode h.entry.opcode = some .frameAppend ∧ p.halted = false ∧ h.since + Config.ms h.waitMs ≤ s1.now then
        s1.bufferFull fn q h.entry
      else s1)

/-- RATE_DEFICIT_REPEAT (R175): every 100 ms while A stays at or above W. -/
def execRateDeficitRepeat (t : Time) (s : State) : Answer :=
  let s1 := s.at t
  .next (match s1.rcd.drey.lastRaise with
    | none => s1
    | some l => if s1.warnLevel ≤ s1.occupancy ∧ l + Config.ms 100 ≤ s1.now then s1.rateDeficit else s1)

end Sys2Proof.Machine
end

