-- ==== Sys2Proof/Machine/Links.lean ====
section
/-! DEFINITION. Resets of functions and of the link, and the reset of the whole part (03_host_link_tenants R115 to R120,
R697 to R699; 14_quill R523; 12_handshake R700). -/

namespace Sys2Proof.Machine

/-! The function-level reset (Table 3.8). -/

/-- A command of a function over PCI Express. -/
def Origin.ofFn (fn : FnId) (o : Origin) : Bool := o.fn == fn && !o.uart

/-- The started commands of a function are settled (R697): frames still arriving are abandoned, power requests go on
without anyone to tell (R498), and every other command runs to its end inside the T36 without a completion. -/
def State.settleStarted (s : State) (fn : FnId) : State :=
  let mine := s.host.running.filter fun r => r.org.ofFn fn
  let gone := fun r : Running => r.op == .frameAppend || r.op == .powerState
  let s1 := (mine.filter gone).foldl (fun u r => u.dropRunning r) s
  let hush : Running → Running := fun r => if r.org.ofFn fn then { r with org := { r.org with silent := true } } else r
  s1.updHost fun h => { h with running := h.running.map hush }

/-- The frames of F0 whose DMA is incomplete are discarded, and their slots are freed; every frame whose DMA is complete
is kept (R117). -/
def State.dropArriving (s : State) : State :=
  let gone := s.rcd.frames.filter fun x => x.phase == .dma && !x.org.uart
  let n := fun c : Word => (gone.filter fun x => x.clip == c).length
  (gone.foldl (fun u f => (u.dropFrame f).forgetFrame f) s).updRcd fun r => { r with
    clip := r.clip.map fun k => { k with nextFrame := k.nextFrame - n k.prof.clip }
    closing := r.closing.map fun k => { k with frames := k.frames - n k.clip } }

/-- The commands of a function that have been fetched and not started are dropped, with what they took at fetch. -/
def State.dropFetched (s : State) (fn : FnId) : State :=
  let mine := s.host.deferred.filter fun d => d.cmd.org.ofFn fn
  let s1 := mine.foldl (fun u d => u.freeAlloc fn d.cmd.alloc) s
  let s2 := s1.updHost fun h => { h with deferred := h.deferred.filter fun d => !d.cmd.org.ofFn fn
                                         heldOrder := h.heldOrder.filter fun x => x.1 != fn }
  (List.finRange 32).foldl (fun u q => (u.dropUnstarted fn q).dropWaiters fn q) s2

/-- The power requests of a function stay, without anyone to tell (R498). -/
def State.orphanPower (s : State) (fn : FnId) : State :=
  let f : Requester → Requester := fun r =>
    match r with
    | .command o _ => if o.ofFn fn then .internal else r
    | _ => r
  s.updPwr fun w => { w with runBy := s.pwr.runBy.map f, pendBy := s.pwr.pendBy.map f }

/-- The registers of a function after its reset: the epoch has advanced, the error log page stays (R77, R110). -/
def Func.afterReset (f : Func) (fn : FnId) : Func :=
  { epoch := f.epoch + 1, inReset := true, errLog := f.errLog, errSeq := f.errSeq
    queues := if fn = 0 then Vector.replicate 32 { policyHalt := true } else Vector.replicate 32 {} }

/-- The clip-close record after the last frame kept, with close reason FUNCTION_RESET (R118, step 4 of Table 3.8). -/
def State.closeForReset (s : State) : State :=
  let c := if s.clipOpen then s.closeClip 1 else s
  c.queueAllClose c.rcd.closing.length

/-- Steps 1 to 5 of Table 3.8 for some functions at once (R115): at each step every function of the list is served before
the next step, so that no lock is granted to a function that is being reset (R120). From then on the functions answer under
R698, until they have passed step 6. -/
def State.resetFns (s : State) (fns : List FnId) : State :=
  let s1 := fns.foldl (fun u fn => (u.settleStarted fn).dropFetched fn) s
  let s2 := if fns.contains 0 then s1.dropArriving else s1
  let s3 := s2.abandonLocks fun l => fns.contains l.ownerFn
  let s4 := if fns.contains 0 then s3.closeForReset else s3
  (fns.foldl (fun u fn => (u.orphanPower fn).updFunc fn fun f => f.afterReset fn) s4).publish

/-- A reset of one function (Table 3.8). -/
def State.resetFn (s : State) (fn : FnId) : State := s.resetFns [fn]

/-- FUNCTION_LEVEL_RESET (R114, R117 to R120, R697): a function that is not ready answers with Retry Status (R698). -/
def execFunctionLevelReset (t : Time) (fn : FnId) (s : State) : Answer :=
  let s1 := s.at t
  .next (if (s1.func fn).ready then s1.resetFn fn else s1.emit (.retryStatus fn))

/-! The link (R115, R699). -/

/-- The functions that a reset of the link resets: one whose reset is in progress is reset once, and goes on from the step
it has reached (R699). -/
def State.toReset (s : State) : List FnId := (List.finRange 4).filter fun fn => !(s.func fn).inReset

/-- All four functions are reset at once; they answer under R698 until the link has trained again (R115, R699). -/
def State.resetLink (s : State) : State :=
  (s.resetFns s.toReset).updHost fun h => { h with
    funcs := h.funcs.map fun f => { f with ready := false, inReset := true }
    link := { h.link with up := false, l1 := false } }

/-- LINK_DOWN (R115, R699): only while the link is up. -/
def execLinkDown (t : Time) (s : State) : Answer :=
  let s1 := s.at t
  .next (if s1.host.link.up then s1.resetLink else s1)

/-- HOT_RESET (R115, R699). -/
def execHotReset (t : Time) (s : State) : Answer :=
  let s1 := s.at t
  .next (if s1.host.link.up then s1.resetLink else s1)

/-- LINK_DISABLED (R115, R699): the link trains again when the downstream port brings it out of that state. -/
def execLinkDisabled (t : Time) (s : State) : Answer :=
  let s1 := s.at t
  let s2 := if s1.host.link.up then s1.resetLink else s1
  .next (s2.updHost fun h => { h with link := { h.link with disabled := true } })

/-! The reset of the part (R116, R523, R700). -/

/-- What a bridge keeps through a reset: its counters (R462). -/
def Bridge.afterReset (b : Bridge) : Bridge := { number := b.number, flushed := b.flushed, overflows := b.overflows }

/-- What Quill keeps through a reset: its OTP, its flash and what lasts until power-up (R502, R505, R524, R528). -/
def QuillState.afterReset (q : QuillState) : QuillState :=
  { seed := q.seed, serial := q.serial, certificate := q.certificate, keyHashes := q.keyHashes, revoked := q.revoked
    authHashes := q.authHashes, floors := q.floors, lk := q.lk, lkLocked := q.lkLocked, lkBad := q.lkBad, epoch := q.epoch
    rbgOk := q.rbgOk, slotA := q.slotA, slotB := q.slotB, floorRequest := q.floorRequest, bootRecord := q.bootRecord
    rbg := q.rbg, seedings := q.seedings }

/-- What Vole keeps through a reset: its flash and what is counted from power-up; records not programmed are lost (R610,
R615, R625, R626, R696). -/
def VoleState.afterReset (v : VoleState) : VoleState :=
  { sectors := v.sectors, cur := v.cur, dropped := v.dropped, deferred := v.deferred, restarts := v.restarts
    integrator := v.integrator, bank0 := v.bank0, bank1 := v.bank1 }

/-- What Dormouse keeps through a reset (R491). -/
def Power.afterReset (p : Power) : Power :=
  { state := .park, exitFrom := p.exitFrom, byReplay := p.byReplay, lastWake := p.lastWake, storm := p.storm
    edges := p.edges, lastEvent := p.lastEvent, stormLog := p.stormLog, railCore := p.railCore, railMain := p.railMain, railLog := p.railLog
    vaon := p.vaon }

/-- A rotor that turns when the gates go off coasts (R706). -/
def Spindle.afterReset (p : Spindle) : Spindle :=
  { params := p.params, state := if p.state = 0 then 0 else 6, rpm := p.rpm, reverse := p.reverse, starts := p.starts
    stalls := p.stalls, trips := p.trips }

/-- A head after a reset: its sled stands where it stood. -/
def HeadState.afterReset (d : HeadState) : HeadState := { sledNm := d.sledNm, parked := d.parked }

/-- What Burrow keeps until the next power-up: the rows out of service, the spares in their place and the degraded state
(R249, R251). -/
def BurrowState.afterReset (t : BurrowState) : BurrowState :=
  { degraded := t.degraded, spares := t.spares, removed := t.removed, exhausted := t.exhausted }

/-- The reset of everything but Dormouse (R116). Frames not committed are lost; OTP, flash, the VCORE request and what
lasts until power-up stay. -/
def State.coreReset (s : State) : State :=
  { State.reset with
    pending := s.pending
    now := s.now
    perstAt := s.perstAt
    host := { sent := s.host.sent }
    rcd := { drey := { outOfService := s.rcd.drey.outOfService }, draws := s.rcd.draws }
    vmap := { burrow := s.vmap.burrow.afterReset }
    spin := s.spin.afterReset
    hdA := s.hdA.afterReset
    hdB := s.hdB.afterReset
    pins := s.pins
    pace := { vcore := s.pace.vcore, prevVcore := s.pace.prevVcore, chains := s.pace.chains.map fun c => { faulty := c.faulty } }
    bridges := s.bridges.map Bridge.afterReset
    pwr := s.pwr.afterReset
    quill := s.quill.afterReset
    vole := s.vole.afterReset }

/-- What lasts until the next power-up goes (R199, R249, R251, R462, R467, R505, R615, R626). -/
def State.forgetPower (r : State) : State :=
  let clean : Nat × LogSector → Nat × LogSector := fun x => (x.1, { x.2 with bad := false })
  { r with
    rcd := { draws := r.rcd.draws }
    vmap := {}
    spin := { r.spin with starts := 0, stalls := 0, trips := 0 }
    pace := { vcore := r.pace.vcore, prevVcore := r.pace.prevVcore }
    bridges := []
    quill := { r.quill with rbgOk := true }
    vole := { r.vole with sectors := r.vole.sectors.map clean, dropped := 0, restarts := 0 } }

/-- A power-up of VAON: what lasts until power-up is gone too, Dormouse starts afresh, VCORE stands at 0.75 V (R700). -/
def State.powerUp (s : State) : State :=
  let r := s.coreReset.forgetPower
  { r with
    pins := { r.pins with perst := true, pgood := true, vcoreLow := false }
    pace := {}
    pwr := State.reset.pwr
    quill := { r.quill with bootRecord := [] }
    vole := { r.vole with deferred := [] } }

/-- PERST_N asserts (R116). -/
def State.assertPerst (s : State) : State := (s.coreReset).updPins fun p => { p with perst := true }

/-- The low level of PERST_N is acted on: not below 1 µs, always from 100 µs on, either way between (R671). -/
def perstActs (n lowNs : Nat) : Bool :=
  decide (100000 ≤ lowNs) || (decide (1000 ≤ lowNs) && Config.perstShort n)

/-- The power-fail sequence runs and has not reached step 6 within its 8 ms (R683). -/
def State.inPowerFail (s : State) : Bool := within 1 5 s.pwr.pfStep && decide (s.now < s.pwr.pfAt + Config.ms 8)

/-- PERST_N_ASSERTION (R116, R488, R671, R683): ignored in TORPOR and HIBERNATE, deferred by a power-fail sequence. -/
def execPerstNAssertion (t : Time) (lowNs : Nat) (s : State) : Answer :=
  let s1 := s.at t
  let s2 := if within 1000 99999 lowNs then s1.updRcd fun r => { r with draws := r.draws + 1 } else s1
  .next (if !perstActs s1.rcd.draws lowNs then s2
    else if s1.pwr.state = .torpor ∨ s1.pwr.state = .hibernate then s2
    else if s1.inPowerFail then s2.updPwr fun w => { w with perstDeferred := true }
    else s2.assertPerst)

/-- DEFERRED_PERST (R683): step 6 of the power-fail sequence has been reached, or 8 ms have passed. -/
def execDeferredPerst (t : Time) (s : State) : Answer :=
  let s1 := s.at t
  .next (if s1.pwr.perstDeferred && !s1.inPowerFail then s1.assertPerst else s1)

/-- VAON_POWER_UP (R491, R700). -/
def execVaonPowerUp (t : Time) (s : State) : Answer := .next ((s.at t).powerUp)

/-- The reset of step 5 of R523: as at PERST_N assertion, with the releases withdrawn first (R515). -/
def State.activateReset (s : State) : State := s.withdraw.coreReset

/-- QUILL_FAULT (R534): releases go, the part is reset, and the fault is logged at the next boot (R528). -/
def execQuillFault (t : Time) (cls : Word) (s : State) : Answer :=
  let s1 := (s.at t).activateReset
  .next (s1.updQuill fun q => { q with bootRecord := s1.quill.bootRecord ++ [(0x0708, [cls])] })

end Sys2Proof.Machine
end

