-- ==== Sys2Proof/Machine/Quill.lean ====
section
/-! DEFINITION. Quill: slots, measurements, boot and release, update, attestation, unlock, LK programming and the start of
Vole (14_quill_secure_start; R604 to R610, R625 of 17_vole_management; R190, R196, R197, R199 of 05_drey_buffers). -/

namespace Sys2Proof.Machine

/-! Slots and measurements (R508 to R512). -/

/-- The bytes `from` on, `n` of them. -/
def slice (bs : List Byte) (start n : Nat) : List Byte := (bs.drop start).take n

/-- A number in a slot header (Table 14.2). -/
def FwSlot.num (x : FwSlot) (off n : Nat) : Nat := Word.fieldLE x.header off n

/-- SEQUENCE of a header (Table 14.2). -/
def FwSlot.seq (x : FwSlot) : Nat := x.num 8 4

/-- IMAGE_LENGTH of a header (Table 14.2). -/
def FwSlot.len (x : FwSlot) : Nat := x.num 12 4

/-- A stage entry: offset, length and digest (R508). -/
def FwSlot.stage (x : FwSlot) (i : Nat) : Nat × Nat × List Byte :=
  (x.num (32 + 64 * i) 4, x.num (36 + 64 * i) 4, slice x.header (40 + 64 * i) 48)

/-- Two byte ranges do not overlap. -/
def apart (a b : Nat × Nat × List Byte) : Bool := decide (a.1 + a.2.1 ≤ b.1) || decide (b.1 + b.2.1 ≤ a.1)

/-- Every stage lies within the image, none overlap, every digest matches (R509). -/
def FwSlot.stagesOk (x : FwSlot) : Bool :=
  (List.range 4).all fun i =>
    let e := x.stage i
    decide (e.1 + e.2.1 ≤ x.len) && sha384 (slice x.image e.1 e.2.1) == e.2.2 &&
      (List.range i).all fun j => apart (x.stage j) e

/-- The fuse floor (Table 14.1). -/
def QuillState.floor (q : QuillState) : Nat := q.floors.headD 0

/-- The first condition of R509 that a slot fails, 1 to 5. -/
def QuillState.slotFails (q : QuillState) (x : FwSlot) : Option Nat :=
  let key := slice x.header 288 97
  let ix := x.num 7 1
  if !(x.num 0 4 == 0x31485351 && x.num 4 2 == 1 && x.num 6 1 == 0xC0) then some 1
  else if !(decide (ix < 4) && sha384 key == q.keyHashes.getD ix [] && !q.revoked.getLsbD ix) then some 2
  else if !ecdsaVerify key (sha384 (slice x.header 0 4000)) (slice x.header 4000 96) then some 3
  else if !x.stagesOk then some 4
  else if x.seq < q.floor then some 5
  else none

/-- Extend a measurement register (R511). -/
def QuillState.extend (q : QuillState) (i : Fin 8) (d : List Byte) : QuillState :=
  { q with measures := Vec.upd q.measures i fun m => sha384 (m ++ d) }

/-- Extend M6 with an event (R512). -/
def QuillState.event (q : QuillState) (code argument : Nat) : QuillState := q.extend 6 (sha384 (le 2 code ++ le 6 argument))

/-- The OTP fields other than the seed, LK and the certificate, in the order of Table 14.1. -/
def QuillState.otpBytes (q : QuillState) : List Byte :=
  q.serial ++ q.keyHashes.flatten ++ [q.revoked.setWidth 8] ++ q.authHashes.flatten ++ q.floors.reverse.flatMap (le 4) ++
    le 2 q.epoch

/-- M0 at boot step 1 (Table 14.3). -/
def QuillState.measureRom (q : QuillState) : QuillState :=
  (q.extend 0 Config.maskRomDigest.toList).extend 0 (Config.otpDigest q.otpBytes).toList

/-! The flash (R562, R601). -/

/-- The regions of the boot flash (Table 15.5, Table 17.1). -/
inductive FlashRegion where
  | slotA
  | slotB
  | integrator
  | bank0
  | bank1
  | quillRecord
  | reserved
  | eventLog
deriving DecidableEq, Repr

/-- The region a flash byte lies in; none beyond the flash (R562, R601). -/
def flashRegion (a : Nat) : Option FlashRegion :=
  if a < 0x01000000 then some .slotA
  else if a < 0x02000000 then some .slotB
  else if a < 0x02040000 then some .integrator
  else if a < 0x02140000 then some .bank0
  else if a < 0x02240000 then some .bank1
  else if a < 0x02250000 then some .quillRecord
  else if a < 0x03000000 then some .reserved
  else if a < 0x04000000 then some .eventLog
  else none

/-- Vole writes the log and the integrator section, and no other region (R601). -/
def FlashRegion.voleWrites (r : FlashRegion) : Bool := r == .eventLog || r == .integrator

/-- The flash address of record `k` of a log sector (Table 17.1): 256 sectors of 64 KiB. -/
def logAddress (sector k : Nat) : Nat := 0x03000000 + 0x10000 * sector + 64 * k

/-- A slot by its number. -/
def QuillState.slotOf (q : QuillState) (n : Nat) : FwSlot := if n = 0 then q.slotA else q.slotB

/-- The slots in the order in which Quill verifies them (R510). -/
def QuillState.candidates (q : QuillState) : List Nat := if q.slotA.seq < q.slotB.seq then [1, 0] else [0, 1]

/-- Verify candidates in order: the first valid one, and the rejected ones with their failed condition (R510). -/
def QuillState.choose (q : QuillState) : List Nat → Option Nat × List (BitVec 16 × List Word)
  | [] => (none, [])
  | n :: rest =>
    match q.slotFails (q.slotOf n) with
    | none => (some n, [])
    | some c =>
      let r := q.choose rest
      (r.1, (0x0703, [arg n, arg c]) :: r.2)

/-! The archive at a boot (R563 to R568). -/

/-- An archive region: its header before its records (R563). -/
def archiveRegion (generation : Nat) (records : List Byte) : List Byte :=
  le 4 0x52434C41 ++ le 4 generation ++ le 4 (16 + records.length) ++ le 4 (crc32 records).toNat ++ records

/-- An archive record before its values are filled up to a multiple of 4 bytes (R564). -/
def archiveRecordBytes (ty beam layer zones : Nat) (values : List Byte) : List Byte :=
  let v := pad4 values
  le 2 ty ++ le 2 (8 + v.length) ++ le 1 beam ++ le 1 layer ++ le 1 zones ++ [0] ++ v

/-- An archive region begins with a valid header (R563). -/
def regionValid (bs : List Byte) : Bool :=
  let n := Word.fieldLE bs 8 4
  Word.fieldLE bs 0 4 == 0x52434C41 && within 16 bs.length n &&
    Word.fieldLE bs 12 4 == (crc32 (slice bs 16 (n - 16))).toNat

/-- The records of a region; `n` bounds them (R564). -/
def regionRecords : Nat → List Byte → List (List Byte)
  | 0, _ => []
  | n + 1, bs =>
    let len := Word.fieldLE bs 2 2
    if len < 8 ∨ bs.length < len then [] else bs.take len :: regionRecords n (bs.drop len)

/-- The key of a record: type, beam, layer and zone set (R564). -/
def recordKey (r : List Byte) : Nat × Nat × Nat × Nat :=
  (Word.fieldLE r 0 2, Word.fieldLE r 4 1, Word.fieldLE r 5 1, Word.fieldLE r 6 1)

/-- The records of the integrator section, while it is valid. -/
def VoleState.archiveRecords (v : VoleState) : List (List Byte) :=
  if v.integratorValid then regionRecords 65536 (slice v.integrator 16 (Word.fieldLE v.integrator 8 4 - 16)) else []

/-- The first record of a type in the integrator section, of a beam or of none (0xFF). -/
def VoleState.archiveRecord (v : VoleState) (ty beam : Nat) : Option (List Byte) :=
  v.archiveRecords.find? fun r => (recordKey r).1 == ty && (recordKey r).2.1 == beam

/-- A value of a record where the archive holds it within its range, else the default (R303, R343, R403, R424). -/
def archived (r : Option (List Byte)) (place lo hi default : Nat) : Nat :=
  match r.bind fun x => Config.archivedValue x place with
  | some v => if within lo hi v then v else default
  | none => default

/-- A 16-bit two's complement number. -/
def signed16 (n : Nat) : Int := if n < 32768 then n else (n : Int) - 65536

/-- The keys of the section, and the PMIC settings and external sensors of record type 0x08 (R564, R565, Table 15.9). -/
def VoleState.loadPorts (v : VoleState) : VoleState :=
  let keys := v.archiveRecords.map recordKey
  match v.archiveRecord 0x08 0xFF with
  | none => { v with pmic := none, extSensors := [], keysInUse := keys }
  | some r =>
    let f := Word.fieldLE r
    let sensor := fun s : Nat => ((BitVec.ofNat 7 (f (16 + 8 * s) 1), BitVec.ofNat 8 (f (17 + 8 * s) 1),
      BitVec.ofNat 8 (f (18 + 8 * s) 1), signed16 (f (20 + 8 * s) 2)) : BitVec 7 × Byte × Byte × Int)
    { v with
      pmic := some (BitVec.ofNat 7 (f 8 1), BitVec.ofNat 8 (f 9 1), f 10 1, f 12 2, signed16 (f 14 2))
      extSensors := (List.range (min 8 (f 11 1))).map sensor, keysInUse := keys }

/-- A beam as firmware loads it: the integrator section's values, overridden by those of the device bank in use (R564). -/
def State.loadBeam (s : State) (h : Head) (b : Beam) : BeamState :=
  let r := s.vole.archiveRecord 0x04 (beamIndex h b)
  let v := fun k : Nat => archived r k 0 1023 0
  let c := s.vole.archiveRecord 0x09 (beamIndex h b)
  let base : BeamState :=
    { writeCode := v 0, midCode := v 1, coolCode := v 2, biasCode := v 3, readCode := v 4, calWrite := v 0, calRead := v 4
      betaTarget := archived r 5 0 65535 0, calSlope := archived r 6 0 65535 0, limMark := archived c 0 0 15 4
      limHeader := archived c 1 0 255 24, limWord := archived c 2 0 1023 160, limBeta := archived c 3 5 40 15 }
  match s.bankInUse with
  | none => base
  | some k =>
    let a := match h with
      | .a => k.beamsA[b]
      | .b => k.beamsB[b]
    { base with readCode := a.readCode, calRead := a.readCode, writeCode := a.writeCode, calWrite := a.writeCode
                adcOffset := a.adcOffset, calOffset := a.adcOffset, readTarget := a.readTarget, betaTarget := a.betaTarget
                calSlope := a.slope }

/-- A read channel as firmware loads it (R325, R564). -/
def State.loadChan (s : State) (h : Head) (b : Beam) : ReadChannel :=
  match s.bankInUse with
  | none => {}
  | some k =>
    let a := match h with
      | .a => k.beamsA[b]
      | .b => k.beamsB[b]
    { par := a.par, verify := a.verify, taps := a.taps, gain := a.gain }

/-- The commutation parameters in force (R403, Table 11.1). -/
def VoleState.commutation (v : VoleState) : SpindleParams :=
  let a := archived (v.archiveRecord 0x06 0xFF)
  { polePairs := a 0 1 8 4, fPwm := a 1 24 96 48, deadTime := a 2 20 500 100, blank := a 3 100 1000 250
    iPeak := a 4 10 200 120, iTest := a 5 10 200 40, iStart := a 6 10 200 80, tTestMax := a 7 5 100 50
    tDecay := a 8 50 1000 300, lead := a 9 0 24 8, keNom := a 10 0 65535 0, brakeMax := a 11 10 100 60 }

/-- The sled profile in force (R424); a limit of 0 is none. -/
def VoleState.sledProfile (v : VoleState) : SledProfile :=
  let a := archived (v.archiveRecord 0x07 0xFF)
  { vMax := a 0 1 (2 ^ 32) 400000, aMax := a 1 1 (2 ^ 32) 20000000, jMax := a 2 1 (2 ^ 40) 4000000000 }

/-- The set of a slot that firmware holds for 10,800 rpm: Table 10.5, the integrator section's values before it, and the
loop gain results of the device bank before both (R395, R564). -/
def State.loadTuning (s : State) (i : LoopId) : LoopCfg :=
  let c := defaultCfg i fun k =>
    (if s.vole.integratorValid then Config.archivedTuning s.vole.integrator i.val k else none).getD ((tuning i).getD k 0)
  match (s.bankInUse.bind fun k => (k.gains[i.val]?).join) with
  | none => c
  | some g => { c with kp := g.1, ki := g.2.1, kd := g.2.2, derivOn := g.2.2 != 0 }

/-- Firmware loads the beams, the channels, every Loop Engine slot, the commutation unit, the sled profile and the decoder
limits (R298, R325, R343, R395, R403, R424). -/
def State.loadArchive (s : State) : State :=
  let d := s.vole.archiveRecord 0x09 0xFF
  { s with
    rcd := { s.rcd with beamsA := Vector.ofFn (s.loadBeam .a), beamsB := Vector.ofFn (s.loadBeam .b) }
    rd := { s.rd with chansA := Vector.ofFn (s.loadChan .a), chansB := Vector.ofFn (s.loadChan .b)
                      limNormal := archived d 4 4 24 12, limExtended := archived d 5 12 63 40 }
    loop := { s.loop.loaded s.loadTuning with
      gains := (s.bankInUse.map (·.gains)).getD (Vector.replicate 8 none) }
    spin := { s.spin with params := s.vole.commutation, sled := s.vole.sledProfile } }

/-! The release of Vole (R606, R610, R695). -/

/-- Put a record into a list with descending SEQUENCE. -/
def insertDesc (r : LogRecord) : List LogRecord → List LogRecord
  | [] => [r]
  | x :: xs => if x.seq ≤ r.seq then r :: x :: xs else x :: insertDesc r xs

/-- Log several events in order. -/
def State.logAll (s : State) (l : List (BitVec 16 × List Word)) : State := l.foldl (fun u e => u.log e.1 e.2) s

/-- Vole is released: BOOT and SEQUENCE go on from the log region and the retention bank; retained records come first,
then BOOT_STARTED, then Quill's boot record and the events raised meanwhile (R528, R606, R610, R695). -/
def State.releaseVole (s : State) (cause : Nat) : State :=
  let v := s.vole
  let held := v.programmed ++ v.retained
  let boot := (held.map (·.boot)).foldl max v.retainedBoot + 1
  let seq := (held.map (·.seq)).foldl max 0 + 1
  let valid := regionValid v.integrator
  let v1 : VoleState := { v with
    alive := true, boot := boot, nextSeq := seq, queue := v.retained, retained := [], retainedBoot := 0, bootAt := s.now
    newest := (held.foldl (fun l r => insertDesc r l) []).take 1023, windowCount := 0, windowDropped := 0, windowAt := s.now
    deferred := []
    frozen := s.pins.pwrfail, integratorValid := valid, baud := 115200, uartBusy := false, uartPartial := false
    archiveData := [], i2cFails := [], unreachable := [] }
  let s1 := ({ s with vole := v1.loadPorts }).createRecord 0x0909 [arg cause, arg s.quill.sequence]
  let s2 := (s1.logAll (s.quill.bootRecord ++ v.deferred)).updQuill fun q => { q with bootRecord := [] }
  if valid then s2 else s2.log 0x0802 [0]

/-! Boot (R509, R513, R526, R533, R654). -/

/-- All switchable domains of the part, 2 to 16. -/
def allDomains : BitVec 17 := 0x1FFFC#17

/-- Quill in recovery (R526, R528): only Quill's own domain, the SRAM pool where 8D mode stands, and the PCIe island. -/
def State.enterRecovery (s : State) (cause : Nat) (rejected : List (BitVec 16 × List Word)) : State :=
  let dom : BitVec 17 := if cause = 2 then 0x08004#17 else 0x08024#17
  (s.setDomains dom 0).updQuill fun q => { q with
    recovery := true, running := none, sequence := 0, bootStep := 5
    bootRecord := q.bootRecord ++ rejected ++ [(0x0704, [arg cause])] }

/-- The start of a valid slot: measured, Vole and the command core released, domains released, firmware's values loaded
(Table 14.4 steps 5 to 9, Table 14.3). -/
def State.bootSlot (s : State) (n cause : Nat) (rejected : List (BitVec 16 × List Word)) : State :=
  let x := s.quill.slotOf n
  let q0 := s.quill.extend 1 (sha384 (slice x.header 0 4096))
  let q1 := (((q0.extend 2 (x.stage 0).2.2).extend 3 (x.stage 1).2.2).extend 4 (x.stage 2).2.2).extend 5 (x.stage 3).2.2
  let q2 := q1.extend 7 (sha384 s.vole.integrator)
  let s1 := { s with quill := { q2 with running := some n, sequence := x.seq, bootStep := 9
                                        bootRecord := q2.bootRecord ++ rejected } }
  let s2 := (s1.setDomains allDomains 0).releaseVole cause
  (s2.loadArchive).updPins fun p => { p with armSince := s.now, doorSince := s.now }

/-- Quill seeds its generator from the entropy source, unless that has failed (R504, R505). -/
def QuillState.seedRbg (q : QuillState) : QuillState :=
  if q.rbgOk then { q with rbg := Drbg.seeded (Config.entropy q.seedings).toList, seedings := q.seedings + 1 } else q

/-- The boot from mask ROM (Table 14.4 steps 1 to 9). -/
def State.bootRom (s : State) (katOk octalOk : Bool) : State :=
  let s0 := { s with perstAt := s.now, quill := { s.quill with measures := Vector.replicate 8 (Word.zeros 48) }.seedRbg }
  if s0.pins.testEn || !katOk then s0.updQuill fun q => { q with stopped := true, bootStep := 1 }
  else
    let s1 := s0.updQuill fun q => q.measureRom
    if !octalOk then s1.enterRecovery 2 []
    else
      match s1.quill.choose s1.quill.candidates with
      | (some n, rej) => s1.bootSlot n 0 rej
      | (none, rej) => s1.enterRecovery 1 rej

/-- QUILL_BOOT (R513): PERST_N de-asserts with PGOOD high (log entry 26), or a reset of R523 ends; `katOk` are the known-answer tests,
`octalOk` is the
8D-8D-8D mode, `testEn` the level of TEST_EN. -/
def execQuillBoot (t : Time) (katOk octalOk testEn : Bool) (s : State) : Answer :=
  let s1 := s.at t
  .next (if s1.quill.bootStep = 0 ∧ s1.pwr.state = .park ∧ s1.pwr.running = none then
      (s1.updPins fun p => { p with perst := false, pgood := true, vcoreLow := false, testEn := testEn }).bootRom katOk octalOk
    else s1)

/-! The memory self-test (Table 5.5). -/

/-- A DDR5 device is declared lost (R196, R197). -/
def State.loseDevice (s : State) (d : Fin 20) : State :=
  if s.dram.lost.isSome then s
  else ((s.updDram fun x => { x with lost := some d }).raise evDramLost).log 0x0201 [arg d.val]

/-- The self-test's outcome: steps 1 to 3, and the devices in which step 4 failed (R190, R196, R199). -/
def State.selfTest (s : State) (test : SelfTestSense) : State :=
  let s1 := if s.quill.bootStep = 9 then s.updQuill fun q => { q with bootStep := 10 } else s
  match test.loopOk && test.pairsOk && test.sramOk, test.failed.eraseDups with
  | true, [] => (s1.updDram fun x => { x with fillStart := some s.now }).updDrey fun d => { d with tested := true }
  | true, [d] =>
    ((s1.updDram fun x => { x with fillStart := some s.now }).updDrey fun x => { x with tested := true }).loseDevice d
  | _, _ => s1.updDrey fun d => { d with outOfService := true }

/-- MEMORY_SELF_TEST (R190): after DDR5 training. -/
def execMemorySelfTest (t : Time) (test : SelfTestSense) (s : State) : Answer :=
  let s1 := s.at t
  .next (if s1.quill.bootStep = 9 ∧ s1.pwr.domains.getLsbD 14 = true then s1.selfTest test else s1)

/-! Readiness (R69, R514, R524, R525, R537). -/

/-- The floor request is used, dropped or erased at step 11 (R524, R525). -/
def State.settleFloor (s : State) : State :=
  let q := s.quill
  match q.floorRequest, q.running with
  | some r, some n =>
    let s1 := s.updQuill fun x => { x with floorRequest := none }
    if r ≠ q.sequence then s1.log 0x0706 [arg r, arg q.sequence]
    else if 64 ≤ q.floors.length then s1.log 0x0707 [arg r]
    else
      let x := q.slotOf n
      let keep : BitVec 4 := BitVec.ofNat 4 (15 - bit true (x.num 7 1))
      s1.updQuill fun y => { y with floors := r :: y.floors, revoked := y.revoked ||| (BitVec.ofNat 4 (x.num 16 1) &&& keep) }
  | _, _ => s

/-- Quill sets the laser and motor releases where the test access port is locked (R514), and firmware enables the
actuators (R644). -/
def State.grantReleases (s : State) : State :=
  if s.quill.unlock = 0 && !s.quill.recovery then
    let f := fun d : HeadState => { d with release := true, actEnable := true }
    ((s.updHd .a f).updHd .b f).updQuill fun q => { q with motorRelease := true }
  else s

/-- The functions of the part answer; in recovery F3 alone (R526). -/
def State.raiseFunctions (s : State) (rate width : Nat) : State :=
  s.updHost fun h => { h with
    funcs := Vector.ofFn fun i => { (h.funcs[i]) with ready := !s.quill.recovery || i == 3, inReset := false }
    link := { up := true, rate := rate, width := width, idleSince := s.now } }

/-- The functions whose reset is in progress pass step 6 of Table 3.8: they answer again, over the link as it stands. -/
def State.endResets (s : State) : State :=
  s.updHost fun h => { h with funcs := Vector.ofFn fun i =>
    if (h.funcs[i]).inReset then { (h.funcs[i]) with ready := !s.quill.recovery || i == 3, inReset := false }
    else h.funcs[i] }

/-- A rate, in 0.1 GT/s, and a width at which the link can train (R68, Table 3.1). -/
def linkTrains (rate width : Nat) : Bool := [25, 50, 80, 160].contains rate && [1, 2, 4, 8].contains width

/-- The MAGAZINE field from the pins (R650, Table 4.7). -/
def State.magazineFromPins (s : State) : State :=
  s.setMagazine (if !s.pins.magPresent then 0 else if s.pins.doorSense then 1 else 2)

/-- Events of Dormouse that wait for Vole are logged (R487, R500). -/
def State.logDormouse (s : State) : State :=
  let storms := s.pwr.stormLog.map fun n => ((0x0606, [arg n]) : BitVec 16 × List Word)
  let rails := s.pwr.railLog.map fun n => ((0x0607, [arg n]) : BitVec 16 × List Word)
  let s1 := s.logAll (storms ++ rails)
  s1.updPwr fun w => { w with stormLog := [], railLog := [] }

/-- Step 11 of Table 14.4: readiness, releases, the floor, and group I (R513, R537). -/
def State.becomeReady (s : State) (rate width : Nat) : State :=
  let s1 := (s.raiseFunctions rate width).updQuill fun q => { q with bootStep := 11 }
  if s1.quill.recovery then s1
  else
    let s2 := ((s1.grantReleases.settleFloor).logDormouse).magazineFromPins
    ((s2.updCal fun c => { c with readyAt := s2.now, groupM := false }).setSteps groupI .pending).followBringup

/-- FUNCTIONS_READY (R69, R119, R513, R699): step 11 of a boot, the end of a new training of the link, or, while the link is
up, step 6 of Table 3.8 for the functions whose reset is in progress. -/
def execFunctionsReady (t : Time) (rate width : Nat) (s : State) : Answer :=
  let s1 := s.at t
  let booted := s1.quill.bootStep = 10 ∨ (s1.quill.recovery = true ∧ s1.quill.bootStep = 5)
  .next (if s1.quill.stopped || !linkTrains rate width then s1
    else if booted then
      let s2 := s1.updPwr fun w => { w with state := .run }
      s2.becomeReady rate width
    else if s1.quill.bootStep = 11 ∧ s1.host.link.up = false then s1.raiseFunctions rate width
    else if s1.quill.bootStep = 11 then s1.endResets
    else s1)

/-! Update (R520 to R524). -/

/-- The staging floor (R522, R527). -/
def QuillState.stagingFloor (q : QuillState) : Nat := if q.recovery then q.floor else max q.floor (q.sequence + 1)

/-- The slot that a staging goes to (R520, R527). -/
def QuillState.stagingSlot (q : QuillState) : Nat :=
  if q.recovery then (if q.recoveryA then 1 else 0) else if q.running = some 0 then 1 else 0

/-- Change a slot. -/
def QuillState.setSlot (q : QuillState) (n : Nat) (x : FwSlot) : QuillState :=
  if n = 0 then { q with slotA := x } else { q with slotB := x }

/-- The chunk of a staging that holds an offset. -/
def Staging.at? (g : Staging) (off : Nat) : Option (Nat × List Byte) :=
  g.chunks.find? fun c => decide (c.1 ≤ off) && decide (off < c.1 + c.2.length)

/-- `n` bytes of a staging from a multiple of 4,096, by its pages; none where one is missing. -/
def Staging.pages (g : Staging) (off n : Nat) : Option (List Byte) :=
  ((List.range n).mapM fun i =>
    let o := off + 4096 * i
    (g.at? o).map fun c => slice c.2 (o - c.1) 4096).map List.flatten

/-- The header of a staging, once its chunk at offset 0 has come. -/
def Staging.header (g : Staging) : Option (List Byte) := g.pages 0 1

/-- A FW_STAGE at this offset is refused (R521). -/
def QuillState.stageInvalid (q : QuillState) (off : Nat) : Bool :=
  match q.staging with
  | none => false
  | some g =>
    (g.at? off).isSome || (match g.header with
      | some h => decide (4096 + Word.fieldLE h 12 4 ≤ off)
      | none => false)

/-- Why a complete staging is refused: Detail 1 to 4 of UPDATE_REFUSED, or the slot it gives (R522). -/
def QuillState.judge (q : QuillState) (g : Staging) : Except Nat FwSlot :=
  match g.header with
  | none => .error 4
  | some h =>
    match g.pages 4096 ((Word.fieldLE h 12 4 + 4095) / 4096) with
    | none => .error 4
    | some image =>
      let x : FwSlot := { header := h, image := image.take (Word.fieldLE h 12 4) }
      if q.sequence = 0xFFFFFFFF ∧ q.recovery = false then .error 3
      else if x.seq < q.stagingFloor then .error 2
      else if (q.slotFails x).isSome then .error 1
      else .ok x

/-- A slot's image in flash with a chunk written to it, `off` counted from the slot's start (R520). -/
def FwSlot.withChunk (x : FwSlot) (off : Nat) (data : List Byte) : FwSlot :=
  let o := off - 4096
  { x with image := x.image.take o ++ List.replicate (o - x.image.length) 0xFF ++ data ++ x.image.drop (o + data.length) }

/-- FW_STAGE's effect (R520, R522): the chunk joins the staging, the first one erasing the slot's header; all but the one
at offset 0 go to flash at once; the last one ends it. -/
def QuillState.stageChunk (q : QuillState) (off : Nat) (last : Bool) (data : List Byte) : QuillState × Status × Nat :=
  let g0 : Staging := q.staging.getD { slot := q.stagingSlot }
  let x0 := q.slotOf g0.slot
  let x1 := if q.staging.isSome then x0 else { x0 with header := [] }
  let q0 := q.setSlot g0.slot (if off = 0 then x1 else x1.withChunk off data)
  let g : Staging := { g0 with chunks := g0.chunks ++ [(off, data)] }
  if !last then ({ q0 with staging := some g }, .success, 0)
  else
    let q1 := { q0 with staging := none }
    match q1.judge g with
    | .error d => (q1, .updateRefused, d)
    | .ok x =>
      let q2 := (q1.setSlot g.slot x).event 2 x.seq
      ({ q2 with staged := some x.seq, recoveryA := q2.recoveryA || (q2.recovery && g.slot == 0) }, .success, 0)

/-- The activation's last steps before its reset (R523, R524): M6 takes the event, the floor request is written. -/
def QuillState.activate (q : QuillState) (advance : Bool) : QuillState :=
  match q.staged with
  | none => q
  | some n =>
    let q1 := q.event 3 n
    { q1 with activating := true, floorRequest := if advance then some n else q1.floorRequest }

/-- A running FW_ACTIVATE completes once no other started command is left (R523). -/
def State.settleActivate (s : State) : State :=
  match s.host.running.find? (fun r => r.op == .fwActivate) with
  | none => s
  | some r =>
    if s.host.running.length = 1 then
      let n := s.quill.staged.getD 0
      (s.updQuill fun q => q.activate ((parm r.entry 0).getLsbD 0)).endRunning r .success (BitVec.ofNat 64 n) []
    else s

/-- ACTIVATION_RESET (R515, R523 step 5): within 10 ms of the completion of FW_ACTIVATE. -/
def execActivationReset (t : Time) (s : State) : Answer :=
  let s1 := (s.at t).settleActivate
  .next (if s1.quill.activating then s1.activateReset else s1)

/-! Attestation (R517 to R519). -/

/-- LK is programmed and usable (R506, R507, R532). -/
def QuillState.lkUsable (q : QuillState) : Bool := q.lk.isSome && q.lkLocked && !q.lkBad && q.unlock != 2

/-- Bytes 0 to 659 of the attestation report (Table 14.5). -/
def State.reportBody (s : State) (fn : FnId) (counter : Nat) (nonce : List Byte) : List Byte :=
  let q := s.quill
  le 2 1 ++ le 2 756 ++ [0xC0] ++ le 1 s.runningSlot ++ le 1 q.unlock ++
    [flags [q.recovery, q.lk.isSome, q.floorRequest.isSome, q.resumed]] ++ q.serial ++
    le 4 (if q.recovery then 0 else q.sequence) ++ le 4 q.floor ++ le 8 counter ++ nonce ++ q.measures.toList.flatten ++
    le 2 (s.deviceId fn) ++ Word.zeros 6 ++ identityPublic q.seed ++ Word.zeros 3 ++ q.certificate

/-- ATTEST's effect on the counter: none where an epoch bit is needed and none is left (R517, R518). -/
def QuillState.nextCounter (q : QuillState) : Option QuillState :=
  if q.attested then some { q with count := q.count + 1 }
  else if q.epoch = 65535 then none
  else some { q with epoch := q.epoch + 1, count := 1, attested := true }

/-- The attestation counter (R517). -/
def QuillState.counter (q : QuillState) : Nat := q.epoch * 2 ^ 48 + q.count

/-! Unlock (R529 to R532). -/

/-- The token passes every condition of R530. -/
def QuillState.tokenOk (q : QuillState) (e : Entry) (d : List Byte) : Bool :=
  let ix := Word.fieldLE d 28 1
  let key := slice d 32 97
  e.length.toNat == 228 && Word.fieldLE d 0 2 == 1 && within 1 2 (Word.fieldLE d 2 1) && slice d 4 16 == q.serial &&
    q.lastReport == some (Word.fieldLE d 20 8) && decide (ix < 2) && sha384 key == q.authHashes.getD ix [] &&
    ecdsaVerify key (sha384 (slice d 0 132)) (slice d 132 96)

/-- An unlock takes effect (R532). -/
def State.unlockAt (s : State) (level : Nat) : State :=
  (s.withdraw).updQuill fun q =>
    let q1 := q.event 1 level
    { q1 with unlock := level, keys := if level = 2 then Vector.replicate 16 none else q1.keys }

/-- JTAG_TAP_ACCESS (R529): IDCODE shifts out 0x20360F5B; BYPASS has no effect, and until an unlock every other
instruction acts as BYPASS. -/
def execJtagTapAccess (t : Time) (tap : TapInstr) (s : State) : Answer :=
  let s1 := s.at t
  match tap with
  | .bypass => .next s1
  | .idcode => .next (s1.emit (.tdo 0x20360F5B))
  | .other _ => if s1.quill.unlock = 0 then .next s1 else .refused .unlockedTapInstruction

/-! The generator and LK (R504 to R507). -/

/-- RBG_FAIL (R505): the entropy source has failed three times in succession. -/
def execRbgFail (t : Time) (s : State) : Answer :=
  let s1 := s.at t
  .next (if s1.quill.rbgOk then (s1.updQuill fun q => { q with rbgOk := false }).log 0x0701 [] else s1)

/-- Answer a request of the service port (R620). -/
def State.uartAnswer (s : State) (rtype : Byte) (payload : List Byte) : State := s.emit (.uart rtype payload)

/-- A request of the service port is served: the ports answer and no request is outstanding; else a NAK, or nothing
where the port is not served (R600, R621). -/
def State.uartServe (s : State) (k : State → State) : State :=
  if !s.portsServed then s else if s.vole.uartBusy then s.uartAnswer 0xFF [] else k s

/-- Refuse an LK programming with a cause (R507). -/
def State.lkRefuse (s : State) (cause : Nat) : State := (s.log 0x0702 [arg cause]).uartAnswer 0x90 [BitVec.ofNat 8 cause]

/-- Program LK (R506, R507). -/
def State.programLk (s : State) (payload : List Byte) (readBackOk : Bool) : State :=
  let q := s.quill
  if q.lkLocked then s.lkRefuse 3
  else if payload.length ≠ 36 ∨ (crc32 (payload.take 32)).toNat ≠ Word.fieldLE payload 32 4 then s.lkRefuse 1
  else if q.lkBad then s.lkRefuse 2
  else if !readBackOk then (s.updQuill fun x => { x with lkBad := true, lk := some (payload.take 32) }).lkRefuse 2
  else (s.updQuill fun x => { x with lk := some (payload.take 32), lkLocked := true }).uartAnswer 0x90 [0]

/-- LK_PROGRAM (R506, R507). -/
def execLkProgram (t : Time) (payload : List Byte) (readBackOk : Bool) (s : State) : Answer :=
  .next ((s.at t).uartServe fun u => u.programLk payload readBackOk)

/-! Vole's restart (R625). -/

/-- VOLE_HEARTBEAT_TIMEOUT (R625): queued records are lost, a new window begins, and VOLE_RESTART is logged. -/
def execVoleHeartbeatTimeout (t : Time) (s : State) : Answer :=
  let s1 := s.at t
  .next (if !s1.vole.alive then s1
    else
      let s2 := s1.updVole fun v => { v with
        queue := [], newest := v.newest.filter fun r => v.programmed.any fun x => x.seq == r.seq
        windowCount := 0, windowDropped := 0, windowAt := s1.now, restarts := v.restarts + 1, uartBusy := false, uartPartial := false
        archiveData := [] }
      s2.log 0x0908 [arg s2.vole.restarts])

end Sys2Proof.Machine
end

