-- ==== Sys2Proof/Machine/Power.lean ====
section
/-! DEFINITION. The power states, Dormouse and the power-fail sequence (13_power_states; 16_modes_coincidences R584 to R587;
18_balls R636, R656; 19_electrical R682). -/

namespace Sys2Proof.Machine

/-! UNMOUNT, as the host or a power transition starts it (R285, R480, R587). -/

/-- Start an UNMOUNT: a read-only mount ends at once, a read-write one seals its session first (R587). -/
def State.beginUnmount (s : State) (r : Running) : State :=
  let s1 := s.startRunning r
  if s.mountedRW then (s1.setMagazine 6).sealIfDue.settleUnmount else s1.unmountNow.endRunning r .success 0 []

/-- The UNMOUNT that a power transition performs (R480): nobody is told of its end. -/
def innerUnmount (order : Nat) : Running :=
  { org := { fn := 3, q := 0, silent := true, order := order }, entry := { opcode := Opcode.code .unmount }, op := .unmount }

/-! Steps of a transition (R478 to R481). -/

/-- The domains powered in a state (Table 13.2). -/
def domainsOf (p : PowerState) : BitVec 17 :=
  match p with
  | .run => allDomains
  | .doze => 0x1F0BC#17
  | .park => 0x0C03C#17
  | .torpor => 0
  | .hibernate => 0

/-- A target below PARK, whose entry unmounts (R480). -/
def PowerState.unmounts (p : PowerState) : Bool := p == .torpor || p == .hibernate

/-- A clip that the transition has closed has its close record still to pass (R479). -/
def State.closeLeft (s : State) : Bool :=
  s.anyHead && s.mountedRW && (!s.rcd.closing.isEmpty || s.rcd.records.any fun q => q.vol.rtype == 3)

/-- The step that comes next on the way to a target: none where it is reached (R478 to R480). -/
def State.nextStep (s : State) (p : PowerState) : Option PowerStep :=
  let closes := decide (2 ≤ PowerState.num p) && s.closeLeft
  match s.pwr.state with
  | .run =>
    if (PowerState.unmounts p && s.mounted) || closes then some .prelude
    else if p = .run then none
    else some .runToDoze
  | .doze =>
    if (p = .run ∨ (PowerState.unmounts p = true ∧ s.mounted = true)) ∨ closes = true then some .dozeToRun
    else if p = .doze then none
    else some .dozeToPark
  | .park =>
    if PowerState.num p < 2 ∨ (PowerState.unmounts p = true ∧ s.mounted = true) then some .parkToDoze
    else if p = .park then none
    else some .parkToTorpor
  | .torpor =>
    match p with
    | .torpor => none
    | .hibernate => some .torporToHibernate
    | .run | .doze | .park => some (.exiting false)
  | .hibernate => if p = .hibernate then none else some (.exiting true)

/-- Calibration steps that run outside a CALIBRATE stop and become pending again (R552). -/
def State.stopSteps (s : State) : State :=
  let kept := s.host.running.flatMap fun r => r.calLeft
  allSteps.foldl (fun u n => (placesOf n).foldl (fun v x =>
    if (v.calUnit n x.1 x.2).status.runs && !kept.contains (n, x.1, x.2) then v.setUnit n x.1 x.2 (.aborted 0) else v) u) s

/-- Every lane of a head goes to OFF. -/
def State.lanesOff (s : State) (h : Head) : State := s.updBeams h fun b => { b with level := .off }

/-- The read channels reload the archived parameters (Table 13.4). -/
def State.reloadChannels (s : State) : State :=
  s.updRd fun r => { r with chansA := Vector.ofFn (s.loadChan .a), chansB := Vector.ofFn (s.loadChan .b) }

/-- The rails rise for an exit (Table 13.6 steps 1 and 2); with RAIL_CORE_EN the held VCORE request becomes 0.75 V
(R700). -/
def State.raiseRails (s : State) : State :=
  let core := s.pwr.railCore
  let s1 := s.updPace fun x => { x with vcore := if core then s.pace.vcore else 750, prevVcore := if core then s.pace.prevVcore else 750 }
  (s1.updPwr fun w => { w with railCore := true, railMain := true, exitAt := s.now, railRetry := false }).updPins fun p =>
    { p with pgood := false }

/-- Start a step (Table 13.4). -/
def State.startStep (s : State) (k : PowerStep) : State :=
  let s1 := s.updPwr fun w => { w with step := some k }
  match k with
  | .prelude =>
    if s1.mounted && !s1.closeLeft && !s1.runs [.mount, .unmount] then s1.beginUnmount (innerUnmount s1.host.fetchOrder) else s1
  | .runToDoze => (s1.dropScurry.stopSteps).stopIfRecording
  | .dozeToRun => (s1.setDomains (domainsOf .run) 0).reloadChannels
  | .dozeToPark =>
    let s2 := s1.updSpin fun p => { p with parkSpeed := p.target }
    (((((s2.lanesOff .a).lanesOff .b).parkHead .a).parkHead .b).brakeSpindle)
  | .parkToDoze =>
    let s2 := s1.setDomains (domainsOf .doze) 0
    let s3 := { s2 with dram := { s2.dram with selfRefresh := false }, loop := s2.loop.loaded s2.loadTuning }
    if s3.mounted && decide (0 < s3.spin.parkSpeed) then s3.wantSpeed s3.spin.parkSpeed else s3
  | .parkToTorpor => s1
  | .torporToHibernate => s1
  | .exiting _ => (s1.updPwr fun w => { w with railFails := 0 }).raiseRails

/-- The present state becomes another; POWER_CHANGE is raised where the POWER field of the state code changes (R483). -/
def State.enterState (s : State) (p : PowerState) : State :=
  let s1 := s.updPwr fun w => { w with state := p }
  if p = s.pwr.state ∨ 2 < PowerState.num p then s1 else s1.raise evPowerChange

/-- A transition ends: its commands complete with the state code (R484, R495). -/
def State.endTransition (s : State) : State :=
  let who := s.pwr.runBy
  (s.updPwr fun w => { w with running := none, step := none, runBy := [] }).endRequesters who .success s.stateValue

/-- Go on with the running transition: its next step starts, or it ends. -/
def State.goOn (s : State) : State :=
  match s.pwr.running with
  | none => s
  | some p =>
    match s.nextStep p with
    | none => s.endTransition
    | some k => s.startStep k

/-- The LAST_WAKE code of those who asked (Table 13.7). -/
def wakeCode (who : List Requester) : BitVec 4 :=
  if who.any (fun r => r == .internal) then 4
  else if who.any (fun r => r != .pin) then 3
  else 0

/-- Start a transition (R478, R479, R491): one to a shallower state is an exit and is noted; one to PARK or deeper closes
the open clip with RECORD_STOPPED. -/
def State.beginTransition (s : State) (p : PowerState) (who : List Requester) (replay : Bool) (code : BitVec 4) : State :=
  let up := decide (PowerState.num p < PowerState.num s.pwr.state)
  let s1 := s.updPwr fun w => { w with running := some p, runBy := who }
  let s2 := if up then s1.updPwr fun w => { w with exitFrom := BitVec.ofNat 3 (PowerState.num w.state), byReplay := replay
                                                   lastWake := code } else s1
  let s3 := if !up && decide (2 ≤ PowerState.num p) && s2.clipOpen then s2.closeClip 5 else s2
  s3.goOn

/-- POWER_TRANSITION_START (R478, R493, R496): no transition runs and WAKE is clear, so the pending target starts, in
TORPOR and HIBERNATE the PEND target of Dormouse. -/
def execPowerTransitionStart (t : Time) (s : State) : Answer :=
  let s1 := s.at t
  .next (if s1.pwr.running.isSome || s1.pwr.wake.isSome || decide (s1.pwr.pfStep ≠ 0) then s1
    else
      match s1.pwr.pend, s1.pwr.pending with
      | some p, _ => (s1.updPwr fun w => { w with pend := none }).beginTransition p [] true 3
      | none, some p =>
        let who := s1.pwr.pendBy
        (s1.updPwr fun w => { w with pending := none, pendBy := [] }).beginTransition p who false (wakeCode who)
      | none, none => s1)

/-- The code that a VCORE request sends to the power management IC (R565). -/
def VoleState.vcoreBytes (v : VoleState) (mv : Nat) : Option (List Byte) :=
  v.pmic.map fun p =>
    let code := (p.2.2.2.1 : Int) + p.2.2.2.2 * ((mv : Int) - 600) / 10
    [p.1.setWidth 8, p.2.1] ++ le p.2.2.1 (code % 65536).toNat

/-- The present VCORE request goes to the power management IC, unless that cannot be reached (R565, R618, R619). -/
def State.sendVcore (s : State) : State :=
  match s.vole.vcoreBytes s.pace.vcore, s.vole.pmic.any fun p => s.vole.unreachable.contains p.1 with
  | some bs, false => s.emit (.vcoreRequest s.pace.vcore bs)
  | _, _ => s

/-- Request a VCORE (R447, R565, R700). -/
def State.requestVcore (s : State) (mv : Nat) : State :=
  let s1 := s.updPace fun x => { x with vcore := mv, prevVcore := s.pace.vcore, lastStep := s.now }
  s1.sendVcore

/-- The point of no return (Table 13.5 step 3, R497): fetch stops, the commands of the running and the pending target
complete, waiting acquires complete with LOCK_BUSY, every lock is freed with ABANDONED set, PEND takes the pending
target. -/
def State.noReturn (s : State) : State :=
  let s1 := (s.updHost fun h => { h with fetchStopped := true }).endRequesters (s.pwr.runBy ++ s.pwr.pendBy) .success s.stateValue
  let s2 := s1.updPwr fun w => { w with pend := w.pending, pending := none, pendBy := [], runBy := [] }
  let busy := fun (u : State) (l : LockId) =>
    let k := u.lock l
    let v := k.word.setWidth 64
    k.waiters.foldl (fun x w => x.complete w.org { opcode := w.opcode, cid := w.cid } .lockBusy v [])
      (u.updLock l fun y => { y with waiters := [] })
  ((List.finRange 64).foldl busy s2).abandonLocks fun _ => true

/-- What is lost when every domain but the retained ones goes off (R469, R470): all but the host's registers, Quill, what
Vole saved and Dormouse. -/
def State.loseCore (s : State) : State :=
  { s with
    rcd := { drey := { outOfService := s.rcd.drey.outOfService }, draws := s.rcd.draws }
    mnt := { magazine := s.mnt.magazine, stoppedByHost := s.mnt.stoppedByHost }
    vmap := { burrow := s.vmap.burrow.afterReset }
    rd := {}
    dram := { lost := s.dram.lost, corrected := s.dram.corrected, uncorrectable := s.dram.uncorrectable }
    loop := {}
    spin := s.spin.afterReset
    hdA := s.hdA.afterReset
    hdB := s.hdB.afterReset
    cal := {}
    sync := { s.sync with valid := false, spacings := [] }
    pace := { vcore := s.pace.vcore, prevVcore := s.pace.prevVcore, chains := s.pace.chains.map fun c => { faulty := c.faulty } }
    bridges := s.bridges.map Bridge.afterReset }

/-- Vole saves its context: the records not programmed and BOOT (R695). -/
def VoleState.saved (v : VoleState) : VoleState :=
  { v with alive := false, retained := v.queue, retainedBoot := v.boot, queue := [], uartBusy := false, uartPartial := false }

/-- Entry into TORPOR (Table 13.5): point of no return, the retention request of 0.60 V, domains off, the link down. -/
def State.enterTorpor (s : State) : State :=
  let s1 := (s.noReturn.requestVcore 600).resetLink
  let s2 := (s1.loseCore.updVole VoleState.saved).setDomains 0 0x24#17
  (s2.updPwr fun w => { w with railMain := false }).updQuill fun q => { q with motorRelease := false, staging := none }

/-- Entry into HIBERNATE: Quill's state and the saved records are lost, RAIL_CORE_EN goes low (Table 13.4, R695). -/
def State.enterHibernate (s : State) : State :=
  let s1 := (s.updQuill QuillState.afterReset).updVole fun v => { v with retained := [], retainedBoot := 0 }
  (s1.setDomains 0 0).updPwr fun w => { w with railCore := false }

/-- Both groups in progress are complete. -/
def State.groupsDone (s : State) : Bool := bothHeads.all fun h => (s.wh h).open3.isNone

/-- Every loop slot goes idle with its domain. -/
def State.loopsOff (s : State) : State := s.idleSlots (List.finRange 16)

/-- The head has its focus, or cannot get it (R428, R429). -/
def HeadState.standing (d : HeadState) : Bool := d.captured || d.captureFailed

/-- The sequence of a step has completed (Table 13.4, Table 13.5). -/
def State.stepDone (s : State) (k : PowerStep) : Bool :=
  match k with
  | .prelude => !s.closeLeft && !s.runs [.mount, .unmount]
  | .runToDoze => !s.host.running.any (fun r => isMedia r.op r.entry) && s.groupsDone
  | .dozeToRun => true
  | .dozeToPark => s.spin.state == 0 || s.spin.state == 6
  | .parkToDoze =>
    !s.mounted || decide (s.spin.parkSpeed = 0) ||
      ((s.spin.state == 3 || s.spin.state == 4) && s.hdA.standing && s.hdB.standing)
  | .parkToTorpor => !s.host.running.any fun r => r.op != .powerState
  | .torporToHibernate => true
  | .exiting _ => false

/-- What the end of a step does. -/
def State.endStep (s : State) (k : PowerStep) : State :=
  match k with
  | .prelude => s
  | .runToDoze => (((s.lanesRead .a).lanesRead .b).setDomains (domainsOf .doze) 0).enterState .doze
  | .dozeToRun => s.enterState .run
  | .dozeToPark =>
    let s1 := s.gatesOff.loopsOff
    ((s1.updDram fun x => { x with selfRefresh := true }).setDomains (domainsOf .park) 0).enterState .park
  | .parkToDoze => s.enterState .doze
  | .parkToTorpor => s.enterTorpor.enterState .torpor
  | .torporToHibernate => s.enterHibernate.enterState .hibernate
  | .exiting _ => s

/-- POWER_TRANSITION_STEP_END (R478, R496): the step that runs has completed its sequence. -/
def execPowerTransitionStepEnd (t : Time) (s : State) : Answer :=
  let s1 := s.at t
  .next (match s1.pwr.step with
    | none => s1
    | some k => if s1.stepDone k then (s1.endStep k).goOn else s1)

/-! Exits (R482, R500, R501). -/

/-- The exit boots from mask ROM, as from HIBERNATE, where every domain but Dormouse's was off: it is the power-up of all
of them (R469, R501, R513), which clears the error log pages too (DESIGN CHOICE, log entry 156). -/
def State.exitRom (s : State) (katOk octalOk : Bool) : State :=
  let p := s.pwr
  let s1 := s.coreReset.forgetPower.updPwr fun _ => p
  (s1.updPins fun x => { x with perst := false }).bootRom katOk octalOk

/-- The exit resumes Quill from retention and restores Vole and the command core (R512, R516, R519, R695). -/
def State.exitRetained (s : State) : State :=
  let s1 := (s.updQuill fun q => { (q.event 4 0) with resumed := true, bootStep := 9 }).setDomains (domainsOf .park) 0
  (s1.releaseVole 1).loadArchive

/-- TORPOR_HIBERNATE_EXIT (R482): PGOOD has risen within its time; `retentionOk` is Quill's check of the retention bank,
`katOk` and `octalOk` what a boot from mask ROM finds, `test` what the memory self-test finds, `rate` and `width` what the
link trains to. -/
def execTorporHibernateExit (t : Time) (retentionOk katOk octalOk : Bool) (test : SelfTestSense) (rate width : Nat)
    (s : State) : Answer :=
  let s1 := s.at t
  .next (match s1.pwr.step with
    | some (.exiting fromHibernate) =>
      if s1.pwr.railMain && linkTrains rate width then
        let s2 := s1.updPins fun p => { p with pgood := true, vcoreLow := false }
        let s3 := if fromHibernate || !retentionOk then s2.exitRom katOk octalOk else s2.exitRetained
        let s4 := s3.updHost fun h => { h with fetchStopped := false }
        if s4.quill.stopped then (s4.updPwr fun w => { w with state := .park }).endTransition
        else
          let s5 := if s4.quill.recovery then s4 else (s4.selfTest test).setDomains (domainsOf .park) 0
          let s6 := ((s5.becomeReady rate width).updPwr fun w => { w with state := .park }).raise evPowerChange
          if s6.quill.recovery then s6.endTransition else s6.goOn
      else s1
    | _ => s1)

/-- PGOOD_TIMEOUT (R500): PGOOD is not high 10 ms after the enables rose: both go low. After a second failure the part
stays in HIBERNATE until the next wake event. -/
def execPgoodTimeout (t : Time) (s : State) : Answer :=
  let s1 := s.at t
  .next (match s1.pwr.step with
    | some (.exiting _) =>
      if s1.pwr.railMain && !s1.pins.pgood && decide (s1.pwr.exitAt + Config.ms 10 ≤ s1.now) then
        let s2 := s1.enterHibernate.updPwr fun w => { w with state := .hibernate, railMain := false, railFails := w.railFails + 1
                                                             step := some (.exiting true), exitAt := s1.now }
        if s2.pwr.railFails < 2 then s2.updPwr fun w => { w with railRetry := true }
        else s2.updPwr fun w => { w with running := none, step := none, runBy := [], pending := none, pendBy := [], pend := none
                                         railRetry := false, railLog := w.railLog ++ [0, 1] }
      else s1
    | _ => s1)

/-- RAIL_ENABLE_RETRY (R500): once more after 100 ms. -/
def execRailEnableRetry (t : Time) (s : State) : Answer :=
  let s1 := s.at t
  .next (if s1.pwr.railRetry && decide (s1.pwr.exitAt + Config.ms 100 ≤ s1.now) then s1.raiseRails else s1)

/-- The rails that are enabled, as RAIL_TIMEOUT names them (Table 17.4). -/
def Power.railsUp (w : Power) : List Nat := (if w.railCore then [0] else []) ++ (if w.railMain then [1] else [])

/-- PGOOD_FALL (R656, R683): as a PERST_N assertion, logged at the next exit. -/
def execPgoodFall (t : Time) (s : State) : Answer :=
  let s1 := s.at t
  .next (if !s1.pins.pgood || s1.pwr.railsUp.isEmpty then s1
    else
      let s2 := (s1.updPins fun p => { p with pgood := false }).updPwr fun w => { w with railLog := w.railLog ++ w.railsUp }
      if s2.pwr.state = .torpor ∨ s2.pwr.state = .hibernate then s2
      else if s2.inPowerFail then s2.updPwr fun w => { w with perstDeferred := true }
      else s2.assertPerst)

/-- VCORE_LOW_DETECT (R636): below 0.55 V every output takes its reset state. -/
def execVcoreLowDetect (t : Time) (s : State) : Answer :=
  .next (((((s.at t).updPins fun p => { p with vcoreLow := true }).lanesOff .a).lanesOff .b).gatesOff)

/-! Wake pins and Dormouse (R485 to R490). -/

/-- An edge of an always-on pin: accepted from 2 µs of low level on where the pin is not masked; more than 1,000 in
1,000 ms mask it; one within 1 ms of the last that made an event makes none (R485 to R487). The answer tells whether it
makes an event. -/
def State.pinEdge (s : State) (i : Fin 3) (lowNs : Nat) : State × Bool :=
  if lowNs < 2000 ∨ s.pwr.storm[i] = true then (s, false)
  else
    let l := s.now :: (s.pwr.edges[i]).filter fun e => decide (s.now < e + Config.ms 1000)
    let fresh : Bool := (s.pwr.lastEvent[i]).elim true fun e => decide (e + Config.ms 1 < s.now)
    let s1 := s.updPwr fun w => { w with edges := Vec.upd w.edges i fun _ => l }
    let s2 := if fresh then s1.updPwr fun w => { w with lastEvent := Vec.upd w.lastEvent i fun _ => some s.now } else s1
    if 1000 < l.length then
      let s3 := s2.updPwr fun w => { w with storm := Vec.upd w.storm i fun _ => true }
      (if s3.vole.alive then s3.log 0x0606 [arg i.val] else s3.updPwr fun w => { w with stormLog := w.stormLog ++ [i.val] }, fresh)
    else (s2, fresh)

/-- A wake event (R489, R490): in RUN and during an exit without effect, latched during an entry, else it starts a
transition to RUN. -/
def State.wakeEvent (s : State) (p : WakePin) : State :=
  let code : BitVec 4 := match p with
    | .wake0 => 1
    | .wake1 => 2
    | .psreq => 0
  match s.pwr.running with
  | some q =>
    if PowerState.num s.pwr.state < PowerState.num q then
      s.updPwr fun w => { w with wake := some (w.wake.getD p) }
    else s
  | none => if s.pwr.state = .run ∨ s.pwr.pfStep ≠ 0 then s else s.beginTransition .run [] false code

/-- WAKE_PIN_EDGE (R485 to R490): a falling edge of WAKE0_N or WAKE1_N, which then stays low for `lowNs`. -/
def execWakePinEdge (t : Time) (second : Bool) (lowNs : Nat) (s : State) : Answer :=
  let r := (s.at t).pinEdge (if second then 1 else 0) lowNs
  .next (if r.2 then r.1.wakeEvent (if second then .wake1 else .wake0) else r.1)

/-- A clip opened with HOLD_AWAKE 1 is open (R476). -/
def State.holdsAwake (s : State) : Bool := s.rcd.clip.any (·.prof.holdAwake)

/-- PSREQ_EDGE (R473, R476, R485): PSSEL, as it is at the edge, names the target. -/
def execPsreqEdge (t : Time) (lowNs : Nat) (pssel : Bool) (s : State) : Answer :=
  let r := ((s.at t).updPins fun p => { p with pssel := pssel }).pinEdge 2 lowNs
  let p : PowerState := if pssel then .hibernate else .torpor
  .next (if !r.2 || decide (r.1.pwr.pfStep ≠ 0) then r.1
    else if r.1.holdsAwake then r.1.log 0x0605 [2]
    else r.1.requestPower p .pin)

/-- WAKE_REPLAY (R489, R496): no entry runs any more, so Dormouse replays WAKE; a pending RUN joins it. -/
def execWakeReplay (t : Time) (s : State) : Answer :=
  let s1 := s.at t
  .next (match s1.pwr.wake with
    | none => s1
    | some p =>
      if s1.pwr.running.isSome then s1
      else
        let code : BitVec 4 := if p = .wake1 then 2 else 1
        let who := if s1.pwr.pending = some .run then s1.pwr.pendBy else []
        let s2 := s1.updPwr fun w => { w with wake := none, pend := if w.pend = some .run then none else w.pend }
        let s3 := if s2.pwr.pending = some .run then s2.updPwr fun w => { w with pending := none, pendBy := [] } else s2
        if s3.pwr.state = .run then s3.endRequesters who .success s3.stateValue else s3.beginTransition .run who true code)

/-- Re-arm the pins whose bit is written as 1; accepted through F3 only (Table 13.7). -/
def State.rearmPins (s : State) (fn : FnId) (v : Word) : State :=
  if fn = 3 then
    s.updPwr fun w => { w with
      storm := Vector.ofFn fun i => w.storm[i] && !v.getLsbD i.val
      edges := Vector.ofFn fun i => if v.getLsbD i.val then [] else w.edges[i] }
  else s

/-- WAKE_REARM (R487, R491). -/
def execWakeRearm (t : Time) (fn : FnId) (value : Word) (s : State) : Answer :=
  .next ((s.at t).barWrite fn fun u => u.rearmPins fn value)

/-! Power failure (R499, R584 to R587, R599). -/

/-- A PWRFAIL_N low of this length is accepted (R682): not below 0.5 µs, always from 1 µs on, either way between. -/
def pwrfailActs (n lowNs : Nat) : Bool :=
  decide (1000 ≤ lowNs) || (decide (500 ≤ lowNs) && Config.pwrfailShort n)

/-- Started commands that need the medium, the spindle or flash writes end, and so does every power request (Table 16.3
step 1, R499). -/
def endsAtPowerFail (r : Running) : Bool := isMedia r.op r.entry || r.op == .fwActivate || r.op == .powerState

/-- Steps 1 and 2 of Table 16.3 but for the clips and the seal: fetch stops, and what runs ends. -/
def State.powerFailEnds (s : State) : State :=
  let s1 := (s.updHost fun h => { h with fetchStopped := true }).dropArriving
  let reads := s1.host.running.filter fun r => r.op == .read || r.op == .frameRead || r.op == .metaRead
  let s2 := (reads.foldl (fun u r => u.failRead r .abortedPowerFail) s1).endAll endsAtPowerFail .abortedPowerFail 0
  let s3 := (s2.updPwr fun w => { w with running := none, step := none, runBy := [], pending := none, pendBy := [] }).stopSteps
  (s3.updQuill fun q => { q with staging := none }).dropScurry.updRd fun r =>
    { r with mediaScrub := false, bufferScrub := false, excursion := none }

/-- Steps 1 and 2 of Table 16.3 but for the seal. The answer names the clip whose profile was dropped, 0 for none (R585). -/
def State.powerFailStop (s : State) : State × Nat :=
  let s4 := s.powerFailEnds
  match s4.rcd.clip with
  | none => (s4.queueAllClose s4.rcd.closing.length, 0)
  | some c =>
    if c.openQueued then
      let s5 := s4.closeClip 2
      (s5.queueAllClose s5.rcd.closing.length, 0)
    else ((s4.touchLink.updRcd fun r => { r with clip := none }).queueAllClose s4.rcd.closing.length, c.prof.clip.toNat)

/-- Steps 1 to 3 of Table 16.3. -/
def State.powerFailBegin (s : State) : State :=
  let r := s.powerFailStop
  let s1 := r.1.updPwr fun w => { w with pfStep := 4, pfAt := s.now }
  if s1.pwr.state = .run ∧ s1.mountedRW = true ∧ s1.mnt.startPending = false then s1.writeSeals 1 r.2 else s1

/-- Steps 5 and 6 of Table 16.3: lasers and heads go safe, the last commit point is published, MK is erased. -/
def State.powerFailEnd (s : State) : State :=
  let off := fun d : HeadState => { d with laserEnable := false }
  let s1 := (((s.emergencyPark).updHd .a off).updHd .b off).publish
  let s2 := (s1.loseFrames fun _ => true).clearWrite
  let s3 := if s2.mounted then s2.leaveMount.setMagazine 2 else s2
  s3.updPwr fun w => { w with pfStep := 6 }

/-- POWER_FAIL (R499, R584, R682): PWRFAIL_N is low for `lowNs`. In RUN and DOZE the sequence of Table 16.3 begins; while
it runs, the same event from 5.5 ms on stands for its last steps. -/
def execPowerFail (t : Time) (lowNs : Nat) (s : State) : Answer :=
  let s1 := s.at t
  let s2 := if within 500 999 lowNs then s1.updRcd fun r => { r with draws := r.draws + 1 } else s1
  .next (if !pwrfailActs s1.rcd.draws lowNs then s2
    else
      let s3 := (s2.updPins fun p => { p with pwrfail := true }).updVole fun v => { v with frozen := true }
      if s3.pwr.pfStep = 0 ∧ (s3.pwr.state = .run ∨ s3.pwr.state = .doze) then s3.powerFailBegin
      else if s3.pwr.pfStep = 4 ∧ s3.pwr.pfAt + 5500000 ≤ s3.now then s3.powerFailEnd
      else s3)

/-- PWRFAIL_DEASSERT (R586, R611): a sequence that runs is run to its end; the part stays parked and unmounted, and fetch
goes on. -/
def execPwrfailDeassert (t : Time) (s : State) : Answer :=
  let s1 := s.at t
  .next (if !s1.pins.pwrfail then s1
    else
      let s2 := if s1.pwr.pfStep = 4 then s1.powerFailEnd else s1
      let s3 := (s2.updPins fun p => { p with pwrfail := false }).updVole fun v => { v with frozen := false }
      (s3.updHost fun h => { h with fetchStopped := false }).updPwr fun w => { w with pfStep := 0 })

end Sys2Proof.Machine
end

