-- ==== Sys2Proof/Machine/Cal.lean ====
section
/-! DEFINITION. The calibration steps as they start, end and lose a precondition, and the start of group M
(15_bringup_calibration R535 to R543, R551 to R561). -/

namespace Sys2Proof

/-- Value `i` a step has measured. -/
def CalMeasure.val (m : CalMeasure) (i : Nat) : Int := m.vals.getD i 0

/-- Some measured value lies further than `lim` from 0. -/
def CalMeasure.beyond (m : CalMeasure) (lim : Nat) : Bool := m.vals.any fun v => decide (lim < v.natAbs)

end Sys2Proof

namespace Sys2Proof.Machine

/-- The T36 starts the spindle for group M (R538): a magazine is present and not mounted, step 5 has passed, the spindle
stands, and the host has not stopped it since the insertion. -/
def State.autoStart (s : State) : State :=
  let waits := groupM.any fun n => !s.allUnits n fun st => !st.open
  if s.cal.groupM && waits && s.mnt.magazine == 2 && (s.calUnit 5 .a 0).status == .passed && s.spin.state == 0 &&
      !s.spin.lockout && !s.mnt.stoppedByHost && s.pwr.domains.getLsbD 16 then s.wantSpeed 10800
  else s

/-- GROUP_M_START (R537, R538, R702): MAGAZINE and DOOR both hold. -/
def execGroupMStart (t : Time) (s : State) : Answer :=
  let s1 := (s.at t).doorClosed
  .next (if s1.doorHolds && decide (2 ≤ s1.mnt.magazine) && !s1.cal.groupM && s1.quill.bootStep == 11 && !s1.quill.recovery then
      (((s1.updCal fun c => { c with groupM := true }).setSteps groupM .pending).followBringup).autoStart
    else s1)

/-- Step 7 begins its read-back pass and its probe pass (R249). -/
def BurrowState.beginPasses (t : BurrowState) : BurrowState :=
  { t with scanRow := 0, probe := 0, mismatches := [], checked := [], repeating := false, passRead := false, passProbe := false }

/-- What a step does as it starts: step 7 begins the Burrow passes (R249). -/
def State.beginStep (s : State) (step : Nat) : State := if step = 7 then s.updBurrow BurrowState.beginPasses else s

/-- A running step has done its work: step 7 both of its passes (R249). -/
def State.stepWorked (s : State) (step : Nat) : Bool :=
  step != 7 || (s.vmap.burrow.passRead && s.vmap.burrow.passProbe)

/-- CAL_STEP_START (R535, R551): a pending step whose Needs have finished starts, or reports its failing mask. Steps run
in RUN (R557). -/
def execCalStepStart (t : Time) (step : Nat) (h : Head) (b : Beam) (s : State) : Answer :=
  let s1 := s.at t
  .next (if (s1.calUnit step h b).status.waits && s1.needsDone step h b && s1.pwr.state == .run &&
        s1.pwr.step != some .runToDoze then
      let m := s1.failing step h
      if m = 0 then ((s1.setUnit step h b .running).beginStep step).followBringup
      else (s1.setUnit step h b (.notRun (BitVec.ofNat 32 m))).followBringup
    else s1)

/-- A departure of `v` from an archived value above a percentage; nothing to compare where none is archived. -/
def departs (v : Int) (archived pct : Nat) : Bool :=
  decide (archived ≠ 0) && decide (pct * archived < 100 * (v - archived).natAbs)

/-- A step's result is discarded (Table 15.1); the units of the measured values stand in log entry 28. -/
def State.discards (s : State) (step : Nat) (h : Head) (b : Beam) (m : CalMeasure) : Bool :=
  let u := s.beam h b
  match step with
  | 1 => decide (96 < (m.val 0).natAbs) || decide (1024 < m.val 1)
  | 2 => decide (8 < (m.val 0).natAbs) || decide (1536 < m.val 1)
  | 3 => m.beyond 5000
  | 4 => m.beyond 50
  | 5 => decide (100 < (m.val 0).natAbs) || m.flag
  | 6 => m.beyond 200 || m.flag
  | 10 => decide (400 < (m.val 0).natAbs)
  | 11 => m.vals.any fun v => !gainOk v.toNat
  | 12 => departs (m.val 0) u.calRead 15 || departs (m.val 1) u.readTarget 20
  | 13 => decide (2048 < m.val 0) || m.flag
  | 14 => departs (m.val 0) u.calSlope 30 || decide (200 < (m.val 1).natAbs)
  | _ => false

/-- What step 13 trains, in the order of its measured values after the residual (R542): gain, offset and timing; on written
data the equaliser coefficients, the target with its scale, the predictors and the weights after them. -/
def ReadChannel.trained (c : ReadChannel) (l : List Int) : ReadChannel :=
  let c1 := { c with gain := l.getD 1 c.gain, par := { c.par with timingP := (l.getD 3 c.par.timingP).toNat
                                                                  timingI := (l.getD 4 c.par.timingI).toNat } }
  if l.length < 99 then c1
  else { c1 with
    taps := Vector.ofFn fun i => l.getD (5 + i.val) 0 * 1024
    par := { c1.par with target := ((l.drop 29).take 5).map Int.toNat, scale := (l.getD 34 0).toNat, noise := (l.drop 35).take 32
                         weights := ((l.drop 67).take 32).map Int.toNat } }

/-- What a passed beam step puts in force. -/
def State.keepBeam (s : State) (step : Nat) (h : Head) (b : Beam) (m : CalMeasure) : State :=
  let clear := fun (i : Fin 3) (u : BeamState) => { u with trimDiscards := Vec.upd u.trimDiscards i fun _ => 0 }
  match step with
  | 1 => s.updBeam h b fun u => { (clear 0 u) with adcOffset := m.val 0, calOffset := m.val 0 }
  | 2 => s.updChan h b fun c => { c with gain := 24 + m.val 0 }
  | 12 => s.updBeam h b fun u => { (clear 1 u) with readCode := (m.val 0).toNat, calRead := (m.val 0).toNat
                                                    readTarget := (m.val 1).toNat }
  | 13 => (s.updBeam h b fun u => { u with adcOffset := m.vals.getD 2 u.adcOffset }).updChan h b fun c => c.trained m.vals
  | 14 => s.updBeam h b fun u => { (clear 2 u) with
      calSlope := (m.val 0).toNat, writeCode := (m.vals.getD 2 u.writeCode).toNat, calWrite := (m.vals.getD 2 u.calWrite).toNat
      midCode := (m.vals.getD 3 u.midCode).toNat }
  | _ => s

/-- A set with KP, KI and KD scaled by a correction in 1/1,024. -/
def LoopCfg.corrected (c : LoopCfg) (g : Nat) : LoopCfg :=
  { c with kp := scaled c.kp g, ki := scaled c.ki g, kd := scaled c.kd g }

/-- The set of a slot for 10,800 rpm is corrected, and kept as a loop gain result (R564). -/
def LoopEngine.correct (e : LoopEngine) (i : LoopId) (g : Nat) : LoopEngine :=
  let c := (e.tuned[i]).corrected g
  { e with tuned := Vec.upd e.tuned i fun _ => c, gains := e.gains.setIfInBounds i.val (some (c.kp, c.ki, c.kd)) }

/-- The corrections of step 11 are applied to the head's loops in slot order (Table 15.1, Table 15.4). -/
def State.keepGains (s : State) (h : Head) (m : CalMeasure) : State :=
  (List.zip (headSlots h) m.vals).foldl (fun u x =>
    (u.updLoop fun e => e.correct x.1 x.2.toNat).updSlot x.1 fun k =>
      ({ k with shadow := { k.shadow with kp := scaled k.cfg.kp x.2.toNat, ki := scaled k.cfg.ki x.2.toNat
                                          kd := scaled k.cfg.kd x.2.toNat } }).apply) s

/-- Some step of the beam stands discarded, or a trim has marked it (R550, R555). -/
def State.stillSuspect (s : State) (h : Head) (b : Beam) : Bool :=
  [1, 2, 3, 12, 13, 14].any (fun n => (s.calUnit n h b).status == .discarded) ||
    (s.beam h b).trimDiscards.toList.any fun n => decide (4 ≤ n)

/-- A step passes (R540, R555, R567). -/
def State.stepPasses (s : State) (step : Nat) (h : Head) (b : Beam) (m : CalMeasure) : State :=
  let s1 := (s.setUnit step h b .passed).updCal fun c => { c with changed := true }
  match scopeOf step with
  | some (.beam _) =>
    let s2 := s1.keepBeam step h b m
    let on := s2.stillSuspect h b
    s2.updBeam h b fun u => { u with suspect := on }
  | some (.head _) => if step = 11 then s1.keepGains h m else s1
  | some (.device _) => if step = 5 then s1.autoStart else s1
  | none => s1

/-- A step is discarded (R553, R554): a beam is marked and loses its validity; step 5 locks the spindle out; step 6 leaves
its head without capture. -/
def State.stepFails (s : State) (step : Nat) (h : Head) (b : Beam) (m : CalMeasure) : State :=
  let s1 := s.setUnit step h b .discarded
  let value := argInt (m.val 0)
  match scopeOf step with
  | some (.beam _) =>
    let s2 := ((s1.updBeam h b fun u => { u with suspect := true }).raise evCalSuspect).log 0x0801
      [arg step, arg (beamIndex h b), value]
    s2.retireInvalid
  | some (.head _) =>
    let s2 := s1.log 0x0801 [arg step, arg (Head.num h), value]
    if step = 6 then s2.captureFails h else s2
  | some (.device _) => if step = 5 then s1.lockOut else s1
  | none => s1

/-- The CALIBRATE that runs a unit, if one does. -/
def State.calibrateOf (s : State) (step : Nat) (h : Head) (b : Beam) : Option Running :=
  s.host.running.find? fun r => r.op == .calibrate && r.calLeft.contains (step, h, b)

/-- A unit of a CALIBRATE has finished; with the last one the command completes and the device section is written (R560,
R567). -/
def State.settleCalibrate (s : State) (step : Nat) (h : Head) (b : Beam) : State :=
  match s.calibrateOf step h b with
  | none => s
  | some r =>
    let left := r.calLeft.filter fun x => x != (step, h, b)
    if left.isEmpty then (s.writeBank).endRunning r .success (r.result.setWidth 64) []
    else s.updRunning r fun x => { x with calLeft := left }

/-- CAL_STEP_END (R535, R540, R553 to R555, R560): a running step has its measured values. -/
def execCalStepEnd (t : Time) (step : Nat) (h : Head) (b : Beam) (m : CalMeasure) (s : State) : Answer :=
  let s1 := s.at t
  .next (if (s1.calUnit step h b).status.runs && s1.stepWorked step then
      let s2 := if s1.discards step h b m then s1.stepFails step h b m else s1.stepPasses step h b m
      (s2.settleCalibrate step h b).followBringup
    else s1)

/-- CAL_PRECONDITION_LOST (R552, R561): `mask` names what has ceased to hold; of it count the step's preconditions, and
IDLE under a CALIBRATE, that do not hold, and back-EMF at REST. -/
def execCalPreconditionLost (t : Time) (step : Nat) (h : Head) (b : Beam) (mask : Word) (s : State) : Answer :=
  let s1 := s.at t
  let cal := s1.calibrateOf step h b
  let needs := Nat.lor (stepNeeds step) (if cal.isSome then 2 ^ 8 else 0)
  let lost := Nat.land (Nat.land mask.toNat needs) (Nat.lor (s1.falseMask h) (2 ^ 4))
  .next (if (s1.calUnit step h b).status.runs && lost != 0 then
      let s2 := s1.setUnit step h b (.aborted (BitVec.ofNat 32 lost))
      (match cal with
        | none => s2
        | some r => s2.endRunning r .notRunPrecondition (BitVec.ofNat 64 lost) []).followBringup
    else s1)

end Sys2Proof.Machine
end

