-- ==== Sys2Proof/Machine/Pace.lean ====
section
/-! DEFINITION. The pace monitor, the VCORE request, the crossing bridges and the clock islands (12_handshake_fabric;
19_electrical R686). -/

namespace Sys2Proof.Machine

/-- Change one pace chain. -/
def State.updChain (s : State) (i : Fin 6) (f : Chain → Chain) : State :=
  s.updPace fun p => { p with chains := Vec.upd p.chains i f }

/-- The domain of a chain is powered. -/
def State.chainOn (s : State) (i : Fin 6) : Bool := s.pwr.domains.getLsbD (i.val + 2)

/-! Readings (R441, R442, R466, R467). -/

/-- PACE_LOW is logged at most once in any 1,000 ms for a domain (R466). -/
def State.paceLow (s : State) (i : Fin 6) (p : Nat) : State :=
  let due : Bool := (s.pace.lowLogged[i]).elim true fun t => decide (t + Config.ms 1000 ≤ s.now)
  if p < 1000 ∧ due = true then
    (s.log 0x0603 [arg (i.val + 2), arg p, arg s.pace.vcore]).updPace fun x =>
      { x with lowLogged := Vec.upd x.lowLogged i fun _ => some s.now }
  else s

/-- A chain that reads 0, or more than 4,000, is faulty until the next power-up (R467). -/
def State.paceFault (s : State) (i : Fin 6) (p : Nat) : State :=
  if (p = 0 ∨ 4000 < p) ∧ (s.pace.chains[i]).faulty = false then
    (s.updChain i fun c => { c with faulty := true }).log 0x0604 [arg (i.val + 2), arg p]
  else s

/-- One reading of one chain: a window during any part of which its domain was unpowered yields none (R442). A faulty
chain's P is taken as 0. -/
def State.paceRead (s : State) (i : Fin 6) (p : Nat) : State :=
  if s.chainOn i && decide ((s.pace.chains[i]).since + 10000 ≤ s.now) then
    let s1 := s.paceFault i p
    let v := if (s1.pace.chains[i]).faulty then 0 else p
    (s1.updChain i fun c => { c with
      latest := v, readings := (s.now, v) :: c.readings.filter fun e => decide (s.now < e.1 + Config.ms 1000 + 10000) }).paceLow i p
  else s

/-- PACE_WINDOW (R442): a 10.0 µs window ends; `counts` are the ring cycles of the chains of domains 2 to 7. -/
def execPaceWindow (t : Time) (counts : List Nat) (s : State) : Answer :=
  .next ((List.finRange 6).foldl (fun u i => u.paceRead i (counts.getD i.val 0)) (s.at t))

/-- The readings of a chain in the last `ns`. -/
def Chain.recent (c : Chain) (now : Time) (ns : Nat) : List Nat :=
  (c.readings.filter fun e => decide (now < e.1 + ns)).map (·.2)

/-- The lowest reading of domains 4 to 7 in the last 1,000 ms with its domain, the lowest of several (R443, R445). -/
def State.paceMin (s : State) : Option (Nat × Nat) :=
  ([2, 3, 4, 5] : List (Fin 6)).foldl (fun acc i =>
    if !s.chainOn i then acc
    else
      match ((s.pace.chains[i]).recent s.now (Config.ms 1000)).foldl (fun m v => some (min v (m.getD v))) none, acc with
      | none, a => a
      | some v, none => some (v, i.val + 2)
      | some v, some a => if v < a.1 then some (v, i.val + 2) else some a) none

/-- R_pace in MB/s (R443). -/
def paceRate (p : Nat) : Nat := p * 100 * 32768 / 1000000

/-- Readings cover every moment back to `start`, newest first from `upto` on. -/
def coverFrom (start : Time) : Time → List (Time × Nat) → Bool
  | _, [] => false
  | upto, e :: es => decide (upto ≤ e.1 + 10000) && (decide (e.1 ≤ start + 10000) || coverFrom start e.1 es)

/-- The powered chains that are not faulty. -/
def State.goodChains (s : State) : List Chain :=
  ((List.finRange 6).filter fun i => s.chainOn i && !(s.pace.chains[i]).faulty).map fun i => s.pace.chains[i]

/-- A CLIP_OPEN waits for its VCORE (R449). -/
def State.vcoreWanted (s : State) : Bool := s.clipOpen || s.host.deferred.any fun d => d.reason == .clipOpen

/-- The step a tick takes in the VCORE request, in mV (R447 to R449). -/
def State.vcoreStep (s : State) : Int :=
  let good := s.goodChains
  let low := good.any fun c => (c.recent s.now (Config.ms 1)).any fun p => decide (p < 1050)
  let calm := good.all fun c =>
    coverFrom (s.now - Config.ms 1000) s.now c.readings && decide (c.since + Config.ms 1000 ≤ s.now) &&
      (c.recent s.now (Config.ms 1000)).all fun p => decide (1150 ≤ p)
  if (low || (s.vcoreWanted && decide (s.pace.vcore < 720))) && decide (s.pace.vcore + 10 ≤ 900) then 10
  else if !low && calm && !s.vcoreWanted && decide (610 ≤ s.pace.vcore) then -10
  else 0

/-- PACE_TICK (R443, R447 to R449): the rate is computed again, which may end a clip, and at most one VCORE request is
made. -/
def execPaceTick (t : Time) (s : State) : Answer :=
  let s1 := s.at t
  let m := s1.paceMin
  let p := (m.map (·.1)).getD 0
  let s2 := s1.updPace fun x => { x with rate := BitVec.ofNat 32 (paceRate p), min := BitVec.ofNat 16 p
                                         minDomain := BitVec.ofNat 4 ((m.map (·.2)).getD 0) }
  let d := s2.vcoreStep
  let s3 := if d ≠ 0 ∧ s2.vole.alive = true ∧ s2.pace.lastStep + Config.ms 1 ≤ s2.now then
      s2.requestVcore ((s2.pace.vcore : Int) + d).toNat
    else s2
  .next s3.checkGuarantee

/-! Bridges (Table 12.4, R455 to R465). -/

/-- What the owner of a bridge does about `items` lost in it (Table 12.7). A lost DDR5 burst write is known by its burst
address, and comes as DDR5_UNCORRECTABLE; DDR5 reads, the transfers of the slow peripherals and writes to Dormouse are
issued again after re-arming, which changes nothing here (log entry 29). -/
def State.lostItems (s : State) (n items : Nat) : State :=
  if items = 0 then s
  else if n < 36 then
    let h : Head := if n < 18 then .a else .b
    let b : Beam := Fin.ofNat 18 n
    let lost := (s.rd.pool.filter fun w => w.head == h && w.beam == b).take items
    lost.foldl (fun u w => (u.updRd fun r => { r with pool := r.pool.erase w }).wordFailed w) s
  else if within 36 45 n then
    let i : LoopId := Fin.ofNat 16 (n - 36)
    (List.range items).foldl (fun u _ => u.putSample i ((u.slot i).take .invalid (u.trimOf i) (outLimit i))) s
  else if laneBridge .a n then (s.doomFlight .a 4).lanesOff .a
  else if laneBridge .b n then (s.doomFlight .b 4).lanesOff .b
  else if within 0x40 0x47 n then (if s.host.link.up then s.resetLink else s)
  else s

/-- PEER_RESET_ASSERT (R459 to R464): the items in the bridge and the `items` in its write path are discarded and counted,
owners are told, and BRIDGE_FLUSH is logged; a planned drain has left nothing in it. -/
def execPeerResetAssert (t : Time) (bridge : Nat) (side : Side) (items : Nat) (planned : Bool) (s : State) : Answer :=
  let s1 := s.at t
  .next (if !bridgeExists bridge then s1
    else if planned then
      s1.updBridge bridge fun b => (({ b with words := [] } : Bridge).flush 0).setReset side true
    else
      let k := (s1.bridge bridge).words.length + items
      let s2 := s1.updBridge bridge fun b => (b.flush items).setReset side true
      let s3 := s2.lostItems bridge k
      s3.log 0x0601 [arg bridge, (match side with
        | .fabric => 0
        | .island => 1), arg k, (s3.bridge bridge).flushed])

/-- The PLL of a bridge's island has lost lock, which holds the island's side in reset (R686). -/
def State.islandHeld (s : State) (n : Nat) : Bool := (bridgeIsland n).any fun i => s.pwr.pllLost.contains i

/-- PEER_RESET_DEASSERT (R463): a side leaves reset, and the bridge re-arms, both pointers at 0, once both have; an island
is not out of reset while its PLL is out of lock. -/
def execPeerResetDeassert (t : Time) (bridge : Nat) (side : Side) (s : State) : Answer :=
  let s1 := s.at t
  .next (if !bridgeExists bridge || (side == .island && s1.islandHeld bridge) then s1
    else s1.updBridge bridge fun b => (b.setReset side false).arm)

/-- The bridges whose sender cannot be held off (R457): AFE and the PCIe receive path. -/
def canOverflow (n : Nat) : Bool := decide (n < 0x30) || within 0x40 0x47 n

/-- The pace index of the domain that receives from a bridge (R457). -/
def State.receiverPace (s : State) (n : Nat) : Nat := (s.pace.chains[(Fin.ofNat 6 (receivingDomain n - 2) : Fin 6)]).latest

/-- BRIDGE_OVERFLOW (R457, R461): a word meets a full bridge, which cannot be while the receiver keeps P ≥ 1,000; it is lost,
counted and logged. A bridge that refuses traffic counts it as discarded. -/
def execBridgeOverflow (t : Time) (bridge : Nat) (s : State) : Answer :=
  let s1 := s.at t
  .next (if !canOverflow bridge then s1
    else if !(s1.bridge bridge).armed then
      (s1.updBridge bridge fun b => { b with flushed := satAdd b.flushed 1 }).lostItems bridge 1
    else if 1000 ≤ s1.receiverPace bridge then s1
    else
      let s2 := s1.updBridge bridge fun b => { b with overflows := satAdd b.overflows 1 }
      (s2.lostItems bridge 1).log 0x0602 [arg bridge, (s2.bridge bridge).overflows])

/-! Islands (R686). -/

/-- The order of Table 12.3. -/
def Island.num (i : Island) : Nat :=
  match i with
  | .afe => 0
  | .writeLane => 1
  | .pcie => 2
  | .ddr5 => 3
  | .slow => 4

/-- Put an island into a list in the order of Table 12.3. -/
def putIsland (i : Island) : List Island → List Island
  | [] => [i]
  | x :: xs => if Island.num x < Island.num i then x :: putIsland i xs else if x = i then x :: xs else i :: x :: xs

/-- What the reset of an island does to its owners at once (Table 12.7): the commutation unit's gates and the loops go
with the AFE island, the lanes to OFF with the write-lane island, the link with the PCIe island. -/
def State.islandLost (s : State) (i : Island) : State :=
  match i with
  | .afe => (((s.clearReady .a).clearReady .b).loopsOff).gatesOff
  | .writeLane => ((((s.doomFlight .a 4).lanesOff .a).doomFlight .b 4).lanesOff .b)
  | .pcie => if s.host.link.up then s.resetLink else s
  | .ddr5 => s
  | .slow => s

/-- PLL_LOCK_LOSS (R686): the island is held in reset, and its bridges undergo peer reset; each flush is a
PEER_RESET_ASSERT of its own. -/
def execPllLockLoss (t : Time) (island : Island) (s : State) : Answer :=
  let s1 := s.at t
  .next (if s1.pwr.pllLost.contains island then s1
    else
      let s2 := s1.updPwr fun w => { w with pllLost := putIsland island w.pllLost }
      let s3 := (islandBridges island).foldl (fun u n => u.updBridge n fun b =>
        { b with armed := false, islandReset := true }) s2
      s3.islandLost island)

/-- PLL_RELOCK (R463, R686): the island leaves reset and its bridges re-arm. -/
def execPllRelock (t : Time) (island : Island) (s : State) : Answer :=
  let s1 := s.at t
  .next (if s1.pwr.pllLost.contains island then
      let s2 := s1.updPwr fun w => { w with pllLost := w.pllLost.erase island }
      (islandBridges island).foldl (fun u n =>
        u.updBridge n fun b => (b.setReset .island false).arm) s2
    else s1)

end Sys2Proof.Machine
end

