-- ==== Sys2Proof/Machine/Drey.lean ====
section
/-! DEFINITION. DDR5 protection: corrected and uncorrectable bursts, the patrol scrub and the reactions of Table 5.7
(05_drey_buffers R183 to R199; 06_volume_map R252 and R253). -/

namespace Sys2Proof.Machine

/-! Decoding (R183 to R186). -/

/-- What the decoder makes of one received codeword, its 20 coefficients highest power first: the corrected word, or none
where it detects errors. Beyond the code's reach the outcome is free. -/
def ddrDecode (lost : Option (Fin 20)) (w : List Byte) : Option (List Byte) :=
  let erased := match lost with
    | none => []
    | some d => [ddrPower d.val]
  let reach := if erased.isEmpty then 1 else 0
  match rsDecode 4 w erased reach with
  | some x => some x
  | none => if (rsDecode 4 w erased 3).isSome then none else Config.beyondReach w

/-- The devices whose symbol differs between two words. -/
def changedDevices (w x : List Byte) : List Nat :=
  (List.range 20).filterMap fun i => if w.getD i 0 = x.getD i 0 then none else some (ddrDevice (19 - i))

/-- A saturating count of one more (R188). -/
def satOne (w : Word) : Word := if w = 0xFFFFFFFF then w else w + 1

/-- Count one corrected symbol of a device (R188). -/
def State.countSymbol (s : State) (d : Nat) : State :=
  s.updDram fun x => { x with corrected := Vec.upd x.corrected (Fin.ofNat 20 d) satOne }

/-- A burst with a corrected symbol of a device counts towards its loss: 64 distinct bursts within 1,000 ms (R196). -/
def State.countBurst (s : State) (burst d : Nat) : State :=
  let kept := s.dram.recent.filter fun e => decide (s.now < e.1 + Config.ms 1000) && !(e.2.1 == d && e.2.2 == burst)
  let l := (s.now, d, burst) :: kept
  let s1 := s.updDram fun x => { x with recent := l }
  if 64 ≤ (l.filter fun e => e.2.1 == d).length then s1.loseDevice (Fin.ofNat 20 d) else s1

/-- A burst is read as the 16 beats of its 20 devices, eight received codewords (R184). Corrected symbols are counted, and
the corrected burst is written back unless the lost device's symbol alone was corrected; a newer write drops the write-back.
A burst with a codeword that is only detected counts as uncorrectable (R185 to R188, R194, R196). -/
def State.readBurst (s : State) (burst : Nat) (beats : List (List (BitVec 4))) (newer : Bool) : State :=
  let words := ddrWords beats
  match words.mapM (ddrDecode s.dram.lost) with
  | none => s.updDram fun x => { x with uncorrectable := satOne x.uncorrectable }
  | some good =>
    let devs := (List.zip words good).flatMap fun x => changedDevices x.1 x.2
    let s2 := devs.foldl State.countSymbol s
    let s3 := devs.eraseDups.foldl (fun u d => u.countBurst burst d) s2
    if devs.all fun d => (s.dram.lost.map (·.val)) == some d then s3
    else if newer then s3.updDram fun x => { x with dropped := x.dropped + 1 }
    else s3.updDram fun x => { x with lastWriteBack := some (burst, good.flatMap fun w => (w.take 16).reverse) }

/-- The DDR5 devices answer: their domain is powered, they are not in self-refresh, and the DDR5 island has lock (R47, R478,
R686). -/
def State.dramServed (s : State) : Bool :=
  s.pwr.domains.getLsbD 14 && !s.dram.selfRefresh && !s.pwr.pllLost.contains .ddr5

/-- The refresh rate of the devices, as a multiple of the normal rate: doubled while any device reports, through its MR4
temperature, above 85 °C (R180, Table 5.3). -/
def State.refreshRate (s : State) : Nat := if s.vole.mr4.toList.any Config.mr4Hot then 2 else 1

/-- DDR5_READ_CORRECTED (R184 to R188, R194, R196). -/
def execDdr5ReadCorrected (t : Time) (burst : Nat) (beats : List (List (BitVec 4))) (newer : Bool) (s : State) : Answer :=
  let s1 := s.at t
  if Config.scrubBursts ≤ burst then .fault .outsideDrey
  else .next (if s1.dramServed then s1.readBurst burst beats newer else s1)

/-! Uncorrectable bursts (R198, Table 5.7). -/

/-- Started FRAME_APPENDs whose frame has lost its slot end: the damaged frame's own with STATE_CONFLICT, since its clip has
been closed (log entry 67), and every later one with FRAME_OUT_OF_ORDER, as the damaged frame's number is the next expected
(R153). -/
def State.endLostAppends (s : State) (clip : Word) (number : Nat) : State :=
  let gone := fun r : Running => r.op == .frameAppend && !s.rcd.frames.any fun f => r.appends f
  let later := fun r : Running => gone r && parm r.entry 0 == clip && decide (number < (parm r.entry 1).toNat)
  (s.endAll later .frameOutOfOrder (BitVec.ofNat 64 number)).endAll gone .stateConflict s.stateValue

/-- The clip of a damaged frame ends behind the frame before it with RECORD_STOPPED (Table 5.7): an open clip is closed, one
whose close record is still due gets that reason, and a close record that has been queued is followed by one that counts the
frames left. -/
def State.stopClipAt (s : State) (clip : Word) (number : Nat) : State :=
  if s.rcd.clip.any fun c => c.prof.clip == clip then s.closeClip 5
  else if s.rcd.closing.any fun c => c.clip == clip then
    s.updRcd fun r => { r with closing := r.closing.map fun c => if c.clip == clip then { c with reason := 5 } else c }
  else
    match s.closedCount clip with
    | none => s
    | some n => if n ≤ number then s else s.recloseClip clip number

/-- A frame that is not committed is damaged: its clip ends before it with RECORD_STOPPED, its slot and those of the later
frames of the clip are freed (Table 5.7). -/
def State.damageFrame (s : State) (clip : Word) (number : Nat) : State :=
  if (s.findFrame clip number).isNone then s
  else
    let s1 := s.stopClipAt clip number
    ((s1.loseFrames fun f => f.clip == clip && decide (number ≤ f.number)).endLostAppends clip number).publish

/-- A sector of the review pool is damaged: fetched once more from its source, the second time the command fails. -/
def State.damageReview (s : State) (fn : FnId) (q : QId) (cid : BitVec 16) (lsn : Nat) (twice : Bool) : State :=
  match s.host.running.find? (fun r => r.org.fn == fn && r.org.q == q && r.entry.cid == cid && r.lsns.contains lsn) with
  | none => s
  | some r =>
    if twice then (s.endRunning r .mediaUnrecovered (BitVec.ofNat 64 (r.firstLost lsn)) (r.partialData lsn)).trimAssembly
    else
      match s.frameOfLsn lsn with
      | some _ => s
      | none => s.updRunning r fun x => { x with got := x.got.filter fun g => g.1 != lsn
                                                 need := if x.need.contains lsn then x.need else x.need ++ [lsn] }

/-- The fetched commands of a queue that have not completed: those that wait, and those deferred before their start. -/
def State.unended (s : State) (fn : FnId) (q : QId) : List Fetched :=
  (s.host.deferred.map (·.cmd)).filter (fun f => f.org.fn == fn && f.org.q == q && !f.org.uart) ++ (s.queue fn q).waiting

/-- Take one fetched command out of where it waits. -/
def State.dropFetchedOne (s : State) (f : Fetched) : State :=
  (s.touchLink.updHost fun h => { h with deferred := h.deferred.filter fun d => !(d.cmd.org == f.org) }).updQueue f.org.fn f.org.q
    fun u => { u with waiting := u.waiting.filter fun x => !(x.org == f.org) }

/-- Side-pool data are damaged: the command ends with DMA_ERROR if it has not completed, else AUX_DATA_LOST is logged and
the AUX record is not written. -/
def State.damageSide (s : State) (fn : FnId) (q : QId) (cid : BitVec 16) (offset : Nat) (clip frame stream : Word) : State :=
  let mine := fun f : Fetched => f.org.fn == fn && f.org.q == q && f.entry.cid == cid &&
    (Opcode.ofCode f.entry.opcode == some .auxAppend || Opcode.ofCode f.entry.opcode == some .metaWrite)
  match (s.unended fn q).find? mine with
  | some f => (s.dropFetchedOne f).finish f.org f.entry f.alloc .dmaError (entryAddress f.entry offset) []
  | none =>
    let s1 := s.log 0x0103 [clip, frame, stream]
    let hit := fun v : VolRecord => v.rtype == 0x0A && v.key == clip &&
      v.index == BitVec.ofNat 32 (frame.toNat * 256 + stream.toNat)
    (s1.updRcd fun r => { r with records := r.records.filter fun x => !(hit x.vol && !x.packed) })

/-- The part of DDR5 that a burst lies in (R161, R204, Tables 5.1 and 6.1). -/
inductive DramArea where
  | frames
  | review
  | scurry
  | side
  | assembly
  | volumeMap
  | lists
  | working
  | selfTest
deriving DecidableEq, Repr

/-- The area of a burst of 128 bytes below 18 GiB (R161, R162, R204). -/
def areaOf (burst : Nat) : DramArea :=
  let a := 128 * burst
  if a < Config.reviewBase then .frames
  else if a < Config.scurryBase then .review
  else if a < Config.sideBase then .scurry
  else if a < Config.assemblyBase then .side
  else if a < Config.internalBase then .assembly
  else if a < Config.internalBase + Config.listsOffset then .volumeMap
  else if a < Config.internalBase + Config.workingOffset then .lists
  else if a < Config.internalBase + Config.testOffset then .working
  else .selfTest

/-- The area in which what a damaged burst holds is kept (Tables 5.1 and 6.1). -/
def regionArea (r : DreyRegion) : DramArea :=
  match r with
  | .frame _ _ => .frames
  | .review _ _ _ _ _ => .review
  | .assembly _ => .assembly
  | .scurry _ => .scurry
  | .side _ _ _ _ _ _ _ => .side
  | .volumeMap _ => .volumeMap
  | .relocationList | .accessList | .shadow _ => .lists
  | .working => .working
  | .selfTest => .selfTest

/-- DDR5_UNCORRECTABLE (R188, R198, R252, R253): by the region that holds the burst. The volume map is rebuilt from its
records, the lists from the RELOCATION and the ACCESS_RANGE records, the shadow from the lists. -/
def execDdr5Uncorrectable (t : Time) (burst : Nat) (region : DreyRegion) (s : State) : Answer :=
  let s1 := (s.at t).updDram fun x => { x with uncorrectable := satOne x.uncorrectable }
  if Config.scrubBursts ≤ burst then .fault .outsideDrey
  else if !(s.at t).dramServed || areaOf burst != regionArea region then .next (s.at t)
  else .next (match region with
    | .frame clip number => s1.damageFrame clip number
    | .review fn q cid lsn twice => s1.damageReview fn q cid lsn twice
    | .assembly psa => s1.setPart psa .erased
    | .scurry lsn => s1.dropScurryLsn lsn
    | .side fn q cid offset clip frame stream => s1.damageSide fn q cid offset clip frame stream
    | .volumeMap line => { s1 with vmap := s1.vmap.rebuildLine (128 * line) }
    | .relocationList => s1.updBurrow fun b => { b with relocs := relocList s1.vmap.records }
    | .accessList => s1.updBurrow fun b => { b with ranges := rangeList s1.vmap.records }
    | .shadow row => s1.updBurrow fun b => b.rebuildShadow row
    | .working | .selfTest => s1)

/-- A burst lies in memory that has been filled (R190, R191). -/
def State.filled (s : State) (burst : Nat) : Bool :=
  s.dram.fillStart.isSome && (decide (0x400000000 ≤ 128 * burst) || decide (128 * (burst + 1) ≤ s.covered))

/-- The interval between scrub reads in ns (R192, Table 5.6). -/
def State.scrubInterval (s : State) : Nat :=
  if !s.rd.bufferScrub then 25000 else if s.clipOpen then 5000 else 1000

/-- SCRUB_READ (R192): when its interval has passed, the scrub reads its next burst, of the first 18 GiB, once it has been
filled; the read follows R187. -/
def execScrubRead (t : Time) (beats : List (List (BitVec 4))) (newer : Bool) (s : State) : Answer :=
  let s1 := s.at t
  .next (if s1.dramServed && s1.filled s1.dram.patrol && decide (s1.dram.lastScrub + s1.scrubInterval ≤ s1.now) then
      (s1.readBurst s1.dram.patrol beats newer).updDram fun x => { x with
        patrol := (x.patrol + 1) % Config.scrubBursts, lastScrub := s1.now }
    else s1)

end Sys2Proof.Machine
end

