-- ==== Sys2Proof/Machine/Cache.lean ====
section
/-! DEFINITION. The metadata cache, its eviction buffer and Hoard (06_volume_map_burrow R214 to R220, R254). -/

namespace Sys2Proof.Machine

/-- Bits `hi` to `lo` of a number. -/
def bitsOf (a hi lo : Nat) : Nat := a / 2 ^ lo % 2 ^ (hi + 1 - lo)

/-- The set index of a volume map byte address (R215). -/
def cacheSet (a : Nat) : Nat := Nat.xor (Nat.xor (bitsOf a 15 7) (bitsOf a 24 16)) (bitsOf a 30 25)

/-- The tag of an address (R215). -/
def cacheTag (a : Nat) : Nat := bitsOf a 30 16

/-- The address of the line that holds an address. -/
def lineOf (a : Nat) : Nat := a / 128 * 128

/-- The seven tree bits of a set. -/
def CacheState.tree (c : CacheState) (set : Nat) : BitVec 7 :=
  match c.plru.find? (fun x => x.1 == set) with
  | some x => x.2
  | none => 0

/-- Put the tree bits of a set into the list, which rises by set. -/
def putTree (set : Nat) (v : BitVec 7) : List (Nat × BitVec 7) → List (Nat × BitVec 7)
  | [] => [(set, v)]
  | x :: xs => if x.1 < set then x :: putTree set v xs else if x.1 = set then (set, v) :: xs else (set, v) :: x :: xs

/-- Set or clear a tree bit. -/
def treeBit (v : BitVec 7) (n : Nat) (on : Bool) : BitVec 7 :=
  if on then v ||| BitVec.ofNat 7 (2 ^ n) else v &&& ~~~(BitVec.ofNat 7 (2 ^ n))

/-- After a use of a way its three tree bits point to the other side. The tree is a heap: bit 0 the root, a clear bit
names the lower half (log entry 32). -/
def touchTree (v : BitVec 7) (way : Nat) : BitVec 7 :=
  let hi := way / 4 % 2
  let mid := way / 2 % 2
  let v1 := treeBit v 0 (hi == 0)
  let v2 := treeBit v1 (1 + hi) (mid == 0)
  treeBit v2 (3 + 2 * hi + mid) (way % 2 == 0)

/-- The way that the tree names for replacement. -/
def treeVictim (v : BitVec 7) : Nat :=
  let hi := if v.getLsbD 0 then 1 else 0
  let mid := if v.getLsbD (1 + hi) then 1 else 0
  let lo := if v.getLsbD (3 + 2 * hi + mid) then 1 else 0
  4 * hi + 2 * mid + lo

/-- The line that holds an address, if it is cached. -/
def CacheState.find (c : CacheState) (a : Nat) : Option CacheLine :=
  c.lines.find? fun l => l.set == cacheSet a && l.tag == cacheTag a

/-- Use a line: the tree follows, a write changes its bytes and makes it dirty (write-back). -/
def CacheState.use (c : CacheState) (l : CacheLine) (r : CacheReq) : CacheState :=
  { c with
    lines := c.lines.map fun x =>
      if x.set == l.set && x.way == l.way then
        { x with dirty := x.dirty || r.write, data := overlay (lineOf r.addr) x.data r.addr r.bytes }
      else x
    plru := putTree l.set (touchTree (c.tree l.set) l.way) c.plru }

/-- The byte address of a line, from its set and tag (R215). -/
def CacheLine.addr (l : CacheLine) : Nat :=
  let low := Nat.xor (Nat.xor l.set (l.tag % 512)) (l.tag / 512)
  l.tag * 65536 + low * 128

/-- The way a new line of a set takes: the lowest free one, else the tree's. -/
def CacheState.wayFor (c : CacheState) (set : Nat) : Nat :=
  let used := (c.lines.filter fun l => l.set == set).map (·.way)
  match (List.range 8).find? (fun w => !used.contains w) with
  | some w => w
  | none => treeVictim (c.tree set)

/-- Install a line (R219): a dirty victim enters the eviction buffer, a clean one Hoard, which keeps 16; none where the
eviction buffer has no room for it. -/
def CacheState.install (c : CacheState) (a : Nat) (dirty : Bool) (data : List Byte) : Option CacheState :=
  let set := cacheSet a
  let way := c.wayFor set
  let l : CacheLine := { set := set, way := way, tag := cacheTag a, dirty := dirty, data := data }
  let put := fun (d : CacheState) => { d with
    lines := (d.lines.filter fun x => !(x.set == set && x.way == way)) ++ [l]
    plru := putTree set (touchTree (d.tree set) way) d.plru }
  match c.lines.find? (fun x => x.set == set && x.way == way) with
  | none => some (put c)
  | some v =>
    if v.dirty then (if c.eviction.length < 8 then some (put { c with eviction := c.eviction ++ [(v.addr, v.data)] }) else none)
    else
      let h := c.hoard ++ [(v.addr, v.data)]
      some (put { c with hoard := h.drop (h.length - 16) })

/-- A line among victims. -/
def victim (l : List (Nat × List Byte)) (line : Nat) : Option (List Byte) := (l.find? fun x => x.1 == line).map (·.2)

/-- Victims without a line. -/
def dropVictim (l : List (Nat × List Byte)) (line : Nat) : List (Nat × List Byte) := l.filter fun x => x.1 != line

/-- Install a line and do the request that asked for it; the line leaves the eviction buffer and Hoard (R218). -/
def CacheState.installFor (c : CacheState) (r : CacheReq) (dirty : Bool) (data : List Byte) : Option CacheState :=
  let line := lineOf r.addr
  let out := { c with eviction := dropVictim c.eviction line, hoard := dropVictim c.hoard line }
  out.install r.addr (dirty || r.write) (overlay line data r.addr r.bytes)

/-- A request that reaches the cache with no miss outstanding (R218): a hit, a line found in the eviction buffer, which
returns dirty, or in Hoard, which returns clean, or a miss that becomes outstanding. -/
def CacheState.serve (c : CacheState) (r : CacheReq) : CacheState :=
  let line := lineOf r.addr
  match c.find r.addr with
  | some l => c.use l r
  | none =>
    match victim c.eviction line, victim c.hoard line with
    | some d, _ => (c.installFor r true d).getD { c with miss := some r }
    | none, some d => (c.installFor r false d).getD { c with miss := some r }
    | none, none => { c with miss := some r }

/-- A request (R216, R217): while a miss is outstanding, hits on other lines are served unless a request waits already. -/
def CacheState.access (c : CacheState) (r : CacheReq) : CacheState :=
  match c.miss with
  | none => c.serve r
  | some m =>
    match c.find r.addr with
    | some l =>
      if c.queue.isEmpty && lineOf r.addr != lineOf m.addr then c.use l r else { c with queue := c.queue ++ [r] }
    | none => { c with queue := c.queue ++ [r] }

/-- The requests that waited come again in their order of arrival, once the fill is complete: hits are served until one
misses, and from then on as while that miss is outstanding (R216, R217). -/
def CacheState.drainQueue (c : CacheState) : CacheState := c.queue.foldl CacheState.access { c with queue := [] }

/-- The outstanding miss gets its line, read from DDR5 unless a victim of the same line waits, where its own victim has a
place to go (R217 to R220). -/
def CacheState.fill (c : CacheState) (line : List Byte) : CacheState :=
  match c.miss with
  | none => c
  | some r =>
    let held := victim c.eviction (lineOf r.addr)
    let data := (held.orElse fun _ => victim c.hoard (lineOf r.addr)).getD line
    match c.installFor r held.isSome data with
    | none => c
    | some d => ({ d with miss := none }).drainQueue

/-- A place of a record in the volume map: what was named there before is there no longer. -/
def MapState.place (m : MapState) (a : Nat) (r : VolRecord) : List (Nat × BitVec 8 × Word × Word) :=
  let apart := fun p : Nat × BitVec 8 × Word × Word =>
    decide (p.2 ≠ (r.rtype, r.key, r.index)) && (m.named p.2).any fun x =>
      decide (p.1 + x.bytes.length ≤ a) || decide (a + r.bytes.length ≤ p.1)
  m.placed.filter apart ++ [(a, r.rtype, r.key, r.index)]

/-- The bytes of a record stand at its place, in DDR5 and in every copy of its lines. -/
def MapState.poke (m : MapState) (a : Nat) (bs : List Byte) : MapState :=
  let v := fun x : Nat × List Byte => (x.1, overlay x.1 x.2 a bs)
  { m with
    mem := Memory.writeAll m.mem a bs
    cache := { m.cache with
      lines := m.cache.lines.map fun l => { l with data := overlay l.addr l.data a bs }
      eviction := m.cache.eviction.map v
      hoard := m.cache.hoard.map v } }

/-- The requests of an access to bytes from an address on: every line in order, with the bytes that a write puts there. -/
def lineRequests (a : Nat) (bs : List Byte) (write : Bool) : List CacheReq :=
  (List.range ((a + bs.length + 127) / 128 - a / 128)).map fun i =>
    let from_ := max a (128 * (a / 128 + i))
    { addr := from_, write := write
      bytes := if write then (bs.drop (from_ - a)).take (128 * (a / 128 + i + 1) - from_) else [] }

/-- A command processor reaches a record at its place through the cache (R214): a read finds it as it stands there, a write
puts it there. The place is the operand's (log entry 157). -/
def State.cacheAccess (s : State) (a : Nat) (r : VolRecord) (write : Bool) : State :=
  let known := s.vmap.placed.contains (a, r.rtype, r.key, r.index)
  let m := { s.vmap with placed := s.vmap.place a r }
  let m1 := if write || known then m else m.poke a r.bytes
  (lineRequests a r.bytes write).foldl (fun u q => u.updCache fun c => c.access q) { s with vmap := m1 }

/-- CACHE_FILL_COMPLETE (R217): the line of the outstanding miss has been read from DDR5. -/
def execCacheFillComplete (t : Time) (s : State) : Answer :=
  let s1 := s.at t
  .next (if !s1.dramServed then s1
    else s1.updCache fun c => c.fill (Memory.readAll s1.vmap.mem (lineOf ((c.miss.map (·.addr)).getD 0)) 128))

/-- EVICTION_WRITEBACK (R220): the oldest line of the eviction buffer is written back. -/
def execEvictionWriteback (t : Time) (s : State) : Answer :=
  let s1 := s.at t
  .next (if !s1.dramServed then s1
    else
      match s1.vmap.cache.eviction with
      | [] => s1
      | x :: rest => ({ s1 with vmap := { s1.vmap with mem := Memory.writeAll s1.vmap.mem x.1 x.2 } }).updCache fun c =>
          { c with eviction := rest })

/-- A discarded line is rebuilt in DDR5 (R252, R254). -/
def State.rebuildLine (s : State) (line : Nat) : State := { s with vmap := s.vmap.rebuildLine line }

/-- A cache memory has failed its parity (R254): a clean line or a Hoard line goes and is read again, a dirty line or an
entry of the eviction buffer goes and is rebuilt. -/
def State.cacheParity (s : State) (site : CacheSite) : State :=
  let c := s.vmap.cache
  match site with
  | .line set way =>
    match c.lines.find? (fun l => l.set == set && l.way == way) with
    | none => s
    | some l =>
      let d := { c with lines := c.lines.filter fun x => !(x.set == set && x.way == way) }
      if l.dirty then (s.updCache fun _ => d).rebuildLine l.addr
      else s.updCache fun _ => d.access { addr := l.addr, write := false }
  | .eviction i =>
    match c.eviction[i]? with
    | none => s
    | some x => (s.updCache fun _ => { c with eviction := c.eviction.eraseIdx i }).rebuildLine x.1
  | .hoard i =>
    match c.hoard[i]? with
    | none => s
    | some x => s.updCache fun _ => ({ c with hoard := c.hoard.eraseIdx i }).access { addr := x.1, write := false }

/-- CACHE_PARITY_ERROR (R189, R254): acted on where the byte and its parity bit fail the check. -/
def execCacheParityError (t : Time) (site : CacheSite) (byte : Byte) (parity : Bool) (s : State) : Answer :=
  .next (if parityFails byte parity then (s.at t).cacheParity site else s.at t)

end Sys2Proof.Machine
end

