-- ==== Sys2Proof/Machine/Registers.lean ====
section
/-! DEFINITION. What reads of the registers return: the configuration space, the windows BAR0 and BAR2 of a function, and
the Loop Engine's register file (00_scope R4, R8, R9; 03_host_link_tenants R68 to R95a, R109, R110; 04_command_packets R131,
R132; 10_loop_engine R394; 12_handshake_fabric R445; 13_power_states R491; 19_electrical_timing R676). A read but for the
captures of R132 changes nothing, so its answer is a function of the state (log entry 161). -/

namespace Sys2Proof.Machine

/-! The configuration space (Tables 3.1 and 3.2). -/

/-- What the configuration space of a function advertises; the registers that hold it are those of the PCI Express Base
Specification, whose layout this spec does not repeat (R68). -/
structure ConfigSpace where
  /-- Table 3.2. -/
  vendor : Nat
  /-- Table 3.2. -/
  device : Nat
  /-- R73. -/
  classCode : Nat
  /-- Table 3.1, in 0.1 GT/s. -/
  rates : List Nat
  /-- Table 3.1. -/
  widths : List Nat
  /-- R76: the bytes of BAR0 with BAR1 and of BAR2 with BAR3, 64-bit and non-prefetchable; BAR4 and BAR5 do not exist. -/
  bars : List Nat
  /-- Table 3.1: MSI-X vectors; there is no MSI and no INTx. -/
  vectors : Nat
  /-- Table 3.1, in bytes. -/
  maxPayload : List Nat
  /-- Table 3.1, in bytes. -/
  maxReadRequest : List Nat
  /-- Table 3.1: outstanding non-posted requests, with 8-bit extended tags. -/
  tags : Nat
  /-- Table 3.1: L1 with L1.1 and L1.2; there is no L0s. -/
  l1 : Bool
  l1Substates : Bool
  l0s : Bool
  /-- R72: the L1 exit latency in ns. -/
  l1ExitNs : Nat
  /-- R72: T_POWER_ON of L1.2 in µs. -/
  tPowerOnUs : Nat
deriving DecidableEq, Repr

/-- A function appears on the link: in recovery F3 alone (R73). -/
def State.appears (s : State) (fn : FnId) : Bool := !s.quill.recovery || fn == 3

/-- The configuration space of a function (R68, R72, R73, R76, R104); the L1 exit latency is free below 8 µs. -/
def State.configSpace (s : State) (fn : FnId) : ConfigSpace where
  vendor := 0x1F8D
  device := s.deviceId fn
  classCode := 0x018000
  rates := [25, 50, 80, 160]
  widths := [1, 2, 4, 8]
  bars := [65536, 16384]
  vectors := 64
  maxPayload := [128, 256, 512]
  maxReadRequest := [128, 256, 512, 1024, 2048, 4096]
  tags := 256
  l1 := true
  l1Substates := true
  l0s := false
  l1ExitNs := Config.l1ExitNs % 8000
  tPowerOnUs := 70

/-! BAR0 (Table 3.3). -/

/-- Two 16-bit fields of a word. -/
def halves (hi lo : Nat) : Word := BitVec.ofNat 32 (hi * 2 ^ 16 + lo)

/-- The latest P of a domain's chain, 0 when the domain is unpowered (Table 12.1). -/
def State.paceField (s : State) (d : Nat) : Nat :=
  if s.pwr.domains.getLsbD d then (s.pace.chains[(Fin.ofNat 6 (d - 2) : Fin 6)]).latest % 65536 else 0

/-- A target of the power registers, 7 for none (Table 13.7). -/
def targetField (p : Option PowerState) : Nat := (p.map PowerState.num).getD 7

/-- The word at 0x0060 (Table 13.7). -/
def State.powerWord (s : State) : Word :=
  let w := s.pwr
  BitVec.ofNat 32 (PowerState.num w.state * 2 ^ 29 + targetField w.running * 2 ^ 26 + targetField w.pending * 2 ^ 23 +
    w.exitFrom.toNat * 2 ^ 20 + bit w.byReplay 16 + w.lastWake.toNat * 2 ^ 12 + bit (s.rcd.clip.any (·.prof.holdAwake)) 8 +
    bit w.storm[2] 2 + bit w.storm[1] 1 + bit w.storm[0] 0)

/-- The function identity and control region: reset epoch, pace, power and FSYNC registers (R77, Tables 12.1, 13.7 and
19.8); WAKE_REARM is WO. -/
def State.controlReg (s : State) (fn : FnId) (off : Nat) : Word :=
  match off with
  | 0x10 => (s.func fn).epoch.setWidth 32
  | 0x40 => s.pace.rate
  | 0x44 => halves s.pace.minDomain.toNat s.pace.min.toNat
  | 0x48 => halves (s.paceField 3) (s.paceField 2)
  | 0x4C => halves (s.paceField 5) (s.paceField 4)
  | 0x50 => halves (s.paceField 7) (s.paceField 6)
  | 0x54 => halves 0 s.pace.vcore
  | 0x60 => s.powerWord
  | 0x70 => s.sync.ignored
  | 0x74 => s.sync.period
  | _ => 0

/-- The arbitration weights (Table 3.6), readable through every function (R91). -/
def Arbiter.word (a : Arbiter) : Word := a.w3 ++ a.w2 ++ a.w1 ++ a.w0

/-- A register of a queue pair (Table 3.4). -/
def QueuePair.reg (p : QueuePair) (fn : FnId) (off : Nat) : Word :=
  match off with
  | 0x00 => p.sqBase.extractLsb' 0 32
  | 0x04 => p.sqBase.extractLsb' 32 32
  | 0x08 => p.cqBase.extractLsb' 0 32
  | 0x0C => p.cqBase.extractLsb' 32 32
  | 0x10 => p.ctrlWord fn
  | 0x14 => p.statusWord
  | 0x18 => BitVec.ofNat 32 p.cqTail
  | _ => 0

/-- The 64 bytes of an error log entry, little-endian (R4, Table 3.5). -/
def ErrEntry.bytes (e : ErrEntry) : List Byte :=
  le 8 e.seq ++ le 2 e.queue.toNat ++ le 2 e.sqIndex.toNat ++ le 1 e.opcode.toNat ++ [if e.halted then 1 else 0] ++
    le 2 e.status.toNat ++ le 2 e.cid.toNat ++ le 2 0 ++ le 4 e.stateCode.toNat ++ le 8 e.detail.toNat ++ le 8 e.timeUs ++
    Word.zeros 24

/-- Place i of the error log page: the entry whose sequence number is i modulo 64, zeros where it is unused (Table 3.5). -/
def Func.errSlot (f : Func) (i : Nat) : List Byte :=
  ((f.errLog.find? fun e => e.seq % 64 == i).map ErrEntry.bytes).getD (Word.zeros 64)

/-- A word of the error log page, from its start on. -/
def Func.errWord (f : Func) (off : Nat) : Word :=
  BitVec.ofNat 32 (Word.ofBytesLE (((f.errSlot (off / 64)).drop (off % 64)).take 4))

/-- What a 32-bit read of BAR0 returns while no capture of R132 stands in its way (Table 3.3): both doorbells read 0, and
so does every reserved word (R8, R84). An offset that is no multiple of 4 reads as a reserved word (log entry 161). -/
def State.readBar0 (s : State) (fn : FnId) (off : Nat) : Word :=
  if off % 4 ≠ 0 then 0
  else if off < 0x100 then s.controlReg fn off
  else if off < 0x400 then s.eventReg fn off
  else if off = 0x400 then s.host.arb.word
  else if within 0x800 0x8FF off then (s.host.locks[(Fin.ofNat 64 ((off - 0x800) / 4) : LockId)]).word
  else if within 0x2000 0x23FF off then (s.queue fn (Fin.ofNat 32 ((off - 0x2000) / 32))).reg fn (off % 32)
  else if within 0x8000 0x8FFF off then (s.func fn).errWord (off - 0x8000)
  else 0

/-- A 64-bit read: both words from one instant, with no use of a capture (R132, R445). -/
def State.readBar0Wide (s : State) (fn : FnId) (off : Nat) : DWord := s.readBar0 fn (off + 4) ++ s.readBar0 fn off

/-- A read in the MSI-X window: the table as written (log entry 13); no message is ever held back, so the pending-bit
array at 0x2000 reads 0 (R76). -/
def State.readBar2 (s : State) (fn : FnId) (off : Nat) : Word :=
  (((s.func fn).msixTable.find? fun x => x.1 == off).map (·.2)).getD 0

/-! The Loop Engine (Table 10.4). -/

/-- STATE of a slot. -/
def LoopMode.num (m : LoopMode) : Nat :=
  match m with
  | .idle => 0
  | .ramp => 1
  | .run => 2
  | .hold _ => 3
  | .trip => 4

/-- A register of a slot; RW fields read as last written (R9), which is the shadow set. APPLY is WO. -/
def LoopSlot.reg (k : LoopSlot) (off : Nat) : Word :=
  let c := k.shadow
  match off with
  | 0x00 => BitVec.ofNat 32 (bit k.enable 31 + c.source.toNat * 2 ^ 27 + c.supervision.toNat * 2 ^ 21 + bit c.derivOn 20 +
      bit c.refExt 19 + c.outShift.toNat * 2 ^ 15 + c.input.toNat * 2 ^ 7 + c.output.toNat)
  | 0x04 => c.kp ++ c.ki
  | 0x08 => c.kd ++ c.af
  | 0x0C => c.refTarget ++ c.ff
  | 0x10 => c.uMax ++ c.uMin
  | 0x14 => c.iLim ++ c.rampLen
  | 0x18 => c.supLim ++ c.supTime
  | 0x1C => halves c.rdyLim.toNat c.div.toNat
  | 0x20 => BitVec.ofNat 32 (LoopMode.num k.mode * 2 ^ 29 + k.cause.toNat * 2 ^ 26 + bit k.cfgErr 25 + k.supCount.toNat)
  | 0x24 => k.eLast ++ k.uLast
  | 0x28 => k.missed ++ k.overrun
  | _ => 0

/-- A firmware read of the Loop Engine's register file (R394). -/
def LoopEngine.reg (e : LoopEngine) (off : Nat) : Word :=
  if off % 4 ≠ 0 then 0
  else if off < 0x400 then (e.slots[(Fin.ofNat 16 (off / 0x40) : LoopId)]).reg (off % 0x40)
  else if off = 0x400 then BitVec.ofNat 32 (bit e.readyB 1 + bit e.readyA 0)
  else if off = 0x404 then e.speedTrim.setWidth 32
  else if off = 0x408 then e.phaseStep
  else 0

/-! Reads that meet a capture (R132). -/

/-- Change the captures of a function. -/
def State.updCaptures (s : State) (fn : FnId) (f : Captures → Captures) : State :=
  s.updFunc fn fun u => { u with captures := f u.captures }

/-- Answer a register read. -/
def State.answer (s : State) (fn : FnId) (off : Nat) (v : Word) : State := s.emit (.readValue fn off v)

/-- What a capture holds of an offset. -/
def Captures.held (c : Captures) (off : Nat) : Option Word :=
  match off with
  | 0x104 => c.commitFrames
  | 0x11C => c.outRate
  | 0x120 => c.timeToFull
  | _ => none

/-- The captures after a 32-bit read of an offset: 0x100 and 0x118 make them, 0x104, 0x11C and 0x120 end them, other reads
leave them in place (R132). -/
def State.capturesAfter (s : State) (fn : FnId) (off : Nat) (c : Captures) : Captures :=
  match off with
  | 0x100 => { c with commitFrames := some (s.readBar0 fn 0x104) }
  | 0x118 => { c with outRate := some (s.readBar0 fn 0x11C), timeToFull := some (s.readBar0 fn 0x120) }
  | 0x104 => { c with commitFrames := none }
  | 0x11C => { c with outRate := none }
  | 0x120 => { c with timeToFull := none }
  | _ => c

/-- A 32-bit read of BAR0 by a function (R132). -/
def State.read32 (s : State) (fn : FnId) (off : Nat) : State :=
  (s.answer fn off (((s.func fn).captures.held off).getD (s.readBar0 fn off))).updCaptures fn (s.capturesAfter fn off)

end Sys2Proof.Machine
end

