-- ==== Sys2Proof/Machine/Sync.lean ====
section
/-! DEFINITION. Excursions, FSYNC and timecode, and the registers that the host and firmware write or read
(16_modes R574 to R577; 19_electrical R675 to R681; 04_command_packets R131, R132, R136; 03_host_link R76 to R91;
10_loop_engine R390 to R394). -/

namespace Sys2Proof.Machine

/-! Excursions. -/

/-- A read waits for the medium. -/
def State.reviewWaits (s : State) : Bool := s.host.running.any fun r => !r.need.isEmpty

/-- The condition of R575 on the frame pool: A + D × 1.0 s + M ≤ W. -/
def State.excursionFits (s : State) : Bool :=
  match s.rcd.clip with
  | none => false
  | some c => decide (s.occupancy + c.prof.rate + s.params.reviewMarginMib * 1048576 ≤ s.warnLevel)

/-- EXCURSION_START (R575, R576): at a group boundary of either head, or at a layer end, where it takes the turnaround's place;
groups in progress are padded, Scurry does not run. -/
def execExcursionStart (t : Time) (s : State) : Answer :=
  let s1 := s.at t
  let boundary := bothHeads.any fun h => (s1.wh h).open3.isNone
  .next (if s1.rd.excursion.isNone && boundary && s1.reviewWaits && s1.excursionFits && s1.mountedRW then
      ((s1.stopRecording).updRcd fun r => { r with turnAt := none }).updRd fun r =>
        { r with excursion := some s1.now, scurryA := false, scurryB := false }
    else s1)

/-- EXCURSION_END (R577): the heads return; recording goes on under R41 where both can write, else at the next
RECORDING_RESUME. -/
def execExcursionEnd (t : Time) (s : State) : Answer :=
  let s1 := s.at t
  .next (if s1.rd.excursion.isNone then s1
    else
      let s2 := s1.updRd fun r => { r with excursion := none }
      if s2.encoding && s2.rcd.stopped && (bothHeads.all fun h => s2.mayWrite h && (s2.wh h).open3.isNone) then s2.resume
      else s2)

/-! FSYNC (R369, R390, R675, R676, R679). -/

/-- One revolution in 1/256 wedge: 1,152 wedges. -/
def angleTurn : Nat := 294912

/-- The input of slot 9: the captured less the expected angle, 576 wedges being full scale, saturated (R369). -/
def angleInput (captured expected : Nat) : Q15 :=
  let d := (captured + angleTurn - expected % angleTurn) % angleTurn
  let e : Int := if d < angleTurn / 2 then d else (d : Int) - angleTurn
  toQ (sat16 (divAway (e * 32768) 147456))

/-- Eight accepted edges have come whose spacing varies by no more than 1 % (R390). -/
def steadySpacing (l : List Nat) : Bool :=
  match l.take 7 with
  | [] => false
  | x :: xs => decide (l.length ≥ 7) && decide (100 * (xs.foldl max x - xs.foldl min x) ≤ xs.foldl min x)

/-- Slot 9 takes its sample of the edge: its expected angle advances by PHASE_STEP. -/
def State.phaseSample (s : State) (angle : Nat) : State :=
  let want := s.loop.expectedAngle
  let s1 := s.updLoop fun e => { e with expectedAngle := (want + s.loop.phaseStep.toNat) % angleTurn }
  let k := s1.slot 9
  let n := k.events + 1
  if !k.active then s1
  else if n < max 1 k.cfg.div.toNat then s1.updSlot 9 fun x => { x with events := n }
  else s1.putSample 9 (({ k with events := 0 }).sample (q (angleInput angle want)) 0 (outLimit 9))

/-- Firmware enables slot 9 again after eight steady pulses (R390); a tripped slot stays (R389). -/
def State.phaseEnable (s : State) : State :=
  if !(s.slot 9).enable && (s.slot 9).mode == .idle && steadySpacing s.sync.spacings && s.servoOn then s.enableSlot 9 else s

/-- An accepted FSYNC edge. -/
def State.acceptFsync (s : State) (angle : Nat) : State :=
  let gap := (s.sync.lastEdge.map fun e => (s.now - e) / 1000)
  let s1 := s.updSync fun y => { y with
    lastEdge := some s.now, latched := y.toLatch s.now
    period := match gap with
      | none => y.period
      | some g => BitVec.ofNat 32 g
    spacings := match gap with
      | none => []
      | some g => if g ≤ 100000 then (g :: y.spacings).take 8 else [] }
  (s1.phaseSample angle).phaseEnable

/-- FSYNC_EDGE (R675): a rise that stays high for `highNs`; `angle` is the spindle angle captured at it, in 1/256 wedge. A
pulse below 100 ns is no edge; an edge within 4.0 ms of the last accepted one is ignored and counted. Nothing happens before
the domain of the pin has left reset (R48, Table 18.1). -/
def execFsyncEdge (t : Time) (highNs : Nat) (angle : Nat) (s : State) : Answer :=
  let s1 := s.at t
  let ok : Bool := match s1.sync.lastEdge with
    | none => true
    | some e => decide (e + 4000000 ≤ s1.now)
  .next (if highNs < 100 || !s1.servoOn then s1
    else if ok then s1.acceptFsync angle
    else s1.updSync fun y => { y with ignored := satOne y.ignored })

/-! Timecode (R677, R678). -/

/-- A number below 100 in BCD. -/
def bcd (n : Nat) : Nat := 16 * (n / 10) + n % 10

/-- A timecode field (R209): frames in byte 0 with the drop-frame flag in its bit 6, seconds, minutes and hours. -/
def timecodeField (a : TimeAddress) : Word :=
  BitVec.ofNat 32 (Word.ofBytesLE ([bcd a.frames + bit a.drop 6, bcd a.seconds, bcd a.minutes, bcd a.hours].map (BitVec.ofNat 8)))

/-- LTC_FRAME_DECODED (R48, R209, R677, R678): the sync word of a frame has completed; timecode is valid after two consecutive
frames. -/
def execLtcFrameDecoded (t : Time) (address : TimeAddress) (bitRate : Nat) (s : State) : Answer :=
  let s1 := s.at t
  let next : Bool := match s1.sync.syncAt with
    | none => false
    | some a => decide (s1.now ≤ a + bitTime 120 s1.sync.bitRate)
  .next (if within 1700 2700 bitRate && s1.coreOn then
      s1.updSync fun y => { y with
        address := timecodeField address, syncAt := some s1.now, bitRate := bitRate, valid := y.validAt s1.now || next }
    else s1)

/-- TIMECODE_LOSS (R678): three frame times without a sync word. -/
def execTimecodeLoss (t : Time) (s : State) : Answer :=
  let s1 := s.at t
  .next (match s1.sync.syncAt with
    | none => s1
    | some a => if a + bitTime 240 s1.sync.bitRate ≤ s1.now then s1.updSync fun y => { y with valid := false } else s1)

/-! Registers read with a capture (R132). -/

/-- A BAR read of a function: every byte 0xFF while the function is not ready (R698). -/
def State.barRead (s : State) (fn : FnId) (k : State → State) : State :=
  if (s.func fn).ready then k s else s.emit (.allOnes fn 4)

/-- COMMIT_POINT_READ_32 (R132): COMMIT_CLIP is read and COMMIT_FRAMES captured. -/
def execCommitPointRead32 (t : Time) (fn : FnId) (s : State) : Answer :=
  .next ((s.at t).barRead fn fun u => u.read32 fn 0x100)

/-- DEFICIT_READ_32 (R132): DEFICIT_IN_RATE is read, the other two captured. -/
def execDeficitRead32 (t : Time) (fn : FnId) (s : State) : Answer :=
  .next ((s.at t).barRead fn fun u => u.read32 fn 0x118)

/-- CAPTURED_FIELD_READ (R132): a captured value is returned once, else the present one; a read of another offset of the
window leaves the captures in place. -/
def execCapturedFieldRead (t : Time) (fn : FnId) (offset : Nat) (s : State) : Answer :=
  .next ((s.at t).barRead fn fun u => u.read32 fn offset)

/-! Register writes. -/

/-- Clear the event bits whose bit is written as 1 (Table 4.8). -/
def State.clearEvents (s : State) (fn : FnId) (value : Word) : State :=
  s.updFunc fn fun u => { u with eventPending := u.eventPending &&& ~~~(value.setWidth 8) }

/-- EVENT_PENDING_CLEAR (R136, Table 4.8). -/
def execEventPendingClear (t : Time) (fn : FnId) (value : Word) (s : State) : Answer :=
  .next ((s.at t).barWrite fn fun u => u.clearEvents fn value)

/-- The low or the high word of a 64-bit register. -/
def setHalf (d : DWord) (high : Bool) (v : Word) : DWord :=
  if high then v ++ d.extractLsb' 0 32 else d.extractLsb' 32 32 ++ v

/-- A ring base keeps its 4 KiB alignment (Table 3.4). -/
def ringBase (d : DWord) : DWord := d &&& ~~~0xFFF#64

/-- A write to a register of a queue pair (Table 3.4, R80). -/
def State.writeQueueReg (s : State) (fn : FnId) (q : QId) (off : Nat) (v : Word) : State :=
  let base := fun (f : QueuePair → QueuePair) => s.updQueue fn q fun p => if p.active then p else f p
  match off with
  | 0x00 => base fun p => { p with sqBase := ringBase (setHalf p.sqBase false v) }
  | 0x04 => base fun p => { p with sqBase := ringBase (setHalf p.sqBase true v) }
  | 0x08 => base fun p => { p with cqBase := ringBase (setHalf p.cqBase false v) }
  | 0x0C => base fun p => { p with cqBase := ringBase (setHalf p.cqBase true v) }
  | 0x10 => s.writeCtrl fn q v
  | 0x14 => s.updQueue fn q fun p => { p with
      dberr := p.dberr && !v.getLsbD 29, cfgerr := p.cfgerr && !v.getLsbD 27, fetcherr := p.fetcherr && !v.getLsbD 26 }
  | _ => s

/-- A write of the arbitration weights, accepted through F3 only (Table 3.6). -/
def State.writeWeights (s : State) (fn : FnId) (v : Word) : State :=
  if fn ≠ 3 then s
  else s.updHost fun h => { h with arb := { h.arb with
    w0 := v.extractLsb' 0 8, w1 := v.extractLsb' 8 8, w2 := v.extractLsb' 16 8, w3 := v.extractLsb' 24 8 } }

/-- A 32-bit write in the BAR0 window (Table 3.3); read-only and reserved words ignore it. One at an offset that is no
multiple of 4 is ignored too: the spec gives no access size and no alignment (DESIGN CHOICE, log entry 161). -/
def State.writeBar0 (s : State) (fn : FnId) (off : Nat) (v : Word) : State :=
  if off % 4 ≠ 0 then s
  else if off = 0x64 then s.rearmPins fn v
  else if off = 0x110 then s.clearEvents fn v
  else if off = 0x114 then
    s.updFunc fn fun u => { u with eventEnable := v.setWidth 8, eventVector := BitVec.ofNat 6 (fieldOf v 21 16) }
  else if off = 0x400 then s.writeWeights fn v
  else if within 0x1000 0x10FF off then
    let q : QId := Fin.ofNat 32 ((off - 0x1000) / 8)
    if off % 8 = 0 then sqDoorbell fn q v s else cqDoorbell fn q v s
  else if within 0x2000 0x23FF off then s.writeQueueReg fn (Fin.ofNat 32 ((off - 0x2000) / 32)) (off % 32) v
  else s

/-- Put a word into a list that rises by offset. -/
def putWord (off : Nat) (v : Word) : List (Nat × Word) → List (Nat × Word)
  | [] => [(off, v)]
  | x :: xs => if x.1 < off then x :: putWord off v xs else if x.1 = off then (off, v) :: xs else (off, v) :: x :: xs

/-- A write in the MSI-X window: 64 table entries of 16 bytes from offset 0 (R76, log entry 13; other offsets as in log entry
161). -/
def State.writeBar2 (s : State) (fn : FnId) (off : Nat) (v : Word) : State :=
  if off < 0x400 ∧ off % 4 = 0 then s.updFunc fn fun u => { u with msixTable := putWord off v u.msixTable } else s

/-- The high and the low half of a register that holds two 1.15 values. -/
def hiHalf (v : Word) : Q15 := v.extractLsb' 16 16
def loHalf (v : Word) : Q15 := v.extractLsb' 0 16

/-- A write of a configuration register goes to the shadow set (R393, Table 10.4). -/
def LoopCfg.write (c : LoopCfg) (off : Nat) (v : Word) : LoopCfg :=
  match off with
  | 0x00 => { c with
      source := v.extractLsb' 27 3, supervision := v.extractLsb' 21 2, derivOn := v.getLsbD 20, refExt := v.getLsbD 19
      outShift := v.extractLsb' 15 4, input := v.extractLsb' 7 7, output := v.extractLsb' 0 7 }
  | 0x04 => { c with kp := hiHalf v, ki := loHalf v }
  | 0x08 => { c with kd := hiHalf v, af := loHalf v }
  | 0x0C => { c with refTarget := hiHalf v, ff := loHalf v }
  | 0x10 => { c with uMax := hiHalf v, uMin := loHalf v }
  | 0x14 => { c with iLim := hiHalf v, rampLen := loHalf v }
  | 0x18 => { c with supLim := hiHalf v, supTime := loHalf v }
  | 0x1C => { c with rdyLim := hiHalf v, div := v.extractLsb' 0 8 }
  | _ => c

/-- A firmware write to the Loop Engine's registers (Table 10.4): ENABLE and APPLY act on the slot, CFG_ERR is cleared by
a 1, PHASE_STEP is kept. Other offsets, and those that are no multiple of 4, ignore it (DESIGN CHOICE, log entry 161). -/
def State.writeLoop (s : State) (off : Nat) (v : Word) : State :=
  if off = 0x408 then s.updLoop fun e => { e with phaseStep := v }
  else if 0x400 ≤ off ∨ off % 4 ≠ 0 then s
  else
    let i : LoopId := Fin.ofNat 16 (off / 0x40)
    let r := off % 0x40
    if r = 0x20 then s.updSlot i fun k => { k with cfgErr := k.cfgErr && !v.getLsbD 25 }
    else
      let s1 := s.updSlot i fun k => { k with shadow := k.shadow.write r v }
      if r ≠ 0 then s1
      else
        let s2 := if v.getLsbD 30 then s1.updSlot i LoopSlot.apply else s1
        if v.getLsbD 31 then s2.enableSlot i else if (s2.slot i).enable then s2.disableSlot i else s2

/-- REGISTER_WRITE (R76, R394): a 32-bit write in one of the register windows. The Loop Engine's ignores it while its domain
is off, of which the spec says only that it is unpowered (DESIGN CHOICE, log entry 159). -/
def execRegisterWrite (t : Time) (space : RegSpace) (offset : Nat) (value : Word) (s : State) : Answer :=
  let s1 := s.at t
  match space with
  | .bar0 fn => if 0x10000 ≤ offset then .fault .outsideWindow else .next (s1.barWrite fn fun u => u.writeBar0 fn offset value)
  | .bar2 fn => if 0x4000 ≤ offset then .fault .outsideWindow else .next (s1.barWrite fn fun u => u.writeBar2 fn offset value)
  | .loopEngine =>
    if 0x40C ≤ offset then .fault .outsideWindow
    else .next (if s1.servoOn then s1.writeLoop offset value else s1)

end Sys2Proof.Machine
end

