-- ==== Sys2Proof/Machine/Vole.lean ====
section
/-! DEFINITION. Vole: sensors, the event log in flash, the I2C target and controller ports, and the exchanges of the
service port (17_vole_management). -/

namespace Sys2Proof.Machine

/-! Sensors (R602, R603). -/

/-- The operating range of a supply in mV, in the order of Table 17.2 (Table 19.2; R660 for VCORE). -/
def State.supplyRange (s : State) (i : Fin 9) : Int × Int :=
  match i.val with
  | 0 => ((min s.pace.vcore s.pace.prevVcore : Nat), (max s.pace.vcore s.pace.prevVcore + 25 : Nat))
  | 1 => (950, 1050)
  | 2 => (970, 1030)
  | 3 => (1067, 1166)
  | 4 => (808, 893)
  | 5 => (1140, 1260)
  | 6 => (1710, 1890)
  | 7 => (3135, 3465)
  | _ => (1620, 1980)

/-- The rail enable of a supply is high (R471); VAON has none and is always on. -/
def State.railOn (s : State) (i : Fin 9) : Bool :=
  match i.val with
  | 0 => s.pwr.railCore
  | 8 => s.pwr.vaon
  | _ => s.pwr.railMain

/-- The TEMP_HIGH threshold of an external sensor in 1/8 °C (R565); none where no such sensor is fitted. -/
def State.threshold (s : State) (i : Fin 8) : Option Int := (s.vole.extSensors[i.val]?).map fun x => x.2.2.2

/-- The events a reading raises (Table 17.2). -/
def State.readingEvents (s : State) (r : SensorReading) : List (BitVec 16 × List Word) :=
  match r with
  | .junction i v =>
    (if 960 ≤ v then [(0x0901, [arg i.val, argInt v])] else []) ++
      if v < -320 ∨ 1000 < v then [(0x0902, [arg i.val, argInt v])] else []
  | .supply i v out =>
    let g := s.supplyRange i
    if out = true ∧ s.railOn i = true ∧ (v < g.1 ∨ g.2 < v) then [(0x0903, [arg i.val, argInt v])] else []
  | .external i v =>
    match s.threshold i with
    | none => []
    | some x => if x ≤ v then [(0x0901, [arg (17 + i.val), argInt v])] else []
  | .mr4 _ _ => []

/-- The value a reading puts at its sensor index. -/
def readingValue (r : SensorReading) : Int :=
  match r with
  | .junction _ v | .external _ v => v
  | .supply _ v _ => v
  | .mr4 _ c => c.toNat

/-- A sensor's event may be logged again (R602). -/
def VoleState.mayLog (v : VoleState) (now : Time) (i : Fin 25) : Bool :=
  (v.logged[i]).elim true fun t => decide (t + Config.ms 1000 ≤ now)

/-- The reading of a sensor with an index is kept, and its events are logged at most once per 1,000 ms (R602). -/
def State.takeReading (s : State) (i : Fin 25) (r : SensorReading) : State :=
  let s1 := s.updVole fun v => { v with readings := Vec.upd v.readings i fun _ => some (readingValue r) }
  match s.readingEvents r with
  | [] => s1
  | e :: es =>
    if s.vole.mayLog s.now i then
      (s1.logAll (e :: es)).updVole fun v => { v with logged := Vec.upd v.logged i fun _ => some s.now }
    else s1

/-- The sensor can be read now: an external one is fitted and answers (R619). -/
def State.sensorAnswers (s : State) (r : SensorReading) : Bool :=
  match r with
  | .external i _ => (s.vole.extSensors[i.val]?).elim false fun x => !s.vole.unreachable.contains x.1
  | _ => true

/-- The transactions with an external sensor have ended well, so its count of failures starts anew (R619). -/
def State.clearFails (s : State) (a : BitVec 7) : State :=
  s.updVole fun v => { v with i2cFails := v.i2cFails.filter fun x => x.1 != a, unreachable := v.unreachable.filter (· != a) }

/-- The address of an external sensor. -/
def State.extAddress (s : State) (i : Fin 8) : BitVec 7 := (s.vole.extSensors[i.val]?).elim 0 fun x => x.1

/-- When VIO18 or VIO33 falls, LD_EN_A and LD_EN_B lose drive, and their pull-downs open the laser chain (R655). -/
def State.watchIo (s : State) (fallen : Bool) : State := if s.ioFallen && !fallen then s.openChains 0 else s

/-- SENSOR_SAMPLE (R602, R655). -/
def execSensorSample (t : Time) (reading : SensorReading) (s : State) : Answer :=
  let s1 := s.at t
  .next (if !s1.vole.alive || !s1.sensorAnswers reading then s1
    else
      match reading with
      | .mr4 d c => s1.updVole fun v => { v with mr4 := Vec.upd v.mr4 d fun _ => c }
      | .external i x => (s1.clearFails (s1.extAddress i)).takeReading (Fin.ofNat 25 (17 + i.val)) (.external i x)
      | .junction i x => s1.takeReading (Fin.ofNat 25 i.val) (.junction i x)
      | .supply i x o => (s1.takeReading (Fin.ofNat 25 (8 + i.val)) (.supply i x o)).watchIo s1.ioFallen)

/-! The log in flash (R607 to R611, R626). -/

/-- The log sector with an index. -/
def VoleState.sector (v : VoleState) (i : Nat) : LogSector := ((v.sectors.find? fun x => x.1 == i).map (·.2)).getD {}

/-- Put a log sector. -/
def VoleState.setSector (v : VoleState) (i : Nat) (x : LogSector) : VoleState :=
  { v with sectors := putRow i x v.sectors }

/-- How many log sectors are bad. -/
def VoleState.badCount (v : VoleState) : Nat := (v.sectors.filter fun x => x.2.bad).length

/-- The sector has room for one more record of 64 bytes. -/
def LogSector.room (x : LogSector) : Bool := !x.bad && decide (x.records.length < 1024)

/-- The lowest SEQUENCE of a sector; 2^64 while it holds none. -/
def LogSector.lowest (x : LogSector) : Nat := (x.records.map (·.seq)).foldl min (2 ^ 64)

/-- The sector the next record goes to: the present one while it has room, else an erased one after it, else the one
that holds the lowest SEQUENCE, which is erased (R609). -/
def VoleState.nextSector (v : VoleState) : Nat :=
  if (v.sector v.cur).room then v.cur
  else
    let order := (List.range 255).map fun k => (v.cur + 1 + k) % 256
    match order.find? fun i => !(v.sector i).bad && (v.sector i).records.isEmpty with
    | some i => i
    | none =>
      (order.filter fun i => !(v.sector i).bad).foldl
        (fun best i => if (v.sector i).lowest < (v.sector best).lowest ∨ (v.sector best).bad = true then i else best) v.cur

/-- Program one record into the sector it goes to, erasing it first where that is not the present one (R607, R609). -/
def VoleState.program (v : VoleState) (i : Nat) (r : LogRecord) : VoleState :=
  let old := if i = v.cur ∧ (v.sector i).room then (v.sector i).records else []
  { (v.setSector i { records := old ++ [r] }) with cur := i, queue := v.queue.drop 1 }

/-- LOG_PROGRAM (R607, R609, R611, R626): the oldest record not yet programmed goes to flash; `ok` is whether the erase
and the program succeed. -/
def execLogProgram (t : Time) (ok : Bool) (s : State) : Answer :=
  let s1 := s.at t
  let v := s1.vole
  .next (match v.queue with
    | [] => s1
    | r :: _ =>
      if !v.alive || v.frozen || decide (16 < v.badCount) then s1
      else
        let i := v.nextSector
        if ok then s1.updVole fun x => x.program i r
        else (s1.updVole fun x => { (x.setSector i { (x.sector i) with bad := true }) with cur := i }).log 0x0907 [arg i])

/-- LOG_WINDOW_END (R608): a window of 1,000 ms ends, and the next one begins there; dropped events are reported as the first
record of the next. -/
def execLogWindowEnd (t : Time) (s : State) : Answer :=
  let s1 := s.at t
  .next (if !s1.vole.alive || decide (s1.now < s1.vole.windowAt + Config.ms 1000) then s1
    else
      let n := s1.vole.windowDropped
      let s2 := s1.updVole fun v => { v with windowCount := 0, windowDropped := 0, windowAt := v.windowAt + Config.ms 1000 }
      if n = 0 then s2 else s2.createRecord 0x0906 [arg n])

/-! The I2C target (R616, R617). -/

/-- The records Vole holds: in flash, and those not yet programmed. -/
def VoleState.heldRecords (v : VoleState) : List LogRecord := v.queue ++ v.programmed

/-- The record of a SEQUENCE as 64 bytes; all 0 when not held (Table 17.6). -/
def VoleState.recordAt (v : VoleState) (n : Nat) : List Byte :=
  match v.heldRecords.find? fun r => r.seq == n with
  | some r => r.bytes
  | none => Word.zeros 64

/-- The highest junction reading, in 1/8 °C (Table 17.6 TJ_MAX). -/
def VoleState.tjMax (v : VoleState) : Int :=
  match (v.readings.toList.take 8).filterMap id with
  | [] => 0
  | x :: xs => xs.foldl max x

/-- The bytes accepted in the present staging (Table 17.6 STAGED_BYTES). -/
def QuillState.stagedBytes (q : QuillState) : Nat := q.staging.elim 0 fun g => (g.chunks.map fun c => c.2.length).sum

/-- The 128 bytes of the I2C target's registers (Table 17.6). -/
def State.i2cTarget (s : State) : List Byte :=
  let v := s.vole
  [0x36, flags [v.alive, s.cal.bringup, s.quill.staging.isSome], 0, 0] ++ le 4 s.stateCode.toNat ++ leInt 2 v.tjMax ++
    [0, 0] ++ le 8 (v.nextSeq - 1) ++ le 4 s.commitClipWord.toNat ++ le 4 s.commitFramesWord.toNat ++
    le 4 s.quill.sequence ++ le 1 s.runningSlot ++ Word.zeros 3 ++ le 4 s.quill.stagedBytes ++ Word.zeros 8 ++
    le 8 v.logPtr.toNat ++ Word.zeros 8 ++ v.recordAt v.logPtr.toNat

/-- Put one byte into LOG_PTR. -/
def putPtr (d : DWord) (i : Nat) (b : Byte) : DWord :=
  BitVec.ofNat 64 (Word.ofBytesLE ((le 8 d.toNat).set i b))

/-- Bytes written from a register offset on: LOG_PTR takes them; a byte for a read-only field is not acknowledged and ends
the write (R617). -/
def State.i2cWrite (s : State) (off : Nat) : List Byte → State
  | [] => s
  | b :: bs =>
    if within 0x30 0x37 off then
      (s.updVole fun v => { v with logPtr := putPtr v.logPtr (off - 0x30) b }).i2cWrite (off + 1) bs
    else s

/-- I2C_POINTER_WRITE (R616): the first byte of a write is the register pointer; what follows is written there. -/
def execI2cPointerWrite (t : Time) (data : List Byte) (s : State) : Answer :=
  let s1 := s.at t
  .next (match data with
    | [] => s1
    | p :: rest => if s1.portsServed then (s1.updVole fun v => { v with pointer := p }).i2cWrite p.toNat rest else s1)

/-- LOG_PTR_WRITE (R617). -/
def execLogPtrWrite (t : Time) (value : DWord) (s : State) : Answer :=
  let s1 := s.at t
  .next (if s1.portsServed then s1.updVole fun v => { v with logPtr := value } else s1)

/-- LOG_RECORD_READ_END (R616, R617): a read from the register pointer on has reached byte 0x7F of LOG_RECORD, which adds
1 to LOG_PTR; the pointer has advanced past it. -/
def execLogRecordReadEnd (t : Time) (s : State) : Answer :=
  let s1 := s.at t
  let p := s1.vole.pointer.toNat
  .next (if s1.portsServed && decide (p < 128) then
      (s1.emit (.i2cRead p (s1.i2cTarget.drop p))).updVole fun v => { v with pointer := 0x80, logPtr := v.logPtr + 1 }
    else s1)

/-! The I2C controller (R618, R619). -/

/-- The address is the PMIC's. -/
def VoleState.isPmic (v : VoleState) (a : BitVec 7) : Bool := v.pmic.elim false fun p => p.1 == a

/-- The external sensors of an address read as faulty (R619). -/
def VoleState.faultSensors (v : VoleState) (a : BitVec 7) : VoleState :=
  let mine := fun i : Fin 25 => decide (17 ≤ i.val) && (v.extSensors[i.val - 17]?).elim false fun x => x.1 == a
  { v with readings := Vector.ofFn fun i : Fin 25 => if mine i then none else v.readings[i] }

/-- One more failed transaction of an address in succession; the third one reports it (R619). -/
def State.countI2cFail (s : State) (a : BitVec 7) : State :=
  let v := s.vole
  let n := ((v.i2cFails.find? fun x => x.1 == a).map (·.2)).getD 0 + 1
  let s1 := s.updVole fun x => { x with i2cFails := (a, n) :: x.i2cFails.filter fun y => y.1 != a }
  if n < 3 ∨ v.unreachable.contains a = true then s1
  else
    let s2 := s1.updVole fun x => { (x.faultSensors a) with unreachable := a :: x.unreachable }
    if v.isPmic a then s2.log 0x0904 [arg a.toNat]
    else if v.extSensors.any fun x => x.1 == a then s2.log 0x0905 [arg a.toNat]
    else s2

/-- I2C_TRANSACTION_TIMEOUT (R618, R619): a transaction of the controller port is abandoned after 25 ms and the bus is
recovered. -/
def execI2cTransactionTimeout (t : Time) (address : BitVec 7) (s : State) : Answer :=
  let s1 := s.at t
  .next (if s1.vole.alive then (s1.emit .i2cRecover).countI2cFail address else s1)

/-- I2C_ADDRESS_RETRY (R619): every 1,000 ms an address that cannot be reached is tried again; a power management IC that
answers is given the request that stands. -/
def execI2cAddressRetry (t : Time) (address : BitVec 7) (ok : Bool) (s : State) : Answer :=
  let s1 := s.at t
  .next (if s1.vole.alive && s1.vole.unreachable.contains address && ok then
      let s2 := s1.clearFails address
      if s2.vole.isPmic address then s2.sendVcore else s2
    else s1)

/-! The service port (R620 to R623). -/

/-- The result byte of a request that is not accepted, where the spec names none for the cause: it is not 0. -/
def refusedByte (rtype : Nat) : Byte := BitVec.ofNat 8 ((Config.refusedResult rtype).val + 1)

/-- The BAUD exchange (R620): the new rate applies after the response. -/
def State.setBaud (s : State) (payload : List Byte) : State :=
  let n := Word.fieldLE payload 0 4
  if payload.length = 4 ∧ (n = 115200 ∨ n = 921600 ∨ n = 3000000) then
    (s.uartAnswer 0x82 [0]).updVole fun v => { v with baud := n }
  else s.uartAnswer 0x82 [refusedByte 0x02]

/-- UART_BAUD (R620). -/
def execUartBaud (t : Time) (payload : List Byte) (s : State) : Answer :=
  .next ((s.at t).uartServe fun u => u.setBaud payload)

/-- Bytes of the integrator section (Table 15.5). -/
def sectionBytes : Nat := 0x40000

/-- The ARCHIVE_WRITE exchange (R623, Table 17.7). -/
def State.collectArchive (s : State) (payload : List Byte) : State :=
  let off := Word.fieldLE payload 0 4
  let data := payload.drop 4
  if s.mounted then s.uartAnswer 0x91 [2]
  else if within 1 4096 data.length && decide (off + data.length ≤ sectionBytes) then
    (s.updVole fun v => { v with archiveData := v.archiveData ++ [(off, data)] }).uartAnswer 0x91 [0]
  else s.uartAnswer 0x91 [refusedByte 0x11]

/-- ARCHIVE_WRITE (R623). -/
def execArchiveWrite (t : Time) (payload : List Byte) (s : State) : Answer :=
  .next ((s.at t).uartServe fun u => u.collectArchive payload)

/-- A byte of the collected section: the last one written there; a free value where none was. -/
def VoleState.archiveByte (v : VoleState) (i : Nat) : Byte :=
  match v.archiveData.reverse.find? fun c => decide (c.1 ≤ i) && decide (i < c.1 + c.2.length) with
  | some c => c.2.getD (i - c.1) 0
  | none => Config.freeByte i

/-- The collected section, as long as its header says (R563). -/
def VoleState.archiveImage (v : VoleState) : List Byte :=
  let n := Word.ofBytesLE ((List.range 4).map fun k => v.archiveByte (8 + k))
  (List.range (min n sectionBytes)).map v.archiveByte

/-- The ARCHIVE_COMMIT exchange (R623). -/
def State.commitArchive (s : State) (flashOk : Bool) : State :=
  if s.mounted then s.uartAnswer 0x92 [2]
  else
    let image := s.vole.archiveImage
    if !regionValid image then s.uartAnswer 0x92 [1]
    else if !flashOk then
      (s.updVole fun v => { v with integrator := Config.tornSection v.integrator image }).uartAnswer 0x92 [3]
    else (s.updVole fun v => { v with integrator := image }).uartAnswer 0x92 [0]

/-- ARCHIVE_COMMIT (R623): `flashOk` is whether the erase and the program succeed. -/
def execArchiveCommit (t : Time) (flashOk : Bool) (s : State) : Answer :=
  .next ((s.at t).uartServe fun u => u.commitArchive flashOk)

/-- The records held from a SEQUENCE on, `n` numbers, in ascending SEQUENCE (Table 17.7). -/
def VoleState.recordsFrom (v : VoleState) (first n : Nat) : List Byte :=
  (List.range n).flatMap fun k => (v.heldRecords.find? fun r => r.seq == first + k).elim [] LogRecord.bytes

/-- LOG_READ (R620, Table 17.7). -/
def execLogRead (t : Time) (payload : List Byte) (s : State) : Answer :=
  .next ((s.at t).uartServe fun u =>
    u.uartAnswer 0x93 (u.vole.recordsFrom (Word.fieldLE payload 0 8) (min 64 (Word.fieldLE payload 8 1))))

/-- The service port is served: by Vole, or by Quill in recovery (R527, R600). -/
def State.uartServed (s : State) : Bool := s.portsServed || (s.quill.recovery && decide (5 ≤ s.quill.bootStep))

/-- UART_BAD_FRAME (R621): a frame with a failed CRC, or one that arrives while a request is outstanding. -/
def execUartBadFrame (t : Time) (crcFailed : Bool) (s : State) : Answer :=
  let s1 := s.at t
  .next (if s1.uartServed && (crcFailed || s1.vole.uartBusy) then
      (s1.updVole fun v => { v with uartPartial := false }).uartAnswer 0xFF []
    else s1)

/-- UART_FRAME_GAP (R620): what has arrived of a frame is discarded, and nothing is answered. -/
def execUartFrameGap (t : Time) (s : State) : Answer :=
  let s1 := s.at t
  .next (if s1.uartServed then s1.updVole fun v => { v with uartPartial := false } else s1)

end Sys2Proof.Machine
end

