-- ==== Sys2Proof/Machine/Mounting.lean ====
section
/-! DEFINITION. What the checks of a command answer, and MOUNT: the identity band, the media key, the volume map as it is
rebuilt, the clips that a power failure or an opening cut short, and the session start (07_stripe_codec_crypto R273 to
R284, 06_volume_map_burrow R213, 16_modes_coincidences R582, R588, R590). -/

namespace Sys2Proof.Machine

/-- What the checks of a command come to: it waits, it is refused with a status and its value, or it has its effect. -/
inductive Ruling where
  | wait (s : State) (r : WaitReason)
  | refuse (st : Status) (v : DWord)
  | apply (s : State)

/-- A refusal with a number as its value. -/
def Ruling.no (st : Status) (n : Nat) : Ruling := .refuse st (BitVec.ofNat 64 n)

/-! The spindle as media commands ask for it. -/

/-- Ask for the spindle forward at `rpm`; a speed that changes while it turns is a new reference of slot 8 (R414, R419). -/
def State.runAt (s : State) (rpm : Nat) : State :=
  let s1 := s.wantSpeed rpm
  if s1.spin.state = 1 ∨ s1.spin.state = 2 then s1.setSpeedRef s1.spin.target else s1

/-- A media command that finds the spindle stopped on a mounted magazine starts it (R419). -/
def State.wakeSpindle (s : State) : State :=
  if s.mounted && (s.spin.state == 0 || s.spin.state == 6) && !s.spin.restartDue then s.runAt 10800 else s

end Sys2Proof.Machine

namespace Sys2Proof

open Machine

/-- A data read of a host buffer of LENGTH bytes, as the outside answers it. -/
def Call.payload (c : Call) : List Byte :=
  let n := c.entry.length.toNat
  (c.data ++ Word.zeros (n - c.data.length)).take n

/-! The identity band (Table 7.3). -/

/-- A magazine identity record passes its CRC. -/
def identityOk (band : List Byte) : Bool :=
  Word.fieldLE band 0 1 == 0x11 && decide (64 ≤ band.length) && (crc32 (band.take 60)).toNat == Word.fieldLE band 60 4

/-- The sector that MOUNT uses: side A before side B (R282). -/
def MountScan.band (m : MountScan) : Option (List Byte) :=
  if m.markA && identityOk m.bandA then some m.bandA else if m.markB && identityOk m.bandB then some m.bandB else none

/-- The magazine is blank: no sector mark in the identity band of either side (R282). -/
def MountScan.blank (m : MountScan) : Bool := !m.markA && !m.markB

/-- Magazine key record `r` of an identity band sector. -/
def keyRecord (band : List Byte) (r : Nat) : List Byte := slice band (64 + 64 * r) 64

/-- The indices of the key records present. -/
def keyRecordsOf (band : List Byte) : List Nat := (List.range 8).filter fun r => Word.fieldLE (keyRecord band r) 0 1 == 0x10

/-- The media key: from the first key record, in index order, that unwraps under a CKEK (R281). -/
def mediaKeyOf (ckek band : List Byte) : Option (List Byte) :=
  firstSome (fun r => kwUnwrap ckek (slice (keyRecord band r) 4 40)) (keyRecordsOf band)

/-- A record of 64 bytes closed by its CRC (Table 7.3). -/
def bandRecord (body : List Byte) : List Byte :=
  let b := (body ++ Word.zeros 60).take 60
  b ++ le 4 (crc32 b).toNat

/-- The identity band sector of a new magazine: its identity, then the media key wrapped under each CKEK (R283, R284). -/
def newBand (identity key : List Byte) (ckeks : List (List Byte)) : List Byte :=
  sectorPad (bandRecord ([0x11, 0x01, 0, 0] ++ identity) ++
    ((List.range ckeks.length).flatMap fun r =>
      bandRecord ([0x10, BitVec.ofNat 8 r, 0, 0] ++ kwWrap (ckeks.getD r []) key)))

/-- The header of the identity band sector of a side: LSN 0xFFFF_FFFE, Type 0x05, zero nonce and tag (R211, R284). -/
def bandHeader (h : Head) : List Byte :=
  headerOf 0xFFFFFFFE (Config.identityPlace h).1 (Config.identityPlace h).2 0x05 (Word.zeros 12) (Word.zeros 16)

/-- The identity band sector as it is written on a side (R284). -/
def bandSector (h : Head) (band : List Byte) : Sent :=
  .identityBand h (bandHeader h) band (sectorChannel (bandHeader h) band)

/-- The further slots that SHARE_SLOTS names, in ascending order (R283). -/
def shareSlots (e : Entry) : List (Fin 16) :=
  (List.finRange 16).filter fun j => (parm e 1).getLsbD j.val && j.val != fieldOf (parm e 0) 7 4

/-! Clips on the medium (R582, R588). -/

/-- Every parity sector of the stripe is present, or a later group of its session shows that it was written (R588). -/
def MountScan.finished (m : MountScan) (x : StripeScan) : Bool :=
  x.parityPresent || m.stripes.any fun y => y.session == x.session && decide (x.ended ≤ y.began) && y.parityPresent

/-- An LSN lies in an unfinished stripe. -/
def MountScan.unfinished (m : MountScan) (lsn : Nat) : Bool := m.stripes.any fun x => x.lsns.contains lsn && !m.finished x

/-- The clips of a magazine as clip, first LSN, FRAME_BYTES and session of their opening records, in creation order. -/
def MountScan.clips (m : MountScan) : List (Word × Nat × Nat × Nat) :=
  (m.records.filter fun r => r.rtype == 2).map fun r =>
    (r.key, Word.fieldLE r.bytes 20 4, Word.fieldLE r.bytes 8 4, Word.fieldLE r.bytes 24 4)

/-- The close record of a clip. -/
def MountScan.close (m : MountScan) (clip : Word) : Option VolRecord :=
  m.records.reverse.find? (VolRecord.named 3 clip 0)

/-- The reason of a close record. -/
def closeReason (r : VolRecord) : Nat := Word.fieldLE r.bytes 12 1

/-- The frames of a close record. -/
def closeFrames (r : VolRecord) : Nat := Word.fieldLE r.bytes 8 4

/-- The last seal of a session. -/
def MountScan.seal (m : MountScan) (session : Nat) : Option VolRecord :=
  m.records.reverse.find? fun r => r.rtype == 8 && r.key == BitVec.ofNat 32 session

/-- The frames of the clip at place `i` that the last seal of its session shows committed (R133, R588). -/
def MountScan.sealedCount (m : MountScan) (i : Nat) : Nat :=
  match m.clips[i]? with
  | none => 0
  | some (clip, _, _, session) =>
    match m.seal session with
    | none => 0
    | some r =>
      let c := BitVec.ofNat 32 (Word.fieldLE r.bytes 20 4)
      if c = clip then Word.fieldLE r.bytes 24 4
      else if (m.clips.drop (i + 1)).any fun x => x.1 == c && x.2.2.2 == session then ((m.close clip).map closeFrames).getD 0
      else 0

/-- The frames of the clip at place `i` that have been assigned LSNs: up to the next clip's first LSN, or the next LSN
(R33), and no more than its close record counts. -/
def MountScan.assigned (m : MountScan) (i : Nat) : Nat :=
  match m.clips[i]? with
  | none => 0
  | some (clip, first, bytes, _) =>
    let stop := ((m.clips[i + 1]?).map fun x => x.2.1).getD m.nextLsn
    let n := (min stop m.nextLsn - first) / max 1 (sectorsOf bytes)
    match m.close clip with
    | some r => min n (closeFrames r)
    | none => n

/-- The count of R588 of the clip at place `i`. -/
def MountScan.recount (m : MountScan) (i : Nat) : Nat :=
  match m.clips[i]? with
  | none => 0
  | some (_, first, bytes, _) =>
    let k := sectorsOf bytes
    let n := m.assigned i
    let bad := (List.range n).find? fun f => (List.range k).any fun j => m.unfinished (first + f * k + j)
    max (bad.getD n) (m.sealedCount i)

/-- The count of a clip is established at MOUNT: it has no close record, or one with reason POWER_FAIL (R588). -/
def MountScan.recounts (m : MountScan) (i : Nat) : Bool :=
  match m.clips[i]? with
  | none => false
  | some x => (m.close x.1).elim true fun r => closeReason r == 2

/-- The data slots of a head's layer that the STRIPE records of a magazine show (R20, R21, Table 6.7). -/
def MountScan.layerSlots (m : MountScan) (h : Head) (layer : Nat) : Nat :=
  ((m.records.filter fun r => r.rtype == 9 && psaHead (BitVec.ofNat 32 (Word.fieldLE r.bytes 8 4)) == h &&
    psaLayer (BitVec.ofNat 32 (Word.fieldLE r.bytes 8 4)) == layer).map fun r => 12 * Word.fieldLE r.bytes 13 1 - 24).sum

/-- The relocated copies of a head's layer that the RELOCATION records of a magazine show (Table 8.4). -/
def MountScan.layerCopies (m : MountScan) (h : Head) (layer : Nat) : Nat :=
  (m.records.filter fun r => r.rtype == 6 && psaHead (BitVec.ofNat 32 (Word.fieldLE r.bytes 8 4)) == h &&
    psaLayer (BitVec.ofNat 32 (Word.fieldLE r.bytes 8 4)) == layer).length

/-- A head's place on the medium as a MOUNT finds it: its last revolution written lies before the next group (R41), and the
slots and copies of its layer count on (R39, R319). -/
def MountScan.place (m : MountScan) (h : Head) : WriteHead :=
  let p := match h with
    | .a => m.posA
    | .b => m.posB
  let w : WriteHead := { layer := p.1, swept := p.2.1, group := p.2.2, full := decide (12 ≤ p.1)
                         layerSlots := m.layerSlots h p.1, layerCopies := m.layerCopies h p.1
                         lastRev :=
                           if 0 < p.2.2 then some (groupEndRev h p.1 p.2.1 (p.2.2 - 1))
                           else if 0 < p.2.1 then
                             some (groupEndRev h p.1 (p.2.1 - 1) (groupsOf (zoneOf h p.1 (p.2.1 - 1)) - 1))
                           else none }
  w.steps

end Sys2Proof

namespace Sys2Proof.Machine

/-- The close record that MOUNT gives the clip at place `i`: reason DOOR_OPEN where it had none (R582, R588). -/
def State.closeAtMount (s : State) (m : MountScan) (i : Nat) (rw : Bool) : State :=
  match m.clips[i]? with
  | none => s
  | some (clip, first, bytes, _) =>
    let n := m.recount i
    let reason := ((m.close clip).map closeReason).getD 4
    let tc := if n = 0 then 0x80 else s.frameTimecode clip (n - 1)
    let r := mkRecord 3 clip.toNat 0 (clipCloseBody clip.toNat n reason (first + n * sectorsOf bytes) tc)
    if rw && (m.close clip).isNone then s.addRecord r else s.mapRecord r

/-- What the first MOUNT after a power-fail seal logs (R590). -/
def State.logCutClips (s : State) (m : MountScan) : State :=
  match m.seal m.highestSession with
  | none => s
  | some r =>
    if Word.fieldLE r.bytes 9 1 ≠ 1 then s
    else
      let dropped := Word.fieldLE r.bytes 16 4
      let s1 := if dropped = 0 then s else s.log 0x0104 [arg dropped]
      (List.range m.clips.length).foldl (fun u i =>
        match m.clips[i]? with
        | some (clip, _, _, session) =>
          match m.close clip with
          | some x =>
            if session = m.highestSession ∧ closeReason x = 2 then u.log 0x0105 [clip, arg (closeFrames x), arg (m.recount i)]
            else u
          | none => u
        | none => u) s1

/-! Mounting. -/

/-- The beam counters of page 0x03 clear at every MOUNT (R614). -/
def BeamState.clearCounts (u : BeamState) : BeamState :=
  { u with written := 0, failures := 0, relocations := 0, reads := 0, ldpcFailures := 0 }

/-- The MAGAZINE record (Table 6.7). -/
def magazineRecord (identity : List Byte) (keys session : Nat) : VolRecord :=
  mkRecord 1 0 0 (identity ++ [1, BitVec.ofNat 8 keys, 0, 0] ++ le 4 session)

/-- The magazine's contents enter the state (R213, R273, R588): the mount, the volume map, the relocation list and Burrow. -/
def State.loadMagazine (s : State) (m : MountScan) (mode : MountMode) (slot keys session counter : Nat)
    (identity key : List Byte) : State :=
  let relocs := relocList m.records
  let s1 := s.updMnt fun x => { x with
    mode := mode, keySlot := slot, mediaKey := some key, identity := identity, keyRecords := BitVec.ofNat 8 keys
    session := session, counter := counter, committed := m.committedCounter, nextLsn := m.nextLsn
    nextSys := m.nextSysSector, nextStripe := m.nextStripe, usedSlots := m.usedSlots, commitClip := 0, commitFrames := 0
    relocFailed := false, relocFull := decide (Config.relocListMax ≤ relocs.length), placements := [], startPending := false
    seals := [], sealed := false }
  let kept := m.records.filter fun r => r.rtype != 1 && r.rtype != 5
  let s2 := { s1 with vmap := { s1.vmap with
    records := kept ++ [magazineRecord identity keys session]
    places := m.places, auxData := [], mem := [], placed := [], cache := {}, burrow := s1.vmap.burrow.rebuild relocs } }
  let s3 := (s2.clearWrite.updBeams .a BeamState.clearCounts).updBeams .b BeamState.clearCounts
  let s4 := s3.updRcd fun r => { r with
    headA := m.place .a, headB := m.place .b, clip := none, turnAt := none, layerAt := none, stopped := true }
  ((List.range m.clips.length).filter m.recounts).foldl (fun u i => u.closeAtMount m i (mode == .readWrite)) s4

/-- The bits of the key records present. -/
def keyBits (l : List Nat) : Nat := (l.map fun r => 2 ^ r).sum

/-- Write the session start sector on the head whose group begins first, and pad the rest of the group on both heads
(R27, R274). -/
def State.startSession (s : State) : State :=
  let no := s.mnt.nextSys
  let text := sectorPad (le 4 s.mnt.session ++ le 8 s.mnt.counter ++ s.mnt.identity)
  let first := (s.resume).firstHead.getD .a
  let opened := ((s.resume).openIfIdle first).openIfIdle (Head.other first)
  let s1 := opened.updMnt fun m => { m with nextSys := no + 1, startPending := true }
  ((s1.placeSystem first (.sessionStart no) text).getD (s1.rewrite first (.sessionStart no) text)).stopRecording

/-- A head will take stripes in a session that begins now: its medium is not full, its captures succeed, and at most one
of its beams is unfit to write (R43, R44, R322, R429). -/
def State.canRecord (s : State) (m : MountScan) (h : Head) : Bool :=
  let p := match h with
    | .a => m.posA
    | .b => m.posB
  decide (p.1 < 12) && !(s.hd h).captureFailed &&
    decide ((allBeams.filter fun b => !s.valid50At h b p.1 (zoneOf h p.1 p.2.1)).length ≤ 1)

/-- A read-write MOUNT of a magazine that has a place to write (R274, R275, R283). -/
def State.mountRW (s : State) (m : MountScan) (r : Running) (slot keys : Nat) (identity key : List Byte) : State :=
  let counter := if m.blank then 0
    else match m.committedCounter with
      | some c => c + 2 ^ 24
      | none => Config.firstCounter identity
  let s1 := (s.loadMagazine m .readWrite slot keys (m.highestSession + 1) counter identity key).retireInvalid
  (((s1.logCutClips m).setMagazine 3).startRunning r).startSession

/-- A read-only MOUNT (R277): it writes nothing, and completes at once. -/
def State.mountRO (s : State) (m : MountScan) (r : Running) (slot keys : Nat) (identity key : List Byte) (st : Status) : State :=
  let s1 := s.loadMagazine m .readOnly slot keys m.highestSession 0 identity key
  ((s1.logCutClips m).setMagazine 5).finish r.org r.entry r.alloc st
    (if st = .success then BitVec.ofNat 64 m.highestSession else 0) []

/-- A magazine without a place to write (log entry 33). -/
def State.noRoom (s : State) (m : MountScan) : Bool := !s.canRecord m .a && !s.canRecord m .b

/-- MOUNT of a blank magazine (R283, R289). -/
def State.ruleBlank (s : State) (r : Running) : Ruling :=
  let slot : Fin 16 := Fin.ofNat 16 (fieldOf (parm r.entry 0) 7 4)
  let shares := shareSlots r.entry
  if (parm r.entry 0).getLsbD 0 then .no .notWritten 0
  else if 7 < shares.length then .no .invalidField (pOff 1)
  else
    match (slot :: shares).find? fun j => (s.quill.keys[j]).isNone with
    | some j => .no .keyUnwrapFailed j.val
    | none =>
      if !s.quill.rbgOk then .no .keyUnwrapFailed slot.val
      else if s.noRoom {} then .no .capacityExhausted 0
      else
        let d1 := Drbg.generate s.quill.rbg 16
        let d2 := Drbg.generate d1.2 32
        let identity := d1.1
        let key := d2.1
        let band := newBand identity key ((slot :: shares).filterMap fun j => s.quill.keys[j])
        let s1 := ((s.updQuill fun q => { q with rbg := d2.2 }).emit (bandSector .a band)).emit (bandSector .b band)
        .apply (s1.mountRW {} r slot.val (keyBits (List.range (shares.length + 1))) identity key)

/-- MOUNT of a magazine that is not blank (R276, R277, R281, R282). -/
def State.ruleWritten (s : State) (m : MountScan) (r : Running) (band : List Byte) : Ruling :=
  let slot : Fin 16 := Fin.ofNat 16 (fieldOf (parm r.entry 0) 7 4)
  let identity := slice band 4 16
  let keys := keyBits (keyRecordsOf band)
  if Word.fieldLE band 1 1 ≠ 1 then .no .magazineFormatUnsupported (Word.fieldLE band 1 1)
  else
    match (s.quill.keys[slot]).bind fun ckek => mediaKeyOf ckek band with
    | none => .no .keyUnwrapFailed slot.val
    | some key =>
      if (parm r.entry 0).getLsbD 0 then .apply (s.mountRO m r slot.val keys identity key .success)
      else if m.highestSession = 0xFFFFFFFF then .apply (s.mountRO m r slot.val keys identity key .keySessionsExhausted)
      else if s.noRoom m then .no .capacityExhausted (Config.magazineSlots - m.usedSlots)
      else .apply (s.mountRW m r slot.val keys identity key)

/-- MOUNT's own checks, once the magazine turns at record speed (R281 to R284, R419). -/
def State.ruleMount (s : State) (m : MountScan) (r : Running) : Ruling :=
  if m.blank then s.ruleBlank r
  else
    match m.band with
    | none => .no .magazineFormatUnsupported 0xFFFFFFFFFFFFFFFF
    | some band => s.ruleWritten m r band

end Sys2Proof.Machine
end

