-- ==== Sys2Proof/Machine/Own.lean ====
section
/-! DEFINITION. What each opcode does once checks 1 to 6 of R139 have passed: its own checks, what it may still wait for,
and its effect (04_command_packets; the chapters that its opcode table names). -/

namespace Sys2Proof.Machine

/-- The running command that a fetched one becomes. -/
def Fetched.run (f : Fetched) (o : Opcode) : Running :=
  { org := f.org, entry := f.entry, op := o, alloc := f.alloc }

/-- A command has its effect at once and completes with SUCCESS. -/
def State.done (s : State) (f : Fetched) (v : Nat) : Ruling :=
  .apply (s.finish f.org f.entry f.alloc .success (BitVec.ofNat 64 v) [])

/-- The same with data for the host. -/
def State.doneWith (s : State) (f : Fetched) (v : Nat) (data : List Byte) : Ruling :=
  .apply (s.finish f.org f.entry f.alloc .success (BitVec.ofNat 64 v) data)

/-- STATE_CONFLICT: the state code at the check (R126). -/
def State.conflict (s : State) : Ruling := .refuse .stateConflict s.stateValue

/-- The data read of a command from the host: DMA_ERROR where it ended in error (R691), else the effect on the bytes. -/
def withData (c : Call) (k : List Byte → Ruling) : Ruling :=
  match c.dataErr with
  | some a => .refuse .dmaError a
  | none => k c.payload

/-! Pages and parameters (R128, R129, R159). -/

/-- IDENTIFY (R129). -/
def State.ruleIdentify (s : State) (f : Fetched) : Ruling := s.doneWith f 0 (s.identifyData f.org.fn)

/-- GET_PAGE (R128): the bytes from OFFSET on, at most LENGTH of them. -/
def State.ruleGetPage (s : State) (f : Fetched) : Ruling :=
  let bytes := ((s.page (fieldOf (parm f.entry 0) 7 0) f.org.fn).drop (parm f.entry 1).toNat).take f.entry.length.toNat
  s.doneWith f bytes.length bytes

/-- A device parameter (Table 4.11). -/
def Params.get (p : Params) (id : Nat) : Nat :=
  match id with
  | 1 => p.rateWarnPct
  | 2 => p.fullWaitMs
  | _ => p.reviewMarginMib

/-- Set a device parameter (Table 4.11). -/
def Params.put (p : Params) (id v : Nat) : Params :=
  match id with
  | 1 => { p with rateWarnPct := v }
  | 2 => { p with fullWaitMs := v }
  | _ => { p with reviewMarginMib := v }

/-- GET_PARAM (R159). -/
def State.ruleGetParam (s : State) (f : Fetched) : Ruling := s.done f (s.params.get (fieldOf (parm f.entry 0) 15 0))

/-- SET_PARAM (R159): RESULT is the previous value. A new RATE_WARN_PCT moves W at once, and RATE_DEFICIT is judged again
(DESIGN CHOICE, log entry 170). -/
def State.ruleSetParam (s : State) (f : Fetched) : Ruling :=
  let id := fieldOf (parm f.entry 0) 15 0
  ({ s with params := s.params.put id (parm f.entry 1).toNat }).watchOccupancy.done f (s.params.get id)

/-! Keys (R279, R280). -/

/-- KEY_LOAD (R279, R286). -/
def State.ruleKeyLoad (s : State) (f : Fetched) (c : Call) : Ruling :=
  let slot : Fin 16 := Fin.ofNat 16 (fieldOf (parm f.entry 0) 3 0)
  withData c fun blob =>
    match (if s.quill.lkUsable then s.quill.lk else none).bind fun lk => kwUnwrap lk blob with
    | none => .no .keyUnwrapFailed slot.val
    | some key => (s.updQuill fun q => { q with keys := Vec.upd q.keys slot fun _ => some key }).done f 0

/-- KEY_PURGE (R280, Table 4.10): never the slot of the mount. -/
def State.ruleKeyPurge (s : State) (f : Fetched) : Ruling :=
  let slot : Fin 16 := Fin.ofNat 16 (fieldOf (parm f.entry 0) 3 0)
  let all := (parm f.entry 0).getLsbD 31
  if s.mounted && (all || slot.val == s.mnt.keySlot) then s.conflict
  else
    (s.updQuill fun q => { q with keys := if all then Vector.replicate 16 none else Vec.upd q.keys slot fun _ => none }).done f 0

/-! Bring-up gates (Table 15.3). -/

/-- Steps 6, 7 and 10 have finished on a head, and at least 16 of its beams are valid for R348 (Table 15.3). -/
def State.servedHead (s : State) (h : Head) : Bool :=
  [6, 7, 10].all (fun n => s.headAll n h StepStatus.finished) && decide (16 ≤ s.validCount h)

/-- Bring-up still keeps a read of these heads waiting. -/
def State.bringupHolds (s : State) (heads : List Head) : Bool := s.cal.bringup && !heads.all s.servedHead

/-! MOUNT and UNMOUNT. -/

/-- MOUNT (R281, R419, R545): it waits for bring-up and for the spindle. -/
def State.ruleMountOp (s : State) (f : Fetched) (c : Call) : Ruling :=
  let ro := (parm f.entry 0).getLsbD 0
  if (if ro then s.bringupHolds bothHeads else s.cal.bringup) then .wait s .bringup
  else if s.spin.state ≠ 3 then .wait (s.runAt 10800) .spindle
  else s.ruleMount c.scan (f.run .mount)

/-- UNMOUNT (R285, R587). -/
def State.ruleUnmount (s : State) (f : Fetched) : Ruling :=
  .apply ((if s.mountedRW then s.wakeSpindle else s).beginUnmount (f.run .unmount))

/-! Clips (R147 to R153). -/

/-- The profile that parameter words from `i` on give (Table 4.5). -/
def profileOf (clip : Word) (e : Entry) (i : Nat) (user : List Byte) : Profile :=
  let p := fun k : Nat => parm e (Fin.ofNat 10 (i + k))
  { clip := clip, frameBytes := (p 0).toNat, rateNum := (p 1).toNat, rateDen := fieldOf (p 2) 15 0
    holdAwake := (p 3).getLsbD 0, user := user }

/-- The profile is sustainable: D is at most G × 10^6 (R147). -/
def State.sustains (s : State) (p : Profile) : Bool := decide (p.rate ≤ s.guarantee * 1000000)

/-- The refusal of a profile above G (Table 4.9). -/
def State.unsustainable (s : State) (p : Profile) : Ruling :=
  .no .profileUnsustainable (mbCeil p.rate * 2 ^ 32 + s.guarantee)

/-- A pending request for PARK or deeper is dropped when a clip with HOLD_AWAKE opens (R477). -/
def State.dropDeepPending (s : State) : State :=
  match s.pwr.pending with
  | some p =>
    if 2 ≤ PowerState.num p then
      (s.endRequesters s.pwr.pendBy .stateConflict s.stateValue).updPwr fun w => { w with pending := none, pendBy := [] }
    else s
  | none => s

/-- Open a clip with its profile (R147, R477). -/
def State.openProfile (s : State) (p : Profile) : State :=
  let s1 := s.openClip p
  if p.holdAwake then s1.dropDeepPending else s1

/-- VCORE and the spindle allow a clip to open (R420, R449). -/
def State.clipMayOpen (s : State) : Bool :=
  s.spin.state == 3 && decide (720 ≤ s.pace.vcore) && decide (s.pace.lastStep + 500000 ≤ s.now)

/-- CLIP_OPEN (R147, R420, R449). -/
def State.ruleClipOpen (s : State) (f : Fetched) (c : Call) : Ruling :=
  let p := profileOf (parm f.entry 0) f.entry 1 []
  if !s.sustains p then s.unsustainable p
  else if s.spin.state ≠ 3 then .wait (s.runAt 10800) .clipOpen
  else if !s.clipMayOpen then .wait s .clipOpen
  else withData c fun d => (s.openProfile { p with user := d }).done f 0

/-- CLIP_CLOSE (R149): with a next profile the next clip opens at the same moment. -/
def State.ruleClipClose (s : State) (f : Fetched) (c : Call) : Ruling :=
  let next := parm f.entry 1
  let p := profileOf next f.entry 2 []
  match s.rcd.clip with
  | none => s.conflict
  | some k =>
    if parm f.entry 0 ≠ k.prof.clip then .no .invalidField (pOff 0)
    else if next ≠ 0 ∧ s.sustains p = false then s.unsustainable p
    else withData c fun d =>
      let s1 := s.closeClip 0
      let s2 := if next = 0 then s1 else s1.openProfile { p with user := d }
      .apply (s2.startRunning (f.run .clipClose))

/-- The slot that a FRAME_APPEND has at its start: the one it took at fetch, or, where that is not of its size, one taken
now (R164, log entry 34). -/
def State.slotFor (s : State) (f : Fetched) (bytes : Nat) : Option (Nat × State) :=
  let size := sectorsOf bytes * 32768
  match f.alloc with
  | .frame slot =>
    if s.rcd.drey.ring.any fun b => b.slot == some slot && b.bytes == size then some (slot, s)
    else (s.freeSlot slot).takeSlot size
  | _ => s.takeSlot size

/-- A FRAME_APPEND that has met every check: its slot takes the frame, whose DMA runs (R152, R154, R680). -/
def State.startFrame (s : State) (f : Fetched) (k : OpenClip) (slot : Nat) : State :=
  let fr : Frame := { clip := k.prof.clip, number := k.nextFrame, bytes := k.prof.frameBytes, slot := slot
                      timecode := f.timecode, org := f.org, entry := f.entry }
  ((s.updRcd fun r => { r with
    frames := r.frames ++ [fr], clip := some { k with nextFrame := k.nextFrame + 1 } }).watchOccupancy).startRunning
    { (f.run .frameAppend) with alloc := .frame slot }

/-- FRAME_APPEND (R151 to R155, R581). -/
def State.ruleFrameAppend (s : State) (f : Fetched) (c : Call) : Ruling :=
  match s.rcd.clip with
  | none => s.conflict
  | some k =>
    if f.entry.length.toNat ≠ k.prof.frameBytes then .no .invalidField 4
    else if parm f.entry 0 ≠ k.prof.clip then .no .invalidField (pOff 0)
    else if (parm f.entry 1).toNat ≠ k.nextFrame then .no .frameOutOfOrder k.nextFrame
    else if s.remainingSlots < sectorsOf k.prof.frameBytes + s.unencodedSectors + reservedSlots then
      .apply ((s.closeClip 3).finish f.org f.entry f.alloc .capacityExhausted (BitVec.ofNat 64 s.remainingSlots) [])
    else
      match c.dataErr with
      | some a => .refuse .dmaError a
      | none =>
        match s.slotFor f k.prof.frameBytes with
        | some (slot, s1) => .apply (s1.startFrame f k slot)
        | none => .no .bufferFullRetry (mbRound s.rates.1 * 2 ^ 32 + mbRound s.rates.2)

/-! Auxiliary data (R157, R704). -/

/-- The frame count of a clip: of the open clip its next expected number, of a closed one the count of its close record
(R157). -/
def State.frameCount (s : State) (clip : Word) : Option Nat :=
  match s.rcd.clip.filter fun k => k.prof.clip == clip with
  | some k => some k.nextFrame
  | none =>
    match s.rcd.closing.find? fun k => k.clip == clip with
    | some k => some k.frames
    | none => s.clipClosedCount clip

/-- The clip has its opening record in the volume map. -/
def State.clipKnown (s : State) (clip : Word) : Bool := (s.findRecord 2 clip 0).isSome

/-- The AUX record of Table 6.7. -/
def auxRecord (clip frame : Word) (stream n no : Nat) : VolRecord :=
  mkRecord 0x0A clip.toNat (frame.toNat * 256 + stream)
    (le 4 clip.toNat ++ le 4 frame.toNat ++ [BitVec.ofNat 8 stream, 0, 0, 0] ++ le 4 n ++ le 4 no)

/-- The auxiliary data sectors of some bytes, with the side-pool units each gives back when it is placed (R171, R704). -/
def auxSectors (no : Nat) (d : List Byte) (units : Nat) : List (Nat × List Byte × Nat) :=
  let k := (d.length + 32767) / 32768
  (List.zip (List.range k) (pieces 32768 k d)).map fun x =>
    (no + x.1, sectorPad x.2, min 8 (units - 8 * x.1))

/-- AUX_APPEND (R157, R704): its data wait for their sectors in the side pool, and it completes. -/
def State.ruleAuxAppend (s : State) (f : Fetched) (c : Call) : Ruling :=
  let clip := parm f.entry 0
  let frame := parm f.entry 1
  let n := f.entry.length.toNat
  let k := (n + 32767) / 32768
  if !s.clipKnown clip || decide ((s.frameCount clip).getD 0 ≤ frame.toNat) then .no .notWritten frame.toNat
  else if s.remainingSlots < k + s.unencodedSectors + reservedSlots then .no .capacityExhausted s.remainingSlots
  else withData c fun d =>
    let no := s.mnt.nextSys
    let units := match f.alloc with
      | .side u => u
      | _ => 0
    let s1 := (s.addRecord (auxRecord clip frame (fieldOf (parm f.entry 2) 7 0) n no)).updMnt fun m => { m with nextSys := no + k }
    let s2 := s1.updRcd fun r => { r with auxQueue := r.auxQueue ++ auxSectors no d units }
    let s3 := { s2 with vmap := { s2.vmap with auxData := (no, d) :: s2.vmap.auxData } }
    .apply (s3.wakeSpindle.finish f.org f.entry .none .success 0 [])

/-! Reads (R63, R97, R156, R226). -/

/-- The spindle is locked out, so what needs the medium is refused (R418). -/
def State.lockedOut (s : State) : Bool := s.spin.lockout

/-- Some LSN of a read lies neither in a frame slot nor in Scurry, so that the read needs the medium (R63, R354). -/
def State.needsMedium (s : State) (lsns : List Nat) : Bool :=
  lsns.any fun l => (s.frameOfLsn l).isNone &&
    !s.rd.scurry.any fun e => e.session == s.mnt.session && e.lsn == l

/-- The heads on whose medium some LSNs lie. -/
def State.headsOf (s : State) (lsns : List Nat) : List Head :=
  bothHeads.filter fun h => lsns.any fun l => (s.frameOfLsn l).isNone && (s.placeOf l).any fun p => psaHead p.1 == h

/-- Start a read of LSNs, unless lock-out forbids it or bring-up keeps it waiting (R418, R545). -/
def State.ruleLsns (s : State) (r : Running) : Ruling :=
  if !s.needsMedium r.lsns then .apply (s.startRead r)
  else if s.lockedOut then s.conflict
  else if s.bringupHolds (s.headsOf r.lsns) then .wait s .bringup
  else .apply (s.wakeSpindle.startRead r)

/-- READ (R75, R156). Where both hold, ACCESS_DENIED comes before NOT_WRITTEN, whose Detail is the first LSN of the range that
is not assigned (DESIGN CHOICE, log entry 169). -/
def State.ruleRead (s : State) (f : Fetched) : Ruling :=
  let lsn := (parm f.entry 0).toNat
  let n := fieldOf (parm f.entry 1) 13 0
  match s.firstRefused f.org.fn lsn n with
  | some l => .no .accessDenied l
  | none =>
    if s.mnt.nextLsn < lsn + n then .no .notWritten (max lsn s.mnt.nextLsn)
    else s.ruleLsns { (f.run .read) with lsns := (List.range n).map (lsn + ·) }

/-- FRAME_BYTES of a clip: of the open clip, of one being closed, or of its opening record. -/
def State.frameBytesOf (s : State) (clip : Word) : Option Nat :=
  match s.rcd.clip.filter fun k => k.prof.clip == clip with
  | some k => some k.prof.frameBytes
  | none =>
    match s.rcd.closing.find? fun k => k.clip == clip with
    | some k => some k.frameBytes
    | none => s.clipFrameBytes clip

/-- Commands fetched before another one that have not started, over all queues, with their opcodes. -/
def State.earlier (s : State) (order : Nat) (p : Opcode → Entry → Bool) : Bool :=
  let hit := fun f : Fetched => decide (f.order < order) && (match Opcode.ofCode f.entry.opcode with
    | some o => p o f.entry
    | none => false)
  s.host.deferred.any (fun d => hit d.cmd) || s.host.funcs.toList.any fun u => u.queues.toList.any fun q => q.waiting.any hit

/-- An earlier FRAME_APPEND of a frame has not completed (R97). -/
def State.appendAhead (s : State) (order : Nat) (clip frame : Word) : Bool :=
  let names := fun (o : Opcode) (e : Entry) => o == .frameAppend && parm e 0 == clip && parm e 1 == frame
  s.earlier order names || s.host.running.any fun r => decide (r.order < order) && names r.op r.entry

/-- A FRAME_READ from the frame's slot, without a relocation lookup (R63, R230). -/
def State.readSlot (s : State) (f : Fetched) (fr : Frame) : Ruling :=
  let d := (fr.data.drop (parm f.entry 2).toNat).take f.entry.length.toNat
  s.doneWith f (fr.firstLsn.getD 0xFFFFFFFF) d

/-- The review slot of a FRAME_READ that expected to be served from a frame slot which the frame has left since (R170). -/
def State.reviewFor (s : State) (f : Fetched) : Alloc × State :=
  match f.alloc with
  | .review a b => (.review a b, s)
  | _ => (s.takeReview f.org.fn ((f.entry.length.toNat + 32767) / 32768)).getD (.none, s)

/-- A FRAME_READ of a frame that has left its slot: over the LSNs that its bytes occupy (R75, R226). -/
def State.readFrame (s : State) (f : Fetched) (bytes first : Nat) : Ruling :=
  let off := (parm f.entry 2).toNat
  let start := first + (parm f.entry 1).toNat * sectorsOf bytes
  let a := off / 32768
  let n := (off + f.entry.length.toNat + 32767) / 32768 - a
  match s.firstRefused f.org.fn (start + a) n with
  | some l => .no .accessDenied l
  | none =>
    let r : Running := { (f.run .frameRead) with
      lsns := (List.range n).map (start + a + ·), offset := off % 32768, result := BitVec.ofNat 32 start }
    match s.ruleLsns r with
    | .apply _ => (s.reviewFor f).2.ruleLsns { r with alloc := (s.reviewFor f).1 }
    | other => other

/-- The LSNs of a frame in its slot that the bytes of a FRAME_READ occupy may be read by the function (R75, R226); a
frame that has no LSN yet names none. -/
def State.slotRefused (s : State) (f : Fetched) (fr : Frame) : Option Nat :=
  let off := (parm f.entry 2).toNat
  let a := off / 32768
  fr.firstLsn.bind fun l => s.firstRefused f.org.fn (l + a) ((off + f.entry.length.toNat + 32767) / 32768 - a)

/-- FRAME_READ (R63, R97, R156). -/
def State.ruleFrameRead (s : State) (f : Fetched) : Ruling :=
  let clip := parm f.entry 0
  let n := (parm f.entry 1).toNat
  if s.appendAhead f.order clip (parm f.entry 1) then .wait s .overlap
  else
    match s.frameBytesOf clip with
    | none => .no .notWritten n
    | some bytes =>
      if bytes < (parm f.entry 2).toNat + f.entry.length.toNat then .no .invalidField 4
      else
        match s.findFrame clip n with
        | some fr =>
          if fr.phase = .dma then .no .notWritten n
          else
            match s.slotRefused f fr with
            | some l => .no .accessDenied l
            | none => s.readSlot f fr
        | none =>
          if (s.frameCount clip).getD 0 ≤ n then .no .notWritten n
          else
            match s.clipFirst clip with
            | some first => s.readFrame f bytes first
            | none => .no .notWritten n

/-! Records (R205 to R207, R224, R705). -/

/-- An earlier write of the named record has not started (R97). -/
def State.recordAhead (s : State) (f : Fetched) (ty : BitVec 8) (key index : Word) : Bool :=
  s.earlier f.order fun o e =>
    (o == .metaWrite && BitVec.ofNat 8 (fieldOf (parm e 0) 7 0) == ty && parm e 1 == key && parm e 2 == index) ||
    (o == .auxAppend && ty == 0x0A && parm e 0 == key &&
      BitVec.ofNat 32 ((parm e 1).toNat * 256 + fieldOf (parm e 2) 7 0) == index)

/-- The auxiliary data of `k` AUX data sectors from a number on, up to the first that is not the sector it should be or fails
its tag, and then the status with that sector's LSN field and PSA (R61, R268, R292, R704). -/
def auxOpen (key : List Byte) : Nat → Nat → List (List Byte × List Byte) → List Byte × Option (Status × Nat × Nat)
  | 0, _, _ => ([], none)
  | _ + 1, no, [] => ([], some (.mediaUnrecovered, sysLsn no, 0))
  | k + 1, no, (hdr, ct) :: rest =>
    if !headerOk hdr || Word.fieldLE hdr 0 4 != sysLsn no || hdr.getD 12 0 != 0x06 then
      ([], some (.mediaUnrecovered, sysLsn no, Word.fieldLE hdr 4 4))
    else
      match openSector key hdr ct with
      | none => ([], some (.authTagMismatch, sysLsn no, Word.fieldLE hdr 4 4))
      | some pt => let r := auxOpen key k (no + 1) rest; (pt ++ r.1, r.2)

/-- The bytes that META_READ returns for a record: the record, and for an AUX record its data, of which those of an earlier
mount come from the medium as far as their sectors verify (R61, R705). -/
def State.recordData (s : State) (c : Call) (r : VolRecord) : List Byte × Option (Status × Nat × Nat) :=
  if r.rtype == 0x0A then
    let n := Word.fieldLE r.bytes 16 4
    let no := Word.fieldLE r.bytes 20 4
    match s.vmap.auxData.find? (fun x => x.1 == no) with
    | some x => (r.bytes ++ (x.2 ++ Word.zeros (n - x.2.length)).take n, none)
    | none =>
      let d := auxOpen (s.mnt.mediaKey.getD []) (sectorsOf n) no c.mediumAux
      (r.bytes ++ d.1.take n, d.2)
  else (r.bytes, none)

/-- A META_READ whose AUX data cannot all be read ends with the data before them, every other byte undefined (R145). -/
def State.metaReadFails (s : State) (f : Fetched) (good : List Byte) (x : Status × Nat × Nat) : Ruling :=
  let n := f.entry.length.toNat
  let d := (good.drop (parm f.entry 3).toNat).take n
  let s1 := if x.1 = .authTagMismatch then s.log 0x0401 [arg x.2.1, arg x.2.2] else s
  .apply (s1.finish f.org f.entry f.alloc x.1 (BitVec.ofNat 64 x.2.1)
    (d ++ (List.range (n - d.length)).map (Config.undefinedByte x.2.1)))

/-- META_READ (R207, R705). -/
def State.ruleMetaRead (s : State) (f : Fetched) (c : Call) : Ruling :=
  let ty := BitVec.ofNat 8 (fieldOf (parm f.entry 0) 7 0)
  let key := parm f.entry 1
  if s.recordAhead f ty key (parm f.entry 2) then .wait s .overlap
  else
    match s.findRecord ty key (parm f.entry 2) with
    | none => .no .notWritten key.toNat
    | some r =>
      let all := s.recordData c r
      let off := (parm f.entry 3).toNat
      if (r.bytes.length + (if r.rtype == 0x0A then Word.fieldLE r.bytes 16 4 else 0)) ≤ off then .no .invalidField (pOff 3)
      else
        let d := (all.1.drop off).take f.entry.length.toNat
        let s1 := s.cacheAccess c.mapAddr.toNat r false
        match (if d.length < f.entry.length.toNat then all.2 else none) with
        | some x => s1.metaReadFails f all.1 x
        | none => s1.doneWith f d.length d

/-- The record that a META_WRITE makes: the header as the T36 sets it, zero bytes up to a multiple of 4 (R208, R705). -/
def hostRecord (ty : Nat) (key index : Word) (d : List Byte) : VolRecord :=
  mkRecord ty key.toNat index.toNat (d.drop 4)

/-- META_WRITE of an ACCESS_RANGE (R223 to R225). -/
def State.writeRange (s : State) (f : Fetched) (c : Call) (d : List Byte) : Ruling :=
  let fn := (parm f.entry 1).toNat
  let index := (parm f.entry 2).toNat
  let r : AccessRange := { fn := fn, index := index, first := Word.fieldLE d 4 4, count := Word.fieldLE d 8 4
                           deny := Word.fieldLE d 12 1 == 1 }
  if 1 < Word.fieldLE d 12 1 ∨ 2 ^ 32 < r.first + r.count then .no .invalidField 8
  else
    match s.vmap.burrow.setRange r with
    | none => .no .invalidField 8
    | some t =>
      let rr := hostRecord 5 (parm f.entry 1) (parm f.entry 2) d
      let s1 := s.updBurrow fun _ => t
      let s2 := if r.count = 0 then
          { s1 with vmap := { s1.vmap with
              records := s1.vmap.records.filter fun x => !VolRecord.named 5 (parm f.entry 1) (parm f.entry 2) x } }
        else s1.mapRecord rr
      (s2.cacheAccess c.mapAddr.toNat rr true).done f 0

/-- META_WRITE (R206, R705). -/
def State.ruleMetaWrite (s : State) (f : Fetched) (c : Call) : Ruling :=
  withData c fun d =>
    if fieldOf (parm f.entry 0) 7 0 = 5 then s.writeRange f c d
    else
      let r := hostRecord 7 (parm f.entry 1) (parm f.entry 2) d
      ((s.addRecord r).cacheAccess c.mapAddr.toNat r true).wakeSpindle.done f 0

/-! Locks (R98 to R102). -/

/-- The lock that an entry names. -/
def lockOf (e : Entry) : LockId := Fin.ofNat 64 (fieldOf (parm e 0) 5 0)

/-- The queue holds the lock. -/
def State.holdsLock (s : State) (f : Fetched) : Bool :=
  let k := s.lock (lockOf f.entry)
  k.held && k.ownedBy f.org.fn f.org.q

/-- LOCK_BUSY with the lock status word (Table 4.9). -/
def State.lockBusy (s : State) (l : LockId) : Ruling := .refuse .lockBusy ((s.lock l).word.setWidth 64)

/-- A waiter joins the waiters of a lock in fetch order (R99). -/
def putWaiter (w : LockWaiter) : List LockWaiter → List LockWaiter
  | [] => [w]
  | x :: xs => if w.order < x.order then w :: x :: xs else x :: putWaiter w xs

/-- LOCK_ACQUIRE (R98 to R101, R105). -/
def State.ruleLockAcquire (s : State) (f : Fetched) : Ruling :=
  let l := lockOf f.entry
  let ms := fieldOf (parm f.entry 1) 13 0
  if s.holdsLock f then s.conflict
  else if !(s.lock l).held then .apply (s.completeAcquire l (s.lock l) f.org f.entry.cid f.entry.opcode)
  else if ms = 0 ∨ 256 ≤ s.waiterCount then s.lockBusy l
  else
    .apply (s.updLock l fun k => { k with
      waiters := putWaiter { org := f.org, cid := f.entry.cid, opcode := f.entry.opcode
                             deadline := s.now + Config.ms ms } k.waiters })

/-- LOCK_RELEASE (R101, R102): the head waiter is granted the lock. -/
def State.ruleLockRelease (s : State) (f : Fetched) : Ruling :=
  if s.holdsLock f then (s.freeLock (lockOf f.entry) false).done f 0 else s.conflict

/-- LOCK_CLEAR_ABANDONED (R101, R102). -/
def State.ruleLockClear (s : State) (f : Fetched) : Ruling :=
  if s.holdsLock f then (s.updLock (lockOf f.entry) fun k => { k with abandoned := false }).done f 0 else s.conflict

/-! Power (R476, R493 to R495). -/

/-- POWER_STATE (R476, R484, R493 to R495). -/
def State.rulePowerState (s : State) (f : Fetched) : Ruling :=
  match PowerState.ofNum (fieldOf (parm f.entry 0) 2 0) with
  | none => .no .invalidField (pOff 0)
  | some p =>
    if s.holdsAwake && decide (2 ≤ PowerState.num p) then s.conflict
    else
      .apply ((s.startRunning { (f.run .powerState) with target := PowerState.num p }).requestPower p
        (.command f.org f.entry.cid))

/-! SPINDLE (R414 to R421). -/

/-- The speed that a SPINDLE command asks for. -/
def rpmOf (e : Entry) : Nat := fieldOf (parm e 1) 15 0

/-- It asks for reverse rotation. -/
def reverseOf (e : Entry) : Bool := (parm e 0).getLsbD 0

/-- A running SPINDLE command with its target. -/
def Fetched.spindleRun (f : Fetched) : Running := { (f.run .spindle) with target := rpmOf f.entry }

/-- SPINDLE with RPM 0: a stop, which ends a lock-out (R415, R418). -/
def State.spindleStopBy (s : State) (f : Fetched) : Ruling :=
  let s1 := (s.updSpin fun p => { p with lockout := false, firstTrip := none }).updMnt fun m => { m with stoppedByHost := true }
  if s1.spin.state = 0 then s1.brakeSpindle.done f 0
  else .apply ((s1.startRunning f.spindleRun).brakeSpindle)

/-- Both heads park and Scurry ends before a reverse rotation (R417). -/
def State.parkForReverse (s : State) : State := ((s.dropScurry.parkHead .a).parkHead .b)

/-- SPINDLE with DIR 1 (R416, R417): from rest, or below 300 rpm after braking to rest. -/
def State.spindleReverse (s : State) (f : Fetched) (rpm : Nat) : Ruling :=
  let s1 := (s.parkForReverse.updMnt fun m => { m with stoppedByHost := false }).startRunning f.spindleRun
  if s1.spin.state = 0 then .apply (s1.updSpin fun p => { p with startDue := true, target := rpm, reverse := true })
  else .apply (s1.brakeSpindle.updSpin fun p => { p with thenStart := some (rpm, true) })

/-- SPINDLE with DIR 0 (R414, R416): out of reverse rotation by braking to rest first. -/
def State.spindleForward (s : State) (f : Fetched) (rpm : Nat) : Ruling :=
  let s1 := s.dropScurry.updMnt fun m => { m with stoppedByHost := false }
  if s1.spin.reverse && s1.spin.state != 0 then
    .apply ((s1.startRunning f.spindleRun).brakeSpindle.updSpin fun p => { p with thenStart := some (rpm, false) })
  else if (s1.spin.state == 3 || s1.spin.state == 4) && s1.spin.target == rpm then s1.done f 0
  else .apply ((s1.startRunning f.spindleRun).runAt rpm)

/-- The spindle turns above the reversal threshold of 300 rpm (R144, R416). -/
def State.aboveReversal (s : State) : Bool := decide (300 ≤ s.spin.rpm) && s.spin.state != 0

/-- SPINDLE (R144, R415 to R418). -/
def State.ruleSpindle (s : State) (f : Fetched) : Ruling :=
  let rpm := rpmOf f.entry
  if reverseOf f.entry && s.aboveReversal then s.conflict
  else if rpm = 0 then s.spindleStopBy f
  else if s.spin.lockout then s.conflict
  else if reverseOf f.entry then s.spindleReverse f rpm
  else s.spindleForward f rpm

/-! CALIBRATE and VERIFY_CTL (R558 to R560, R570). -/

/-- The steps that a CALIBRATE asks for. -/
def stepsOf (e : Entry) : List Nat :=
  let n := fieldOf (parm e 0) 7 0
  if n = 255 then allSteps else [n]

/-- The beams of a head that a CALIBRATE asks for (R558). -/
def beamsOf (e : Entry) (h : Head) : List Beam :=
  let a := fieldOf (parm e 1) 17 0
  let b := fieldOf (parm e 2) 17 0
  let mask := match h with
    | .a => a
    | .b => b
  if a = 0 ∧ b = 0 then allBeams else allBeams.filter fun x => mask.testBit x.val

/-- The units of a step that a CALIBRATE asks for. -/
def unitsOf (e : Entry) (step : Nat) : List (Nat × Head × Beam) :=
  match scopeOf step with
  | some (.beam _) => bothHeads.flatMap fun h => (beamsOf e h).map fun b => (step, h, b)
  | _ => (placesOf step).map fun x => (step, x.1, x.2)

/-- Every unit that a CALIBRATE asks for. -/
def calUnits (e : Entry) : List (Nat × Head × Beam) := (stepsOf e).flatMap (unitsOf e)

/-- The failing preconditions of a CALIBRATE, IDLE among them (R559). -/
def State.calMask (s : State) (e : Entry) : Nat :=
  (calUnits e).foldl (fun acc u => Nat.lor acc (s.failing u.1 u.2.1)) (Nat.land 256 (s.falseMask .a))

/-- CALIBRATE (R558 to R560): its steps become pending, and CAL_STEP_START runs them. -/
def State.ruleCalibrate (s : State) (f : Fetched) : Ruling :=
  let units := calUnits f.entry
  let m := s.calMask f.entry
  if m ≠ 0 then .no .notRunPrecondition m
  else
    let s1 := units.foldl (fun u x => u.setUnit x.1 x.2.1 x.2.2 .pending) s
    .apply ((s1.startRunning { (f.run .calibrate) with
      calLeft := units, result := BitVec.ofNat 32 (stepsOf f.entry).length }).followBringup)

/-- VERIFY_CTL (R545, R570). -/
def State.ruleVerifyCtl (s : State) (f : Fetched) : Ruling :=
  let buffer := (parm f.entry 0).getLsbD 1
  let media := (parm f.entry 0).getLsbD 0
  if media && s.bringupHolds bothHeads then .wait s .bringup
  else ((if media then s.wakeSpindle else s).updRd fun r => { r with bufferScrub := buffer, mediaScrub := media }).done f 0

/-! Quill's commands (R517 to R532). -/

/-- FW_STAGE, from a queue or from the service port (R520 to R522, R624). -/
def State.ruleFwStage (s : State) (f : Fetched) (c : Call) : Ruling :=
  let off := (parm f.entry 0).toNat
  if s.quill.stageInvalid off then .no .invalidField (pOff 0)
  else withData c fun d =>
    let r := s.quill.stageChunk off ((parm f.entry 1).getLsbD 0) d
    .apply ((s.updQuill fun _ => r.1).finish f.org f.entry f.alloc r.2.1 (BitVec.ofNat 64 r.2.2) [])

/-- FW_ACTIVATE (R523): fetch stops, started commands run to their end. -/
def State.ruleFwActivate (s : State) (f : Fetched) : Ruling :=
  if s.quill.staged.isNone then .no .updateRefused 4
  else
    .apply (((s.updHost fun h => { h with fetchStopped := true }).startRunning (f.run .fwActivate)).settleActivate)

/-- The host nonce of an ATTEST (Table 4.5). -/
def nonceOfEntry (e : Entry) : List Byte := (e.params.toList.take 8).flatMap fun p => le 4 p.toNat

/-- The attestation report (Table 14.5) and zero bytes up to 4,096. -/
def State.report (s : State) (f : Fetched) : List Byte :=
  let body := s.reportBody f.org.fn s.quill.counter (nonceOfEntry f.entry)
  let k := Config.signSecret s.quill.counter % (n384 - 1) + 1
  let r := body ++ ecdsaSign (identityPrivate s.quill.seed) k (sha384 body)
  r ++ Word.zeros (4096 - r.length)

/-- ATTEST (R517 to R519). -/
def State.ruleAttest (s : State) (f : Fetched) : Ruling :=
  match s.quill.nextCounter with
  | none =>
    .apply ((s.log 0x0705 []).finish f.org f.entry f.alloc .stateConflict s.stateValue [])
  | some q =>
    let s1 := s.updQuill fun _ => { q with lastReport := some q.counter }
    s1.doneWith f 756 (s1.report f)

/-- JTAG_UNLOCK (R530 to R532). -/
def State.ruleJtagUnlock (s : State) (f : Fetched) (c : Call) : Ruling :=
  withData c fun d =>
    if s.quill.refusals < 3 ∧ s.quill.tokenOk f.entry d = true then (s.unlockAt (Word.fieldLE d 2 1)).done f 0
    else
      .apply ((s.updQuill fun q => { q with refusals := q.refusals + 1 }).finish f.org f.entry f.alloc .unlockRefused 0 [])

end Sys2Proof.Machine
end

