-- ==== Sys2Proof/Machine/Commands.lean ====
section
/-! DEFINITION. The checks of a command in the order of R139, the order in which commands start, what they wait for and how
they resume, and the meanings of the opcode rows (03_host_link_tenants, 04_command_packets). -/

namespace Sys2Proof.Machine

/-! Checks 1 to 3 of R139. -/

/-- A POWER_STATE target below DOZE is for F3 alone (R474). -/
def targetDenied (o : Opcode) (fn : FnId) (e : Entry) : Bool :=
  o == .powerState && fn != 3 && decide (2 ≤ fieldOf (parm e 0) 2 0)

/-- The lock opcodes are no commands of the service port (R622). -/
def uartDenied (o : Opcode) (uart : Bool) : Bool :=
  uart && (o == .lockAcquire || o == .lockRelease || o == .lockClearAbandoned)

/-- The first of checks 1 to 3 that fails (R139, R158, R474, R527, R622). -/
def State.firstChecks (s : State) (d : Deferred) : Option (Status × DWord) :=
  let e := d.cmd.entry
  let fn := d.cmd.org.fn
  if s.quill.recovery && !Opcode.inRecovery d.op then some (.invalidOpcode, 0)
  else if !Opcode.allowed d.op fn || targetDenied d.op fn e || uartDenied d.op d.cmd.org.uart then
    some (.functionDenied, e.opcode.setWidth 64)
  else
    match fieldCheck d.op d.call d.cmd.org.uart with
    | some r => some r
    | none =>
      if s.quill.recovery && d.op == .getPage && fieldOf (parm e 0) 7 0 != 1 then some (.invalidField, BitVec.ofNat 64 (pOff 0))
      else none

/-! Waiting to start (R94 to R97, R141, R142, R146, R417, R420, R421). -/

/-- Some earlier command of the queue has been fetched and has not started (R94). A command that waits for an overlap (R97)
counts as started, so later ones start past it (DESIGN CHOICE, log entry 126). -/
def State.behindQueue (s : State) (d : Deferred) : Bool :=
  s.host.deferred.any fun x => x.cmd.org.fn == d.cmd.org.fn && x.cmd.org.q == d.cmd.org.q &&
    x.cmd.org.uart == d.cmd.org.uart && decide (x.cmd.order < d.cmd.order) && x.reason != .overlap

/-- State-changing commands start in fetch order; a CLIP_CLOSE follows the FRAME_APPENDs fetched before it, a
FRAME_APPEND the CLIP_OPEN or CLIP_CLOSE before it (R141, R149, R420). -/
def State.behindChange (s : State) (d : Deferred) : Bool :=
  let n := d.cmd.order
  (Opcode.changesState d.op && s.earlier n fun o _ => Opcode.changesState o) ||
    (d.op == .clipClose && s.earlier n fun o _ => o == .frameAppend) ||
    (d.op == .frameAppend && s.earlier n fun o _ => o == .clipOpen || o == .clipClose)

/-- A write does not pass an earlier write of the same frame or record (R97). -/
def State.behindWrite (s : State) (d : Deferred) : Bool :=
  let e := d.cmd.entry
  match d.op with
  | .frameAppend => s.appendAhead d.cmd.order (parm e 0) (parm e 1)
  | .auxAppend =>
    s.appendAhead d.cmd.order (parm e 0) (parm e 1) ||
      s.recordAhead d.cmd 0x0A (parm e 0) (BitVec.ofNat 32 ((parm e 1).toNat * 256 + fieldOf (parm e 2) 7 0))
  | .metaWrite => s.recordAhead d.cmd (BitVec.ofNat 8 (fieldOf (parm e 0) 7 0)) (parm e 1) (parm e 2)
  | _ => false

/-- A lock opcode (Table 4.4). -/
def isLockOp (o : Opcode) : Bool := o == .lockAcquire || o == .lockRelease || o == .lockClearAbandoned

/-- A fetched command is a lock command of the same lock, fetched before another one. -/
def Fetched.locksBefore (f : Fetched) (d : Deferred) : Bool :=
  decide (f.order < d.cmd.order) && (Opcode.ofCode f.entry.opcode).any isLockOp && lockOf f.entry == lockOf d.cmd.entry

/-- Every earlier command of the queue has posted its completion (R95). -/
def State.fenceOk (s : State) (fn : FnId) (q : QId) : Bool :=
  !s.queueBusy fn q && (s.queue fn q).held.isEmpty && (s.waitersOf fn q).isEmpty

/-- The front command of a queue may start as soon as its row comes (R94, R95). -/
def State.startable (s : State) (fn : FnId) (q : QId) (f : Fetched) : Bool :=
  !s.host.fetchStopped && (!f.entry.fence || s.fenceOk fn q)

/-- A lock command that reaches its lock together with one fetched before it on another queue acts after that one
(R105). -/
def State.behindLock (s : State) (d : Deferred) : Bool :=
  isLockOp d.op &&
    (s.host.deferred.any (fun x => x.cmd.locksBefore d) ||
      (List.finRange 4).any fun fn => (List.finRange 32).any fun q =>
        match (s.queue fn q).waiting with
        | [] => false
        | f :: _ => f.locksBefore d && s.startable fn q f)

/-- Media commands of some test run. -/
def State.mediaStarted (s : State) : Bool := s.host.running.any fun r => isMedia r.op r.entry

/-- A SPINDLE command waits for started media commands, and media commands fetched after it wait for it (R421). -/
def State.behindSpindle (s : State) (d : Deferred) : Bool :=
  if d.op == .spindle then s.mediaStarted
  else
    isMedia d.op d.cmd.entry && (s.earlier d.cmd.order (fun o _ => o == .spindle) ||
      s.host.running.any fun r => r.op == .spindle && decide (r.order < d.cmd.order))

/-- What a command that has passed checks 1 to 3 still waits for before it is checked further. -/
def State.waitsFor (s : State) (d : Deferred) : Option WaitReason :=
  let media := isMedia d.op d.cmd.entry
  if media && !s.inRun then some .power
  else if s.runs [.mount, .unmount] && !Opcode.alwaysLegal d.op then some .mount
  else if media && d.op != .spindle && s.spin.reverse && s.spin.state != 0 then some .reverse
  else if s.behindSpindle d then some .spindle
  else if s.behindQueue d || s.behindChange d || s.behindLock d then some .order
  else if s.behindWrite d then some .overlap
  else none

/-! Checks 4 to 6 of R139. -/

/-- Commands that need Drey (R199). -/
def needsDrey (o : Opcode) (e : Entry) : Bool :=
  match o with
  | .mount | .unmount | .clipOpen | .clipClose | .frameAppend | .auxAppend | .metaWrite | .read | .frameRead | .metaRead => true
  | .verifyCtl => fieldOf (parm e 0) 1 0 != 0
  | _ => false

/-- Commands that bring-up refuses (R143). -/
def bringupRefuses (o : Opcode) (e : Entry) : Bool :=
  match o with
  | .clipOpen | .calibrate => true
  | .clipClose => parm e 1 != 0
  | _ => false

/-- The columns of Table 4.10. -/
inductive Column where
  | n
  | p
  | m
  | c
  | o
deriving DecidableEq, Repr

/-- The column that the state is in; a MOUNT or an UNMOUNT that runs is checked as column P (R142). -/
def State.column (s : State) : Column :=
  if s.mnt.magazine < 2 then .n
  else if s.mnt.magazine = 4 then (if s.clipOpen then .c else .m)
  else if s.mnt.magazine = 5 then .o
  else .p

/-- The legality matrix (Table 4.10); KEY_PURGE's exception stands with its own checks. -/
def legal (op : Opcode) (k : Column) : Bool :=
  match op with
  | .identify | .getPage | .getParam | .setParam | .lockAcquire | .lockRelease | .lockClearAbandoned | .powerState
  | .attest | .fwStage => true
  | .keyLoad | .keyPurge | .calibrate => k != .c
  | .mount => k == .n || k == .p
  | .unmount => k == .m || k == .o
  | .verifyCtl => k == .m || k == .c || k == .o
  | .clipOpen => k == .m
  | .clipClose | .frameAppend => k == .c
  | .auxAppend | .metaWrite => k == .m || k == .c
  | .read | .frameRead | .metaRead => k == .m || k == .c || k == .o
  | .spindle => k == .p || k == .m || k == .o
  | .fwActivate | .jtagUnlock => k == .n || k == .p

/-- Commands that need the spindle, whatever the data they name, and that lock-out refuses (R418, log entry 35). -/
def State.lockoutRefuses (s : State) (d : Deferred) : Bool :=
  s.spin.lockout &&
    match d.op with
    | .mount | .clipOpen | .clipClose | .frameAppend | .auxAppend => true
    | .unmount => s.mountedRW
    | .metaWrite => fieldOf (parm d.cmd.entry 0) 7 0 != 5
    | _ => false

/-- The first of checks 4 to 6 that fails (R139, R143, R199, R418, R548). -/
def State.midChecks (s : State) (d : Deferred) : Option (Status × DWord) :=
  let e := d.cmd.entry
  if s.rcd.drey.outOfService && needsDrey d.op e then some (.bringupInProgress, 0xFFFFFFFFFFFFFFFF#64)
  else if s.cal.bringup && bringupRefuses d.op e then some (.bringupInProgress, BitVec.ofNat 64 s.estimate)
  else if d.op == .mount && s.mnt.magazine == 0 then some (.magazineAbsent, 0)
  else if d.op == .mount && s.mnt.magazine == 1 then some (.doorOpen, 0)
  else if !legal d.op s.column || s.lockoutRefuses d then some (.stateConflict, s.stateValue)
  else none

/-! The whole check. -/

/-- Check 7 and the effect, by opcode. -/
def State.ownRule (s : State) (d : Deferred) : Ruling :=
  let f := d.cmd
  let c := d.call
  match d.op with
  | .identify => s.ruleIdentify f
  | .getPage => s.ruleGetPage f
  | .getParam => s.ruleGetParam f
  | .setParam => s.ruleSetParam f
  | .keyLoad => s.ruleKeyLoad f c
  | .keyPurge => s.ruleKeyPurge f
  | .mount => s.ruleMountOp f c
  | .unmount => s.ruleUnmount f
  | .clipOpen => s.ruleClipOpen f c
  | .clipClose => s.ruleClipClose f c
  | .frameAppend => s.ruleFrameAppend f c
  | .auxAppend => s.ruleAuxAppend f c
  | .read => s.ruleRead f
  | .frameRead => s.ruleFrameRead f
  | .metaRead => s.ruleMetaRead f c
  | .metaWrite => s.ruleMetaWrite f c
  | .lockAcquire => s.ruleLockAcquire f
  | .lockRelease => s.ruleLockRelease f
  | .lockClearAbandoned => s.ruleLockClear f
  | .powerState => s.rulePowerState f
  | .spindle => s.ruleSpindle f
  | .calibrate => s.ruleCalibrate f
  | .verifyCtl => s.ruleVerifyCtl f
  | .fwStage => s.ruleFwStage f c
  | .fwActivate => s.ruleFwActivate f
  | .attest => s.ruleAttest f
  | .jtagUnlock => s.ruleJtagUnlock f c

/-- What a command comes to in this state (R139). Its first three checks need no state and come before it waits behind its
queue (DESIGN CHOICE, log entry 165). -/
def State.rule (s : State) (d : Deferred) : Ruling :=
  match s.firstChecks d with
  | some r => .refuse r.1 r.2
  | none =>
    match s.waitsFor d with
    | some .power => .wait s.wantRun .power
    | some r => .wait s r
    | none =>
      match s.midChecks d with
      | some r => .refuse r.1 r.2
      | none => s.ownRule d

/-- Put a waiting command into the list, by fetch order. -/
def putDeferred (d : Deferred) : List Deferred → List Deferred
  | [] => [d]
  | x :: xs => if d.cmd.order < x.cmd.order then d :: x :: xs else x :: putDeferred d xs

/-- Let a command wait. -/
def State.defer (s : State) (d : Deferred) : State := s.updHost fun h => { h with deferred := putDeferred d h.deferred }

/-- Take a command out of the waiting ones. -/
def State.undefer (s : State) (d : Deferred) : State := s.updHost fun h => { h with deferred := h.deferred.erase d }

/-- Check a command, and let it wait, refuse it without a side effect, or give it its effect (R139, R140). -/
def State.settle (s : State) (d : Deferred) : State :=
  match s.rule d with
  | .wait u r => u.defer { d with reason := r }
  | .refuse st v => s.finish d.cmd.org d.cmd.entry d.cmd.alloc st v []
  | .apply u => u

/-- A command whose wait is for other commands alone is checked again after each of them. -/
def WaitReason.follows (r : WaitReason) : Bool :=
  match r with
  | .order | .spindle | .reverse => true
  | .power | .mount | .bringup | .clipOpen | .overlap => false

/-- Check some waiting commands again, in fetch order. -/
def State.recheck (s : State) (p : Deferred → Bool) : State :=
  (s.host.deferred.filter p).foldl (fun u d => if u.host.deferred.contains d then (u.undefer d).settle d else u) s

/-- Check the commands again that wait for other commands. -/
def State.drain (s : State) : State := s.recheck fun d => d.reason.follows

/-! Starting from a queue. -/

/-- The first command fetched and not started of a call's queue, where it is the one called and may start now (R94, R95,
R523). -/
def State.front (s : State) (c : Call) : Option (Fetched × List Fetched) :=
  match (s.queue c.fn c.q).waiting with
  | [] => none
  | f :: rest =>
    if f.entry == c.entry && s.startable c.fn c.q f then some (f, rest) else none

/-- A command whose scatter list has been read knows its segments (R122, R692). -/
def Fetched.withList (f : Fetched) (c : Call) : Fetched :=
  if f.entry.sgl then { f with entry := { f.entry with segments := callElems c } } else f

/-- Take the front command off its queue. -/
def State.popFront (s : State) (c : Call) (rest : List Fetched) : State :=
  s.updQueue c.fn c.q fun u => { u with waiting := rest }

/-- Start the front command of a queue with an opcode (R94, R139). -/
def State.serve (s : State) (o : Opcode) (c : Call) : State :=
  match s.front c with
  | none => s
  | some (f, rest) =>
    if Opcode.ofCode f.entry.opcode = some o then
      ((s.popFront c rest).settle { cmd := f.withList c, call := c, op := o, reason := .order }).drain
    else s

/-- Start the front command of a queue, whatever its opcode (R139 check 1). -/
def State.serveAny (s : State) (c : Call) : State :=
  match s.front c with
  | none => s
  | some (f, rest) =>
    match Opcode.ofCode f.entry.opcode with
    | some o => s.serve o c
    | none => (s.popFront c rest).finish f.org f.entry f.alloc .invalidOpcode 0 []

/-! The opcode rows. -/

/-- IDENTIFY. -/
def execIdentify (t : Time) (c : Call) (s : State) : Answer := .next ((s.at t).serve .identify c)

/-- GET_PAGE. -/
def execGetPage (t : Time) (c : Call) (s : State) : Answer := .next ((s.at t).serve .getPage c)

/-- GET_PARAM. -/
def execGetParam (t : Time) (c : Call) (s : State) : Answer := .next ((s.at t).serve .getParam c)

/-- SET_PARAM. -/
def execSetParam (t : Time) (c : Call) (s : State) : Answer := .next ((s.at t).serve .setParam c)

/-- KEY_LOAD. -/
def execKeyLoad (t : Time) (c : Call) (s : State) : Answer := .next ((s.at t).serve .keyLoad c)

/-- KEY_PURGE. -/
def execKeyPurge (t : Time) (c : Call) (s : State) : Answer := .next ((s.at t).serve .keyPurge c)

/-- MOUNT. -/
def execMount (t : Time) (c : Call) (s : State) : Answer := .next ((s.at t).serve .mount c)

/-- UNMOUNT. -/
def execUnmount (t : Time) (c : Call) (s : State) : Answer := .next ((s.at t).serve .unmount c)

/-- CLIP_OPEN. -/
def execClipOpen (t : Time) (c : Call) (s : State) : Answer := .next ((s.at t).serve .clipOpen c)

/-- CLIP_CLOSE. -/
def execClipClose (t : Time) (c : Call) (s : State) : Answer := .next ((s.at t).serve .clipClose c)

/-- FRAME_APPEND. -/
def execFrameAppend (t : Time) (c : Call) (s : State) : Answer := .next ((s.at t).serve .frameAppend c)

/-- AUX_APPEND. -/
def execAuxAppend (t : Time) (c : Call) (s : State) : Answer := .next ((s.at t).serve .auxAppend c)

/-- READ. -/
def execRead (t : Time) (c : Call) (s : State) : Answer := .next ((s.at t).serve .read c)

/-- FRAME_READ. -/
def execFrameRead (t : Time) (c : Call) (s : State) : Answer := .next ((s.at t).serve .frameRead c)

/-- META_READ. -/
def execMetaRead (t : Time) (c : Call) (s : State) : Answer := .next ((s.at t).serve .metaRead c)

/-- META_WRITE. -/
def execMetaWrite (t : Time) (c : Call) (s : State) : Answer := .next ((s.at t).serve .metaWrite c)

/-- LOCK_ACQUIRE. -/
def execLockAcquire (t : Time) (c : Call) (s : State) : Answer := .next ((s.at t).serve .lockAcquire c)

/-- LOCK_RELEASE. -/
def execLockRelease (t : Time) (c : Call) (s : State) : Answer := .next ((s.at t).serve .lockRelease c)

/-- LOCK_CLEAR_ABANDONED. -/
def execLockClearAbandoned (t : Time) (c : Call) (s : State) : Answer := .next ((s.at t).serve .lockClearAbandoned c)

/-- POWER_STATE. -/
def execPowerState (t : Time) (c : Call) (s : State) : Answer := .next ((s.at t).serve .powerState c)

/-- SPINDLE. -/
def execSpindle (t : Time) (c : Call) (s : State) : Answer := .next ((s.at t).serve .spindle c)

/-- CALIBRATE. -/
def execCalibrate (t : Time) (c : Call) (s : State) : Answer := .next ((s.at t).serve .calibrate c)

/-- VERIFY_CTL. -/
def execVerifyCtl (t : Time) (c : Call) (s : State) : Answer := .next ((s.at t).serve .verifyCtl c)

/-- FW_STAGE. -/
def execFwStage (t : Time) (c : Call) (s : State) : Answer := .next ((s.at t).serve .fwStage c)

/-- FW_ACTIVATE. -/
def execFwActivate (t : Time) (c : Call) (s : State) : Answer := .next ((s.at t).serve .fwActivate c)

/-- ATTEST. -/
def execAttest (t : Time) (c : Call) (s : State) : Answer := .next ((s.at t).serve .attest c)

/-- JTAG_UNLOCK. -/
def execJtagUnlock (t : Time) (c : Call) (s : State) : Answer := .next ((s.at t).serve .jtagUnlock c)

/-- The entry is refused at check 1 of R139: no opcode of the table, or one outside the recovery subset. -/
def State.opcodeUndefined (s : State) (e : Entry) : Bool :=
  match Opcode.ofCode e.opcode with
  | none => true
  | some o => s.quill.recovery && !Opcode.inRecovery o

/-- UNDEFINED_OPCODE (R139). -/
def execUndefinedOpcode (t : Time) (c : Call) (s : State) : Answer :=
  let s1 := s.at t
  .next (if s1.opcodeUndefined c.entry then s1.serveAny c else s1)

/-- FENCE_COMMAND_START (R95). -/
def execFenceCommandStart (t : Time) (c : Call) (s : State) : Answer :=
  let s1 := s.at t
  .next (if c.entry.fence then s1.serveAny c else s1)

/-! A failed data read (R153, R691). -/

/-- A running FRAME_APPEND fails: it ends with its status, the FRAME_APPENDs of the clip that started later end with
FRAME_OUT_OF_ORDER, their slots are freed, and its number is the next expected again (R152, R153, log entry 36). -/
def State.failAppend (s : State) (r : Running) (st : Status) (v : DWord) : State :=
  let clip := parm r.entry 0
  let n := (parm r.entry 1).toNat
  let later := s.host.running.filter fun x => x.op == .frameAppend && parm x.entry 0 == clip && decide (n < (parm x.entry 1).toNat)
  let s1 := (s.loseFrames fun f => f.clip == clip && decide (n ≤ f.number)).updRcd fun d => { d with
    clip := d.clip.map fun k => if k.prof.clip == clip then { k with nextFrame := min k.nextFrame n } else k }
  let s2 := s1.endRunning { r with alloc := .none } st v []
  (later.foldl (fun u x => u.endRunning { x with alloc := .none } .frameOutOfOrder (BitVec.ofNat 64 n) []) s2).publish

/-- The running FRAME_APPEND that a call names. -/
def State.appendOf (s : State) (c : Call) : Option Running :=
  s.host.running.find? fun r =>
    r.op == .frameAppend && r.org.fn == c.fn && r.org.q == c.q && { r.entry with segments := [] } == c.entry

/-- DMA_READ_ERROR (R153, R691): of a FRAME_APPEND that runs, or of the next command of a queue. -/
def execDmaReadError (t : Time) (c : Call) (s : State) : Answer :=
  let s1 := s.at t
  .next (match s1.appendOf c, c.dataErr with
    | some r, some a => (s1.failAppend r .dmaError a).drain
    | some _, none => s1
    | none, _ => if c.dataErr.isSome || c.listErr.isSome then s1.serveAny c else s1)

/-! Commands that resume. -/

/-- Check a waiting command again, by its queue and identifier. -/
def State.resumeOne (s : State) (fn : FnId) (q : QId) (cid : BitVec 16) (why : WaitReason) : State :=
  match s.host.deferred.find? fun d => d.cmd.org.fn == fn && d.cmd.org.q == q && d.cmd.entry.cid == cid && d.reason == why with
  | none => s
  | some d => ((s.undefer d).settle d).drain

/-- OVERLAP_READ_RESUME (R97). -/
def execOverlapReadResume (t : Time) (fn : FnId) (q : QId) (cid : BitVec 16) (s : State) : Answer :=
  .next ((s.at t).resumeOne fn q cid .overlap)

/-- MOUNT_WAIT_RELEASE (R142): no MOUNT or UNMOUNT runs any more. -/
def execMountWaitRelease (t : Time) (s : State) : Answer :=
  let s1 := s.at t
  .next (if s1.runs [.mount, .unmount] then s1 else (s1.recheck fun d => d.reason == .mount).drain)

/-- BRINGUP_DEFERRED_START (R545). -/
def execBringupDeferredStart (t : Time) (fn : FnId) (q : QId) (cid : BitVec 16) (s : State) : Answer :=
  .next ((s.at t).resumeOne fn q cid .bringup)

/-- MEDIA_COMMAND_RUN_START (R146). -/
def execMediaCommandRunStart (t : Time) (fn : FnId) (q : QId) (cid : BitVec 16) (s : State) : Answer :=
  .next ((s.at t).resumeOne fn q cid .power)

/-- CLIP_OPEN_DEFERRED_START (R420, R449). -/
def execClipOpenDeferredStart (t : Time) (fn : FnId) (q : QId) (cid : BitVec 16) (s : State) : Answer :=
  .next ((s.at t).resumeOne fn q cid .clipOpen)

/-- LOCK_WAIT_TIMEOUT (R99): waiting acquires whose time is over leave the waiters with LOCK_BUSY. -/
def execLockWaitTimeout (t : Time) (lock : LockId) (s : State) : Answer :=
  let s1 := s.at t
  let late := fun w : LockWaiter => decide (w.deadline ≤ s1.now)
  let gone := (s1.lock lock).waiters.filter late
  let s2 := s1.updLock lock fun k => { k with waiters := k.waiters.filter fun w => !late w }
  .next (gone.foldl (fun u w =>
    u.complete w.org { opcode := w.opcode, cid := w.cid } .lockBusy ((u.lock lock).word.setWidth 64) []) s2)

/-! The service port (R621, R622). -/

/-- A COMMAND frame runs its entry as a command of F3 fetched at its arrival (R622). -/
def State.uartCommand (s : State) (payload : List Byte) (scan : MountScan) (mapAddr : BitVec 31) : State :=
  let e := entryOf (payload.take 64)
  let org : Origin := { fn := 3, q := 0, uart := true, order := s.host.fetchOrder }
  let a := (s.allotSpace 3 e false).getD (.none, s)
  let s1 := a.2.updHost fun h => { h with fetchOrder := h.fetchOrder + 1 }
  let s2 := s1.updVole fun v => { v with uartBusy := true, uartPartial := false }
  let c : Call := { fn := 3, q := 0, entry := e, data := payload.drop 64, scan := scan, mapAddr := mapAddr }
  let f : Fetched := { org := org, entry := e, alloc := a.1 }
  match Opcode.ofCode e.opcode with
  | none => s2.finish org e a.1 .invalidOpcode 0 []
  | some o => (s2.settle { cmd := f, call := c, op := o, reason := .order }).drain

/-- UART_COMMAND (R621, R622): a frame that arrives while a request is outstanding gets a NAK. -/
def execUartCommand (t : Time) (payload : List Byte) (scan : MountScan) (mapAddr : BitVec 31) (s : State) : Answer :=
  let s1 := s.at t
  .next (if !s1.uartServed || s1.host.fetchStopped then s1
    else if s1.vole.uartBusy then s1.uartAnswer 0xFF []
    else s1.uartCommand payload scan mapAddr)

end Sys2Proof.Machine
end

