-- ==== Sys2Proof/Machine/Spindle.lean ====
section
/-! DEFINITION. The spindle: starts, the back-EMF check, speed changes, stops, trips, lock-out, coasting and wedge lock
(11_spindle_sled_moves R403 to R422, R436 to R438, R706). -/

namespace Sys2Proof

/-- The two times to trip of each of V1 to V6, summed, in one run of V1 to V6 and V6 to V1; a pulse that reaches T_TEST_MAX
counts as it (R405). -/
def vectorSums (tMax : Nat) (run : List Nat) : List Nat :=
  let p := fun i => min tMax (run.getD i tMax)
  (List.range 6).map fun k => p k + p (11 - k)

/-- The first place of the smallest value but for one place. -/
def smallestBut (skip : Option Nat) (v : List Nat) : Nat :=
  let better := fun (best : Option Nat) (i : Nat) =>
    if some i = skip then best
    else match best with
      | none => some i
      | some b => if v.getD i 0 < v.getD b 0 then some i else best
  ((List.range v.length).foldl better none).getD 0

/-- The rotor position that one run shows, in half steps: 2k for Vk, the odd place between two adjacent vectors; none
where the run is ambiguous (R405). -/
def vectorOf (sums : List Nat) : Option Nat :=
  let i := smallestBut none sums
  let j := smallestBut (some i) sums
  let a := sums.getD i 0
  let b := sums.getD j 0
  if 3 * a ≤ 100 * (b - a) then some (2 * (i + 1))
  else if (i + 1) % 6 = j then some (2 * (i + 1) + 1)
  else if (j + 1) % 6 = i then some (2 * (j + 1) + 1)
  else none

/-- The position that up to three runs show; V1 after the third ambiguous run (R405). -/
def foundVector (tMax : Nat) (runs : List (List Nat)) : Nat :=
  (((runs.take 3).map fun r => vectorOf (vectorSums tMax r)).findSome? id).getD 2

/-- How long the forced step `n` of a start lasts in ns: the first 20 ms, each later one 0.85 times the one before (Table 11.2
step 4). -/
def forcedStepNs (n : Nat) : Nat := 20000000 * 85 ^ n / 100 ^ n

/-- The vector of the first forced step: two vectors ahead in the direction of rotation (Table 11.2 step 3). -/
def forcedFrom (found : Nat) (reverse : Bool) : Nat := (found - 2 + (if reverse then 8 else 4)) % 12 + 2

/-- The outcomes of the back-EMF constant check (Table 11.4, R411). -/
inductive KeCheck where
  | pass
  | low
  | high
  | fault
  | unset
deriving DecidableEq, Repr

/-- Judge KE_MEAS against KE_NOM (Table 11.4, R411). -/
def keCheck (meas nom : Nat) : KeCheck :=
  let d : Int := 100 * ((meas : Int) - nom)
  if nom = 0 then .unset
  else if -10 * (nom : Int) ≤ d ∧ d ≤ 10 * nom then .pass
  else if -25 * (nom : Int) ≤ d ∧ d < 0 then .low
  else if 0 < d ∧ d ≤ 15 * nom then .high
  else .fault

/-- The log record of the check, where it has one (Table 17.4). -/
def KeCheck.code (k : KeCheck) : Option (BitVec 16) :=
  match k with
  | .pass => none
  | .low => some 0x0503
  | .high => some 0x0504
  | .fault => some 0x0505
  | .unset => some 0x0506

end Sys2Proof

namespace Sys2Proof.Machine

/-- SPINDLE commands that run towards a speed complete (Table 4.12, log entry 12). -/
def State.spindleDone (s : State) (rpm : Nat) : State := s.endAll (fun r => r.op == .spindle && r.target == rpm) .success 0

/-- Lock-out, after which the commands that wait for the spindle are checked again (R418). -/
def State.lockOutAll (s : State) : State := s.lockOut.drain

/-- The unit may drive the gates for a start: the motor-control release is set, the spindle driver has power and its island
lock, step 5 of Table 15.1 has finished, and no lock-out holds (R47, R418, R469, R514, R537, R686). -/
def State.mayStart (s : State) : Bool :=
  s.quill.motorRelease && s.pwr.domains.getLsbD 16 && !s.pwr.pllLost.contains .afe && (s.calUnit 5 .a 0).status.finished && !s.spin.lockout

/-- The rotor runs under slot 8 towards the target (Table 11.2 steps 5 to 7). -/
def State.runUp (s : State) (rpm : Nat) : State :=
  let s1 := s.updSpin fun p => { p with
    state := 1, gates := .commutating, gatesAt := s.now, tripPeriods := [], starts := p.starts + 1, attempts := 0
    startDue := false, retryDue := false, restartDue := false, thenStart := none, rpm := rpm }
  (s1.reEnable 8).setSpeedRef s1.spin.target

/-- The check between 2,000 and 3,000 rpm (R410, R411). -/
def State.checkKe (s : State) (meas : Nat) : State :=
  let nom := s.spin.params.keNom
  let s1 := s.updSpin fun p => { p with keMeas := meas }
  let s2 := match (keCheck meas nom).code with
    | some c => s1.log c [arg meas, arg nom]
    | none => s1
  if keCheck meas nom = .fault then (s2.updSlot 8 LoopSlot.disable).lockOutAll else s2

/-- A start that has not found twelve zero crossings in 48 forced steps: it is retried after 1 s, three attempts in all
(R436). -/
def State.startFailed (s : State) : State :=
  let n := s.spin.attempts + 1
  if n < 3 then
    s.updSpin fun p => { p with state := 1, gates := .off, gatesAt := s.now, attempts := n, startDue := false
                                restartDue := false, retryDue := true }
  else ((s.updSpin fun p => { p with state := 0, rpm := 0 }).log 0x0508 [arg n]).lockOutAll

/-- A start from rest (Table 11.2). -/
def State.startFromRest (s : State) (g : StartSense) : State :=
  let k := foundVector s.spin.params.tTestMax g.runs
  let s1 := s.updSpin fun p => { p with foundVector := k, firstVector := forcedFrom k p.reverse }
  if g.synced then (s1.runUp 3000).checkKe g.keMeas else s1.startFailed

/-- Rotation against the commanded direction is braked first, and the start follows (R406). -/
def State.brakeFirst (s : State) (rpm : Nat) : State :=
  let want := (s.spin.target, s.spin.reverse)
  ((s.updSpin fun p => { p with state := if p.state = 0 then 6 else p.state }).brakeSpindle).updSpin fun p =>
    { p with thenStart := some want, reverse := !want.2, rpm := rpm }

/-- A start or a restart: step 1 of Table 11.2 decides between catching the rotor, braking it first, and a start from rest
(R404, R406). The check of R410 needs the passage from 2,000 to 3,000 rpm. -/
def State.startSpindle (s : State) (g : StartSense) : State :=
  match g.turning with
  | none => s.startFromRest g
  | some (forward, rpm) =>
    if forward == s.spin.reverse then s.brakeFirst rpm
    else if rpm ≤ 2000 then (s.runUp 3000).checkKe g.keMeas
    else s.runUp (max 3000 rpm)

/-- SPINDLE_START (R404 to R411). -/
def execSpindleStart (t : Time) (sense : StartSense) (s : State) : Answer :=
  let s1 := s.at t
  .next (if s1.spin.startDue && s1.mayStart && (s1.spin.state == 0 || s1.spin.state == 6) then
      (s1.updSpin fun p => { p with attempts := 0 }).startSpindle sense
    else s1)

/-- SPINDLE_START_RETRY (R436). -/
def execSpindleStartRetry (t : Time) (sense : StartSense) (s : State) : Answer :=
  let s1 := s.at t
  .next (if s1.spin.retryDue && s1.mayStart && decide (s1.spin.gatesAt + Config.ms 1000 ≤ s1.now) then
      s1.startSpindle sense
    else s1)

/-- SPINDLE_RESTART (R437): the one restart after a slot 8 trip or a stall; the second one has entered lock-out. -/
def execSpindleRestart (t : Time) (sense : StartSense) (s : State) : Answer :=
  let s1 := s.at t
  .next (if s1.spin.restartDue && s1.mayStart then (s1.updSpin fun p => { p with attempts := 0 }).startSpindle sense else s1)

/-- SPEED_TARGET_REACHED (R396, R404 step 9, R414): slot 8 measures the target within 1 %. -/
def execSpeedTargetReached (t : Time) (s : State) : Answer :=
  let s1 := s.at t
  let p := s1.spin
  .next (if p.gates = .commutating ∧ (p.state = 1 ∨ p.state = 2) then
      let s2 := (s1.updSpin fun q => { q with state := if q.target = 10800 ∧ !q.reverse then 3 else 4, rpm := q.target }).retune p.target
      ((s2.spindleDone p.target).followBringup).drain
    else s1)

/-! The comparator, stalls (R412, R413). -/

/-- The PWM period of a moment, counted from time 0. -/
def State.pwmPeriod (s : State) : Nat := s.now * s.spin.params.fPwm / 1000000

/-- The periods of a 100 ms window. -/
def windowPeriods (fPwm : Nat) : Nat := 100 * fPwm

/-- The high-side gates are held off: the present PWM period holds a trip (R412). -/
def State.highSideOff (s : State) : Bool := s.spin.tripPeriods.head? == some s.pwmPeriod

/-- COMPARATOR_TRIP (R412): outside BLANK, every high-side gate goes off until the next PWM period; the periods that hold a
trip are counted (R413). -/
def execComparatorTrip (t : Time) (blanked : Bool) (s : State) : Answer :=
  let s1 := s.at t
  let n := s1.pwmPeriod
  .next (if blanked || s1.spin.gates == .off || s1.spin.gates == .lowSide || s1.highSideOff then s1
    else s1.updSpin fun p =>
      { p with tripPeriods := n :: p.tripPeriods.filter fun k => decide (n < k + windowPeriods p.params.fPwm) })

/-- Trips have come in more than 75 % of the periods of the last 100 ms (R413). -/
def State.stalled (s : State) : Bool :=
  let w := windowPeriods s.spin.params.fPwm
  let n := s.pwmPeriod
  decide (3 * w < 4 * (s.spin.tripPeriods.filter fun k => decide (n < k + w)).length)

/-- SPINDLE_STALL (R413): gates off, slot 8's ENABLE cleared, and the restart or the lock-out of R437. -/
def execSpindleStall (t : Time) (rpm : Nat) (s : State) : Answer :=
  let s1 := s.at t
  .next (if s1.stalled && s1.spin.gates == .commutating then
      let s2 := (s1.updSpin fun p => { p with stalls := p.stalls + 1, rpm := rpm }).log 0x0507 [arg rpm]
      ((s2.updSlot 8 LoopSlot.disable).spindleDrop).drain
    else s1)

/-! Stops (R415, R438, R706). -/

/-- SPINDLE_STOP (R415): a stop of the firmware's own, of a rotor that turns and is not braked yet, while no SPINDLE
command runs (log entry 40). -/
def execSpindleStop (t : Time) (s : State) : Answer :=
  let s1 := s.at t
  .next (if s1.spin.state == 0 || s1.spin.state == 5 || s1.runs [.spindle] then s1 else s1.brakeSpindle.checkGuarantee)

/-- BRAKE_BELOW_THRESHOLD (R415): the back-EMF shows less than 300 rpm, 299 at most. -/
def execBrakeBelowThreshold (t : Time) (s : State) : Answer :=
  let s1 := s.at t
  .next (if s1.spin.gates = .braking then
      s1.updSpin fun p => { p with gates := .lowSide, gatesAt := s1.now, rpm := min p.rpm 299, tripPeriods := [] }
    else s1)

/-- The rotor rests: stops complete, and a start that waited for rest is due (R406, R415, R416, R538, R706). -/
def State.rest (s : State) : State :=
  let s1 := s.updSpin fun p => { p with state := 0, gates := .off, rpm := 0, wedgeLock := false }
  let s2 := s1.updSpin fun p => match p.thenStart with
    | some (rpm, rev) => { p with startDue := true, target := rpm, reverse := rev, thenStart := none }
    | none => p
  ((s2.spindleDone 0).autoStart).drain

/-- BRAKE_HOLD_END (R415): 1 s of low-side braking is over. -/
def execBrakeHoldEnd (t : Time) (s : State) : Answer :=
  let s1 := s.at t
  .next (if s1.spin.gates = .lowSide ∧ s1.spin.gatesAt + Config.ms 1000 ≤ s1.now then s1.rest else s1)

/-- SPINDLE_BRAKE_TIMEOUT (R438): after 10 s of braking the rotor still turns at 300 rpm or more; it coasts. -/
def execSpindleBrakeTimeout (t : Time) (rpm : Nat) (s : State) : Answer :=
  let s1 := s.at t
  .next (if s1.spin.gates = .braking ∧ s1.spin.gatesAt + Config.ms 10000 ≤ s1.now ∧ 300 ≤ rpm then
      (s1.gatesOff.updSpin fun p => { p with rpm := rpm }).log 0x0509 [arg rpm]
    else s1)

/-- COAST_STOPPED (R706): no zero crossing for 100 ms. -/
def execCoastStopped (t : Time) (s : State) : Answer :=
  let s1 := s.at t
  .next (if s1.spin.state = 6 ∧ s1.spin.gatesAt + Config.ms 100 ≤ s1.now then s1.rest else s1)

/-! Wedge lock (R408, R409). -/

/-- WEDGE_LOCK_GAINED (R409): COMM_OFFSET is learned once after each mount. -/
def execWedgeLockGained (t : Time) (offset : Int) (s : State) : Answer :=
  let s1 := s.at t
  .next (if s1.spin.gates = .commutating ∧ (s1.hdA.decoding || s1.hdB.decoding) = true ∧ s1.spin.wedgeLock = false then
      s1.updSpin fun p => { p with wedgeLock := true, commOffset := some (p.commOffset.getD offset) }
    else s1)

/-- WEDGE_LOCK_LOST (R409): neither head decodes wedges. -/
def execWedgeLockLost (t : Time) (s : State) : Answer :=
  let s1 := s.at t
  .next (if !s1.hdA.decoding && !s1.hdB.decoding then s1.updSpin fun p => { p with wedgeLock := false } else s1)

end Sys2Proof.Machine
end

