-- ==== Sys2Proof/Machine/Dispatch.lean ====
section
/-! DEFINITION. One arm per command: each calls its own meaning. -/

namespace Sys2Proof.Machine

def exec (i : Instr) (s : State) : Host.Outcome State Fault Refusal :=
  match i with
  | .sqTailDoorbell t fn q value => Sys2Proof.Machine.execSqTailDoorbell t fn q value s
  | .cqHeadDoorbell t fn q value => Sys2Proof.Machine.execCqHeadDoorbell t fn q value s
  | .queueEnable t fn q ctrl => Sys2Proof.Machine.execQueueEnable t fn q ctrl s
  | .queueDelete t fn q ctrl => Sys2Proof.Machine.execQueueDelete t fn q ctrl s
  | .queueDeletionComplete t fn q => Sys2Proof.Machine.execQueueDeletionComplete t fn q s
  | .restart t fn q ctrl => Sys2Proof.Machine.execRestart t fn q ctrl s
  | .commandFetch t entries => Sys2Proof.Machine.execCommandFetch t entries s
  | .fetchReadError t fn q addr => Sys2Proof.Machine.execFetchReadError t fn q addr s
  | .dmaReadError t c => Sys2Proof.Machine.execDmaReadError t c s
  | .coalesceTimerExpiry t fn q => Sys2Proof.Machine.execCoalesceTimerExpiry t fn q s
  | .inboundBudgetWindow t => Sys2Proof.Machine.execInboundBudgetWindow t s
  | .aspmL1Entry t => Sys2Proof.Machine.execAspmL1Entry t s
  | .configRequestNotReady t fn req => Sys2Proof.Machine.execConfigRequestNotReady t fn req s
  | .functionLevelReset t fn => Sys2Proof.Machine.execFunctionLevelReset t fn s
  | .linkDown t => Sys2Proof.Machine.execLinkDown t s
  | .hotReset t => Sys2Proof.Machine.execHotReset t s
  | .linkDisabled t => Sys2Proof.Machine.execLinkDisabled t s
  | .functionsReady t rate width => Sys2Proof.Machine.execFunctionsReady t rate width s
  | .perstNAssertion t lowNs => Sys2Proof.Machine.execPerstNAssertion t lowNs s
  | .quillBoot t katOk octalOk testEn => Sys2Proof.Machine.execQuillBoot t katOk octalOk testEn s
  | .identify t c => Sys2Proof.Machine.execIdentify t c s
  | .getPage t c => Sys2Proof.Machine.execGetPage t c s
  | .getParam t c => Sys2Proof.Machine.execGetParam t c s
  | .setParam t c => Sys2Proof.Machine.execSetParam t c s
  | .keyLoad t c => Sys2Proof.Machine.execKeyLoad t c s
  | .keyPurge t c => Sys2Proof.Machine.execKeyPurge t c s
  | .mount t c => Sys2Proof.Machine.execMount t c s
  | .unmount t c => Sys2Proof.Machine.execUnmount t c s
  | .clipOpen t c => Sys2Proof.Machine.execClipOpen t c s
  | .clipClose t c => Sys2Proof.Machine.execClipClose t c s
  | .frameAppend t c => Sys2Proof.Machine.execFrameAppend t c s
  | .auxAppend t c => Sys2Proof.Machine.execAuxAppend t c s
  | .read t c => Sys2Proof.Machine.execRead t c s
  | .frameRead t c => Sys2Proof.Machine.execFrameRead t c s
  | .metaRead t c => Sys2Proof.Machine.execMetaRead t c s
  | .metaWrite t c => Sys2Proof.Machine.execMetaWrite t c s
  | .lockAcquire t c => Sys2Proof.Machine.execLockAcquire t c s
  | .lockRelease t c => Sys2Proof.Machine.execLockRelease t c s
  | .lockClearAbandoned t c => Sys2Proof.Machine.execLockClearAbandoned t c s
  | .powerState t c => Sys2Proof.Machine.execPowerState t c s
  | .spindle t c => Sys2Proof.Machine.execSpindle t c s
  | .calibrate t c => Sys2Proof.Machine.execCalibrate t c s
  | .verifyCtl t c => Sys2Proof.Machine.execVerifyCtl t c s
  | .fwStage t c => Sys2Proof.Machine.execFwStage t c s
  | .fwActivate t c => Sys2Proof.Machine.execFwActivate t c s
  | .attest t c => Sys2Proof.Machine.execAttest t c s
  | .jtagUnlock t c => Sys2Proof.Machine.execJtagUnlock t c s
  | .undefinedOpcode t c => Sys2Proof.Machine.execUndefinedOpcode t c s
  | .fenceCommandStart t c => Sys2Proof.Machine.execFenceCommandStart t c s
  | .overlapReadResume t fn q cid => Sys2Proof.Machine.execOverlapReadResume t fn q cid s
  | .mountWaitRelease t => Sys2Proof.Machine.execMountWaitRelease t s
  | .bringupDeferredStart t fn q cid => Sys2Proof.Machine.execBringupDeferredStart t fn q cid s
  | .mediaCommandRunStart t fn q cid => Sys2Proof.Machine.execMediaCommandRunStart t fn q cid s
  | .clipOpenDeferredStart t fn q cid => Sys2Proof.Machine.execClipOpenDeferredStart t fn q cid s
  | .lockWaitTimeout t lock => Sys2Proof.Machine.execLockWaitTimeout t lock s
  | .heldFetchResume t fn q => Sys2Proof.Machine.execHeldFetchResume t fn q s
  | .fullWaitExpiry t fn q => Sys2Proof.Machine.execFullWaitExpiry t fn q s
  | .rateDeficitRepeat t => Sys2Proof.Machine.execRateDeficitRepeat t s
  | .frameDmaComplete t clip number data => Sys2Proof.Machine.execFrameDmaComplete t clip number data s
  | .clipCloseRecordQueued t => Sys2Proof.Machine.execClipCloseRecordQueued t s
  | .frameEncode t discards => Sys2Proof.Machine.execFrameEncode t discards s
  | .systemSectorWrite t => Sys2Proof.Machine.execSystemSectorWrite t s
  | .slotBegin t h => Sys2Proof.Machine.execSlotBegin t h s
  | .verifyVerdict t h b m => Sys2Proof.Machine.execVerifyVerdict t h b m s
  | .streamDry t => Sys2Proof.Machine.execStreamDry t s
  | .recordingResume t => Sys2Proof.Machine.execRecordingResume t s
  | .layerTurnaround t okA okB gains => Sys2Proof.Machine.execLayerTurnaround t okA okB gains s
  | .turnaroundTimeout t => Sys2Proof.Machine.execTurnaroundTimeout t s
  | .afeOffsetTrim t h b dev => Sys2Proof.Machine.execAfeOffsetTrim t h b dev s
  | .readPowerTrim t h b mean => Sys2Proof.Machine.execReadPowerTrim t h b mean s
  | .laserReferenceTrim t h b slope => Sys2Proof.Machine.execLaserReferenceTrim t h b slope s
  | .sramParityError t site byte parity => Sys2Proof.Machine.execSramParityError t site byte parity s
  | .parityAccumulatorError t h member byte parity => Sys2Proof.Machine.execParityAccumulatorError t h member byte parity s
  | .codewordDetected t h b psa index speculative => Sys2Proof.Machine.execCodewordDetected t h b psa index speculative s
  | .ldpcDecodeDone t h b index iterations result header => Sys2Proof.Machine.execLdpcDecodeDone t h b index iterations result header s
  | .sectorTagCheck t psa => Sys2Proof.Machine.execSectorTagCheck t psa s
  | .erasureDecode t seq => Sys2Proof.Machine.execErasureDecode t seq s
  | .retryLadderStep t h recovered => Sys2Proof.Machine.execRetryLadderStep t h recovered s
  | .defectSpanOpen t h b psa field bit => Sys2Proof.Machine.execDefectSpanOpen t h b psa field bit s
  | .scurryRead t h sectors => Sys2Proof.Machine.execScurryRead t h sectors s
  | .speculativePrefocus t h => Sys2Proof.Machine.execSpeculativePrefocus t h s
  | .slotSample t slot sample => Sys2Proof.Machine.execSlotSample t slot sample s
  | .loopSlotEnable t slot on => Sys2Proof.Machine.execLoopSlotEnable t slot on s
  | .loopApply t slot => Sys2Proof.Machine.execLoopApply t slot s
  | .loopParityError t slot => Sys2Proof.Machine.execLoopParityError t slot s
  | .slot9FsyncTimeout t => Sys2Proof.Machine.execSlot9FsyncTimeout t s
  | .stoppedSourceReport t h => Sys2Proof.Machine.execStoppedSourceReport t h s
  | .spindleStart t sense => Sys2Proof.Machine.execSpindleStart t sense s
  | .spindleStartRetry t sense => Sys2Proof.Machine.execSpindleStartRetry t sense s
  | .speedTargetReached t => Sys2Proof.Machine.execSpeedTargetReached t s
  | .comparatorTrip t blanked => Sys2Proof.Machine.execComparatorTrip t blanked s
  | .spindleStall t rpm => Sys2Proof.Machine.execSpindleStall t rpm s
  | .spindleRestart t sense => Sys2Proof.Machine.execSpindleRestart t sense s
  | .spindleStop t => Sys2Proof.Machine.execSpindleStop t s
  | .brakeBelowThreshold t => Sys2Proof.Machine.execBrakeBelowThreshold t s
  | .brakeHoldEnd t => Sys2Proof.Machine.execBrakeHoldEnd t s
  | .spindleBrakeTimeout t rpm => Sys2Proof.Machine.execSpindleBrakeTimeout t rpm s
  | .coastStopped t => Sys2Proof.Machine.execCoastStopped t s
  | .wedgeLockGained t offset => Sys2Proof.Machine.execWedgeLockGained t offset s
  | .wedgeLockLost t => Sys2Proof.Machine.execWedgeLockLost t s
  | .sledSeek t h radiusNm => Sys2Proof.Machine.execSledSeek t h radiusNm s
  | .seekSettled t h band => Sys2Proof.Machine.execSeekSettled t h band s
  | .sledSourceSwitch t h decoding => Sys2Proof.Machine.execSledSourceSwitch t h decoding s
  | .focusCapture t h attempts => Sys2Proof.Machine.execFocusCapture t h attempts s
  | .layerJump t h target => Sys2Proof.Machine.execLayerJump t h target s
  | .trackJump t h outward => Sys2Proof.Machine.execTrackJump t h outward s
  | .park t h => Sys2Proof.Machine.execPark t h s
  | .emergencyPark t => Sys2Proof.Machine.execEmergencyPark t s
  | .doorSenseRise t => Sys2Proof.Machine.execDoorSenseRise t s
  | .laserArmDeassert t => Sys2Proof.Machine.execLaserArmDeassert t s
  | .quillReleaseWithdraw t => Sys2Proof.Machine.execQuillReleaseWithdraw t s
  | .doorDeclaredOpen t => Sys2Proof.Machine.execDoorDeclaredOpen t s
  | .laserReenable t h => Sys2Proof.Machine.execLaserReenable t h s
  | .headRecapture t h attempts => Sys2Proof.Machine.execHeadRecapture t h attempts s
  | .ldcfgFrame t h b level code echo1 echo2 => Sys2Proof.Machine.execLdcfgFrame t h b level code echo1 echo2 s
  | .magPresentChange t present => Sys2Proof.Machine.execMagPresentChange t present s
  | .ddr5ReadCorrected t burst beats newer => Sys2Proof.Machine.execDdr5ReadCorrected t burst beats newer s
  | .ddr5Uncorrectable t burst region => Sys2Proof.Machine.execDdr5Uncorrectable t burst region s
  | .scrubRead t beats newer => Sys2Proof.Machine.execScrubRead t beats newer s
  | .memorySelfTest t test => Sys2Proof.Machine.execMemorySelfTest t test s
  | .cacheFillComplete t => Sys2Proof.Machine.execCacheFillComplete t s
  | .evictionWriteback t => Sys2Proof.Machine.execEvictionWriteback t s
  | .cacheParityError t site byte parity => Sys2Proof.Machine.execCacheParityError t site byte parity s
  | .burrowReadback t key mask valid => Sys2Proof.Machine.execBurrowReadback t key mask valid s
  | .burrowProbe t rows => Sys2Proof.Machine.execBurrowProbe t rows s
  | .burrowDelete t row => Sys2Proof.Machine.execBurrowDelete t row s
  | .burrowConsolidate t => Sys2Proof.Machine.execBurrowConsolidate t s
  | .burrowResultParity t row => Sys2Proof.Machine.execBurrowResultParity t row s
  | .paceWindow t counts => Sys2Proof.Machine.execPaceWindow t counts s
  | .paceTick t => Sys2Proof.Machine.execPaceTick t s
  | .peerResetAssert t bridge side items planned => Sys2Proof.Machine.execPeerResetAssert t bridge side items planned s
  | .peerResetDeassert t bridge side => Sys2Proof.Machine.execPeerResetDeassert t bridge side s
  | .bridgeOverflow t bridge => Sys2Proof.Machine.execBridgeOverflow t bridge s
  | .pllLockLoss t island => Sys2Proof.Machine.execPllLockLoss t island s
  | .pllRelock t island => Sys2Proof.Machine.execPllRelock t island s
  | .powerTransitionStart t => Sys2Proof.Machine.execPowerTransitionStart t s
  | .powerTransitionStepEnd t => Sys2Proof.Machine.execPowerTransitionStepEnd t s
  | .torporHibernateExit t retentionOk katOk octalOk test rate width => Sys2Proof.Machine.execTorporHibernateExit t retentionOk katOk octalOk test rate width s
  | .wakePinEdge t second lowNs => Sys2Proof.Machine.execWakePinEdge t second lowNs s
  | .psreqEdge t lowNs pssel => Sys2Proof.Machine.execPsreqEdge t lowNs pssel s
  | .wakeReplay t => Sys2Proof.Machine.execWakeReplay t s
  | .wakeRearm t fn value => Sys2Proof.Machine.execWakeRearm t fn value s
  | .pgoodTimeout t => Sys2Proof.Machine.execPgoodTimeout t s
  | .railEnableRetry t => Sys2Proof.Machine.execRailEnableRetry t s
  | .pgoodFall t => Sys2Proof.Machine.execPgoodFall t s
  | .vcoreLowDetect t => Sys2Proof.Machine.execVcoreLowDetect t s
  | .powerFail t lowNs => Sys2Proof.Machine.execPowerFail t lowNs s
  | .pwrfailDeassert t => Sys2Proof.Machine.execPwrfailDeassert t s
  | .deferredPerst t => Sys2Proof.Machine.execDeferredPerst t s
  | .activationReset t => Sys2Proof.Machine.execActivationReset t s
  | .quillFault t cls => Sys2Proof.Machine.execQuillFault t cls s
  | .rbgFail t => Sys2Proof.Machine.execRbgFail t s
  | .voleHeartbeatTimeout t => Sys2Proof.Machine.execVoleHeartbeatTimeout t s
  | .groupMStart t => Sys2Proof.Machine.execGroupMStart t s
  | .calStepStart t step h b => Sys2Proof.Machine.execCalStepStart t step h b s
  | .calStepEnd t step h b m => Sys2Proof.Machine.execCalStepEnd t step h b m s
  | .calPreconditionLost t step h b mask => Sys2Proof.Machine.execCalPreconditionLost t step h b mask s
  | .excursionStart t => Sys2Proof.Machine.execExcursionStart t s
  | .excursionEnd t => Sys2Proof.Machine.execExcursionEnd t s
  | .mediaScrubRead t stripes => Sys2Proof.Machine.execMediaScrubRead t stripes s
  | .fsyncEdge t highNs angle => Sys2Proof.Machine.execFsyncEdge t highNs angle s
  | .ltcFrameDecoded t address bitRate => Sys2Proof.Machine.execLtcFrameDecoded t address bitRate s
  | .timecodeLoss t => Sys2Proof.Machine.execTimecodeLoss t s
  | .eventPendingClear t fn value => Sys2Proof.Machine.execEventPendingClear t fn value s
  | .commitPointRead32 t fn => Sys2Proof.Machine.execCommitPointRead32 t fn s
  | .deficitRead32 t fn => Sys2Proof.Machine.execDeficitRead32 t fn s
  | .capturedFieldRead t fn offset => Sys2Proof.Machine.execCapturedFieldRead t fn offset s
  | .registerWrite t space offset value => Sys2Proof.Machine.execRegisterWrite t space offset value s
  | .sensorSample t reading => Sys2Proof.Machine.execSensorSample t reading s
  | .logProgram t ok => Sys2Proof.Machine.execLogProgram t ok s
  | .logWindowEnd t => Sys2Proof.Machine.execLogWindowEnd t s
  | .i2cPointerWrite t data => Sys2Proof.Machine.execI2cPointerWrite t data s
  | .logPtrWrite t value => Sys2Proof.Machine.execLogPtrWrite t value s
  | .logRecordReadEnd t => Sys2Proof.Machine.execLogRecordReadEnd t s
  | .i2cTransactionTimeout t address => Sys2Proof.Machine.execI2cTransactionTimeout t address s
  | .i2cAddressRetry t address ok => Sys2Proof.Machine.execI2cAddressRetry t address ok s
  | .uartCommand t payload scan mapAddr => Sys2Proof.Machine.execUartCommand t payload scan mapAddr s
  | .uartBaud t payload => Sys2Proof.Machine.execUartBaud t payload s
  | .lkProgram t payload readBackOk => Sys2Proof.Machine.execLkProgram t payload readBackOk s
  | .archiveWrite t payload => Sys2Proof.Machine.execArchiveWrite t payload s
  | .archiveCommit t flashOk => Sys2Proof.Machine.execArchiveCommit t flashOk s
  | .logRead t payload => Sys2Proof.Machine.execLogRead t payload s
  | .uartBadFrame t crcFailed => Sys2Proof.Machine.execUartBadFrame t crcFailed s
  | .uartFrameGap t => Sys2Proof.Machine.execUartFrameGap t s
  | .vaonPowerUp t => Sys2Proof.Machine.execVaonPowerUp t s
  | .dataFieldRead t h b f => Sys2Proof.Machine.execDataFieldRead t h b f s
  | .defectSpanClose t h b field bit => Sys2Proof.Machine.execDefectSpanClose t h b field bit s
  | .jtagTapAccess t tap => Sys2Proof.Machine.execJtagTapAccess t tap s

end Sys2Proof.Machine
end

