-- ==== Sys2Proof/Safety.lean ====
section
/-! DEFINITION. What a safe run is, and the terms that statements about the T36 use: the invariant of the spindle, and a
command that has passed the checks of R139. -/

namespace Sys2Proof

/-- `n` steps from `s` neither fault nor are refused. -/
def SafeFor (n : Nat) (s : Machine.State) : Prop :=
  ∃ s', core.run n s = .next s'

end Sys2Proof

namespace Sys2Proof.Machine

/-- R418 and Table 4.7 of the spindle: in lock-out the gates are off and the SPINDLE field reads 0 or 6; it never exceeds
6. -/
def SpinOk (p : Spindle) : Prop := (p.lockout = true → p.gates = .off ∧ (p.state = 0 ∨ p.state = 6)) ∧ p.state ≤ 6

/-- The state in which a command that has left its queue is checked: `rest` still waits there. -/
abbrev popped (s : State) (t : Time) (c : Call) (rest : List Fetched) : State := (s.at t).popFront c rest

/-- A command taken from its queue, as the checks see it. -/
abbrev taken (o : Opcode) (c : Call) (f : Fetched) : Deferred := { cmd := f, call := c, op := o, reason := .order }

/-- At time `t` the call's queue starts command `f` of opcode `o`, its scatter list known (R94, R95, R122). -/
abbrev Starts (s : State) (t : Time) (o : Opcode) (c : Call) (f : Fetched) (rest : List Fetched) : Prop :=
  ((s.at t).front c).map (fun x => (x.1.withList c, x.2)) = some (f, rest) ∧ Opcode.ofCode f.entry.opcode = some o

/-- The command starts and passes checks 1 to 6 of R139 with nothing to wait for: what remains are its opcode's own
checks and its effect. -/
abbrev Accepted (s : State) (t : Time) (o : Opcode) (c : Call) (f : Fetched) (rest : List Fetched) : Prop :=
  Starts s t o c f rest ∧ (popped s t c rest).firstChecks (taken o c f) = none ∧
    (popped s t c rest).waitsFor (taken o c f) = none ∧ (popped s t c rest).midChecks (taken o c f) = none

/-- A command's completion with its RESULT or Detail and the data it sends, the space it took at fetch given back, and the
commands that waited for others checked again. -/
abbrev completed (s : State) (f : Fetched) (st : Status) (v : DWord) (data : List Byte) : State :=
  (s.finish f.org f.entry f.alloc st v data).drain

end Sys2Proof.Machine
end

