-- ==== Sys2Proof/Certificates/Slice0/Obligations.lean ====
section
/-! DEFINITION. The statements about the T36 for the provers: one definition for each entry of OBLIGATIONS.json. -/

open Sys2Proof Sys2Proof.Machine

/-- A step runs the command at the front of the queue, and idles on an empty queue (Table 3.6 and the fetch of
commands (03_host_link_tenants)). For every command c and state s whose queue is c followed by rest, one step of
s is exec of c on s with the queue's rest. On an empty queue the step answers s itself. The queue and the idling
are the model's own (log entries 1 and 3). -/
def Obligations.StepRunsFrontCommand : Prop :=
  (∀ (c : Instr) (rest : List Instr) (s : State), s.pending = c :: rest → step s = exec c { s with pending := rest }) ∧
    (∀ s : State, s.pending = [] → step s = .next s)

/-- Whatever command runs, the step takes exactly that one command from the queue and adds none (Table 3.6 and the
fetch of commands (03_host_link_tenants)). For every state whose queue is c followed by rest, if the step
answers a next state u then the queue of u is rest: no command of the T36 drops, adds or reorders waiting
commands. Every command completes: for every state and every command that names a register within its window
(R76, R394), a DDR5 burst within the first 18 GiB (R162) and, after an unlock, no test instruction beyond BYPASS
and IDCODE (R529), exec answers a next state, whose queue is that of the state. The queue is the model's own (log
entry 1). -/
def Obligations.StepTakesOneCommand : Prop :=
  (∀ (c : Instr) (rest : List Instr) (s u : State), s.pending = c :: rest → step s = .next u → u.pending = rest) ∧
    ∀ (c : Instr) (s : State),
      (∀ t fn off v, c = .registerWrite t (.bar0 fn) off v → off < 0x10000) →
      (∀ t fn off v, c = .registerWrite t (.bar2 fn) off v → off < 0x4000) →
      (∀ t off v, c = .registerWrite t .loopEngine off v → off < 0x40C) →
      (∀ t n beats newer, c = .ddr5ReadCorrected t n beats newer → n < 150994944) →
      (∀ t n region, c = .ddr5Uncorrectable t n region → n < 150994944) →
      (∀ t n, c = .jtagTapAccess t (.other n) → s.quill.unlock = 0) →
      ∃ u : State, exec c s = .next u ∧ u.pending = s.pending

/-- Every step keeps the lock-out rule: in lock-out no gate is driven and the SPINDLE field is 0 or 6 (R418, R706,
Table 4.7 (04_command_packets)). For every state s in which the invariant holds (in spindle lock-out the gates
are off and the SPINDLE field of the state code reads 0 stopped or 6 coasting, and the field never exceeds 6),
if a step of s answers a next state then the invariant holds there, whatever the command is. -/
def Obligations.LockoutInvariantKept : Prop :=
  ∀ s u : State, SpinOk s.spin → step s = .next u → SpinOk u.spin

/-- The lock-out rule holds right after reset (R418, Table 4.7 (04_command_packets)). The spindle of State.reset
satisfies the invariant that every step keeps. -/
def Obligations.LockoutInvariantAtReset : Prop :=
  SpinOk State.reset.spin

/-- Reset leaves the values that the spec states (R77, R78, R91, R95a, R159, R700, Table 3.2, Table 3.4, Table 3.6,
Table 4.11). Right after reset the arbitration weights are 8, 4, 2 and 1, every function reset epoch is 0, every
queue pair is disabled and inactive with COAL_COUNT 1, the error policy is HALT on F0 and CONTINUE on F1 to F3,
no lock is held or abandoned, the device parameters are 60, 500 and 2,048, the VCORE request is 750 mV, PERST_N
is asserted, and no event is pending or enabled. -/
def Obligations.ResetLeavesStatedValues : Prop :=
  State.reset.host.arb.w0 = 8 ∧ State.reset.host.arb.w1 = 4 ∧ State.reset.host.arb.w2 = 2 ∧ State.reset.host.arb.w3 = 1 ∧
    (∀ fn : FnId, (State.reset.func fn).epoch = 0 ∧ (State.reset.func fn).eventPending = 0 ∧
      (State.reset.func fn).eventEnable = 0) ∧
    (∀ (fn : FnId) (q : QId), (State.reset.queue fn q).enable = false ∧ (State.reset.queue fn q).active = false ∧
      (State.reset.queue fn q).coalCount = 1 ∧ ((State.reset.queue fn q).policyHalt = true ↔ fn = 0)) ∧
    (∀ l : LockId, (State.reset.lock l).held = false ∧ (State.reset.lock l).abandoned = false) ∧
    State.reset.params = { rateWarnPct := 60, fullWaitMs := 500, reviewMarginMib := 2048 } ∧
    State.reset.pace.vcore = 750 ∧ State.reset.pins.perst = true

/-- The 64 bytes of a submission entry and its fields determine each other (R121, R4, Table 4.1
(04_command_packets)). For every entry, with every field at every value, the encoder gives 64 bytes and decoding
them gives the entry back; for every 64 bytes, encoding the decoded entry gives the same bytes. No bit of Table
4.1 is dropped in either direction. -/
def Obligations.SubmissionEntryRoundTrip : Prop :=
  (∀ e : Entry, (entryBytes e).length = 64 ∧ entryOf (entryBytes e) = e) ∧
    (∀ bs : List Byte, bs.length = 64 → entryBytes (entryOf bs) = bs)

/-- The fields of a physical sector address are read back as they were put in (R30, Table 1.7 (01_hendun_medium)).
For every head, layer below 12, zone below 24, group below 512, member below 3, beam, and stripe position below
12, the address of Table 1.7 gives back each of the seven fields, and its two reserved bits read 0. -/
def Obligations.SectorAddressRoundTrip : Prop :=
  ∀ (h : Head) (layer zone group member k : Nat) (b : Beam), layer < 12 → zone < 24 → group < 512 → member < 3 → k < 12 →
    let p := psaOf h layer zone group member b k
    psaHead p = h ∧ psaLayer p = layer ∧ psaZone p = zone ∧ psaGroup p = group ∧ psaMember p = member ∧ psaBeam p = b ∧
      psaPos p = k ∧ p.toNat % 4 = 0

/-- A cache line's set and tag and its byte address in the volume map determine each other (R215
(06_volume_map_burrow)). For every set below 512 and tag below 32,768 the address of the line with that set and
tag hashes back to the set and the tag; for every volume map address below 2^31 the line of its set and tag lies
at the address of the 128-byte line that holds it. -/
def Obligations.CacheLinesAndAddresses : Prop :=
  (∀ l : CacheLine, l.set < 512 → l.tag < 32768 → cacheSet l.addr = l.set ∧ cacheTag l.addr = l.tag ∧ l.addr % 128 = 0) ∧
    (∀ (a way : Nat) (d : Bool) (bs : List Byte), a < 2147483648 →
      CacheLine.addr { set := cacheSet a, way := way, tag := cacheTag a, dirty := d, data := bs } = lineOf a)

/-- Doorbell writes move the index they name, and the writes that R85 names are ignored with DBERR set (R85). On a
ready function, a submission tail doorbell write with an index below the ring depth to an enabled queue pair
sets its tail to bits [9:0] of the value, and changes nothing else but L1, which it leaves; a completion head
doorbell write to an active queue pair with no completion held, enabled or being deleted, sets its head. With an
index of the depth or more, or on a disabled (tail) or inactive (head) queue pair, the only change is DBERR of
that queue pair and a DOORBELL_ERROR event (0x0102) naming function, queue and index. -/
def Obligations.DoorbellsMoveTheirIndex : Prop :=
  ∀ (t : Time) (fn : FnId) (q : QId) (v : Word) (s : State), (s.func fn).ready = true →
    let idx := v.toNat % 1024
    let p := s.queue fn q
    let ignored := ((s.at t).updQueue fn q fun u => { u with dberr := true }).log 0x0102
      [BitVec.ofNat 32 fn.val, BitVec.ofNat 32 q.val, BitVec.ofNat 32 idx]
    let awake := (s.at t).updHost fun h => { h with link := { h.link with l1 := false } }
    (p.enable = true → idx < 2 ^ p.depthLog2.toNat →
      exec (.sqTailDoorbell t fn q v) s = .next (awake.updQueue fn q fun u => { u with sqTail := idx })) ∧
    (p.active = true → idx < 2 ^ p.depthLog2.toNat → p.held = [] →
      exec (.cqHeadDoorbell t fn q v) s = .next (awake.updQueue fn q fun u => { u with cqHead := idx })) ∧
    (p.enable = false ∨ 2 ^ p.depthLog2.toNat ≤ idx → exec (.sqTailDoorbell t fn q v) s = .next ignored) ∧
    (p.active = false ∨ 2 ^ p.depthLog2.toNat ≤ idx → exec (.cqHeadDoorbell t fn q v) s = .next ignored)

/-- After a completion head doorbell write either no completion is held or the ring is full (R86, R87). On a ready
function and an active queue pair with an index below the ring depth, a completion head doorbell write leaves
the queue pair with its head at the index and either no held completion or no free slot, a slot being free where
CQTAIL + 1 modulo the depth differs from the head. -/
def Obligations.HeadDoorbellWritesHeldCompletions : Prop :=
  ∀ (t : Time) (fn : FnId) (q : QId) (v : Word) (s : State), (s.func fn).ready = true → (s.queue fn q).active = true →
    v.toNat % 1024 < 2 ^ (s.queue fn q).depthLog2.toNat →
    ∃ u, exec (.cqHeadDoorbell t fn q v) s = .next u ∧ (u.queue fn q).cqHead = v.toNat % 1024 ∧
      ((u.queue fn q).held = [] ∨
        ((u.queue fn q).cqTail + 1) % 2 ^ (u.queue fn q).depthLog2.toNat = (u.queue fn q).cqHead)

/-- Enabling a queue pair starts it from index 0, a bad enable sets CFGERR, and RESTART clears HALTED (R78, R79,
R81, R111). On a ready function: a control word with ENABLE 1 written to a disabled, inactive queue pair with
DEPTH_LOG2 4 to 10 sets ENABLE, ACTIVE, the fields of Table 3.4, SQHEAD, CQTAIL and both doorbells to 0 and the
phase bit to 1. With DEPTH_LOG2 outside 4 to 10, or with ACTIVE still 1, ENABLE stays 0 and CFGERR is set. A
control word with RESTART 1 and ENABLE 1 written to an enabled queue pair clears HALTED, and leaves SQHEAD, the
doorbells and the waiting commands. Each of these changes that queue pair only. -/
def Obligations.QueueEnableAndRestart : Prop :=
  ∀ (t : Time) (fn : FnId) (q : QId) (w : Word) (s : State), (s.func fn).ready = true → w.getLsbD 31 = true →
    let p := s.queue fn q
    let depth := w.toNat / 16777216 % 16
    (p.enable = false → p.active = false → w.getLsbD 30 = false → 4 ≤ depth → depth ≤ 10 →
      ∃ n : QueuePair, exec (.queueEnable t fn q w) s = .next ((s.at t).updQueue fn q fun _ => n) ∧
        n.enable = true ∧ n.active = true ∧ n.depthLog2.toNat = depth ∧ n.vector.toNat = w.toNat / 65536 % 64 ∧
        n.coalCount.toNat = w.toNat / 256 % 256 ∧ n.coalTime.toNat = w.toNat % 256 ∧ n.policyHalt = w.getLsbD 29 ∧
        n.sqHead = 0 ∧ n.cqTail = 0 ∧ n.sqTail = 0 ∧ n.cqHead = 0 ∧ n.phase = true ∧ n.sqBase = p.sqBase ∧
        n.cqBase = p.cqBase) ∧
    (p.enable = false → w.getLsbD 30 = false → p.active = true ∨ depth < 4 ∨ 10 < depth →
      ∃ n : QueuePair, exec (.queueEnable t fn q w) s = .next ((s.at t).updQueue fn q fun _ => n) ∧
        n.enable = false ∧ n.cfgerr = true ∧ n.active = p.active ∧ n.sqHead = p.sqHead ∧ n.waiting = p.waiting ∧
        n.held = p.held) ∧
    (p.enable = true → w.getLsbD 30 = true →
      ∃ n : QueuePair, exec (.restart t fn q w) s = .next ((s.at t).updQueue fn q fun _ => n) ∧
        n.halted = false ∧ n.enable = true ∧ n.active = p.active ∧ n.sqHead = p.sqHead ∧ n.sqTail = p.sqTail ∧
        n.cqHead = p.cqHead ∧ n.cqTail = p.cqTail ∧ n.waiting = p.waiting ∧ n.held = p.held)

/-- Deleting a queue pair frees every lock it holds with ABANDONED set and drops what has not started (R112, R113).
On a ready function, a control word with ENABLE 0 written to an enabled queue pair clears ENABLE, leaves no
fetched command waiting there and no acquire of it among the waiters of any lock, and every lock it held is now
ABANDONED and no longer held by it. QUEUE_DELETION_COMPLETE then clears ACTIVE once no command of the queue runs
and no completion is held. -/
def Obligations.QueueDeletionFreesItsLocks : Prop :=
  ∀ (t : Time) (fn : FnId) (q : QId) (w : Word) (s : State),
    ((s.func fn).ready = true → w.getLsbD 31 = false → (s.queue fn q).enable = true →
      ∃ u, exec (.queueDelete t fn q w) s = .next u ∧ (u.queue fn q).enable = false ∧ (u.queue fn q).waiting = [] ∧
        u.waitersOf fn q = [] ∧
        ∀ l : LockId, (s.lock l).held = true → (s.lock l).ownerFn = fn → (s.lock l).ownerQ = q →
          (u.lock l).abandoned = true ∧
            ¬((u.lock l).held = true ∧ (u.lock l).ownerFn = fn ∧ (u.lock l).ownerQ = q)) ∧
    ((s.queue fn q).active = true → (s.queue fn q).enable = false → s.queueBusy fn q = false → (s.queue fn q).held = [] →
      ∃ u, exec (.queueDeletionComplete t fn q) s = .next u ∧ (u.queue fn q).active = false ∧
        (u.queue fn q).sqHead = (s.queue fn q).sqHead)

/-- A fetch takes the next entry in ring order or holds it, and a failed read of an entry halts the queue (R84, R88,
R90, R691). Where arbitration picks a queue that may fetch, COMMAND_FETCH with one entry appends that entry to
the queue's commands waiting to start and moves SQHEAD by one, with the space it needs taken; where a resource
rule refuses the space the entry is held at fetch instead. A read of an entry that ends in error sets HALTED and
FETCHERR whatever the policy, leaves SQHEAD, and enters the error log with Opcode 0, Halted 1, Status DMA_ERROR,
identifier 0 and the faulting address. -/
def Obligations.FetchMovesEntriesOffTheRing : Prop :=
  ∀ (t : Time) (bytes : List Byte) (fn : FnId) (q : QId) (a : Arbiter) (s : State),
    let s1 := (s.at t).updHost fun h => { h with arb := a }
    ((s.at t).arbitrate = some ((fn, q), a) → s1.fetchable fn q = true →
      (∀ al s2, s1.allotSpace fn (entryOf bytes) false = some (al, s2) →
        exec (.commandFetch t [bytes]) s = .next (s2.pushFetched fn q (entryOf bytes) al)) ∧
      (s1.allotSpace fn (entryOf bytes) false = none →
        exec (.commandFetch t [bytes]) s = .next (s1.holdFetch fn q (entryOf bytes)))) ∧
    (∀ addr : DWord, (s.at t).fetchable fn q = true →
      ∃ u e, exec (.fetchReadError t fn q addr) s = .next u ∧
        u = (s.at t).updFunc fn (fun _ => u.func fn) ∧
        (u.queue fn q).halted = true ∧ (u.queue fn q).fetcherr = true ∧ (u.queue fn q).sqHead = (s.queue fn q).sqHead ∧
        (u.queue fn q).waiting = (s.queue fn q).waiting ∧
        (u.func fn).errLog = (e :: (s.func fn).errLog).take 64 ∧ e.queue = BitVec.ofNat 16 q.val ∧
        e.sqIndex = BitVec.ofNat 16 (s.queue fn q).sqHead ∧ e.opcode = 0 ∧ e.halted = true ∧ e.status = 0x0013 ∧
        e.cid = 0 ∧ e.detail = addr)

/-- While an urgent queue of F0 has an entry to fetch, arbitration picks an urgent queue of F0 (R90). For every
state in which some queue of F0 with URGENT set may fetch an entry, arbitration picks a queue of F0 with URGENT
set that may fetch, and it leaves the weights and every turn of the round robins among functions as they were. -/
def Obligations.UrgentQueuesAreServedFirst : Prop :=
  ∀ (s : State) (q : QId), (s.queue 0 q).urgent = true → s.fetchable 0 q = true →
    ∃ (r : QId) (a : Arbiter), s.arbitrate = some ((0, r), a) ∧ (s.queue 0 r).urgent = true ∧ s.fetchable 0 r = true ∧
      a = { s.host.arb with nextUrgent := a.nextUrgent } ∧ a.nextUrgent = (r.val + 1) % 32

/-- A held entry is fetched when its space comes free, or completes with BUFFER_FULL_RETRY when its wait is over
(R87, R175, R177, R178, R179). For a queue pair that holds an entry at fetch: with fetch not stopped, the queue
not halted and fewer than 64 completions held, HELD_FETCH_RESUME fetches the entry where its space can now be taken and takes the queue off the
order of held entries. A FRAME_APPEND held for the FULL_WAIT_MS in force when it was first held completes with
BUFFER_FULL_RETRY. RATE_DEFICIT_REPEAT loads the deficit registers again where 100 ms have passed since the last
raise and the occupancy is still at or above the warning level. -/
def Obligations.HeldEntriesResumeOrTimeOut : Prop :=
  ∀ (t : Time) (fn : FnId) (q : QId) (h : HeldFetch) (s : State),
    ((s.queue fn q).heldFetch = some h → (s.queue fn q).halted = false → s.host.fetchStopped = false →
      (s.queue fn q).held.length < 64 → ∀ al s2, (s.at t).allotSpace fn h.entry (s.host.heldOrder.head? == some (fn, q)) = some (al, s2) →
        exec (.heldFetchResume t fn q) s = .next ((s2.pushFetched fn q h.entry al).dropHeldOrder fn q)) ∧
    ((s.queue fn q).heldFetch = some h → (s.queue fn q).halted = false → h.entry.opcode = 0x12 →
      h.since + h.waitMs * 1000000 ≤ max s.now t →
      exec (.fullWaitExpiry t fn q) s = .next ((s.at t).bufferFull fn q h.entry)) ∧
    (∀ l : Time, s.rcd.drey.lastRaise = some l → s.warnLevel ≤ s.occupancy → l + 100000000 ≤ max s.now t →
      exec (.rateDeficitRepeat t) s = .next (s.at t).rateDeficit)

/-- The coalescing timer signals, the budget window refills F0's budget, and an idle link may enter L1 (R71, R78,
R92). When COAL_TIME units of 10 µs have passed since the first unsignalled completion, COALESCE_TIMER_EXPIRY
sends the queue's message and clears the count. The first row in a window of 1 ms sets F0's inbound budget to
1.25 × D × 1 ms bytes while a clip is open and to 0 otherwise, whatever the last window left, and a further row in
the same window changes nothing; the windows count from power-up (the model's choice, log entry 163). With the link up and nothing busy for 100 µs, ASPM_L1_ENTRY puts
the link into L1. Nothing else changes. -/
def Obligations.HostLinkTimers : Prop :=
  ∀ (t : Time) (fn : FnId) (q : QId) (s : State),
    let n := max s.now t / 1000000
    (∀ f : Time, (s.queue fn q).firstUnsignalled = some f → (s.queue fn q).coalTime ≠ 0 →
      f + (s.queue fn q).coalTime.toNat * 10000 ≤ max s.now t →
      exec (.coalesceTimerExpiry t fn q) s = .next (((s.at t).updQueue fn q fun u =>
        { u with unsignalled := 0, firstUnsignalled := none }).emit (.msix fn (s.queue fn q).vector))) ∧
    (∀ c : OpenClip, s.rcd.clip = some c → s.host.arb.window < n →
      exec (.inboundBudgetWindow t) s = .next ((s.at t).updHost fun h =>
        { h with arb := { h.arb with budget := c.prof.rate * 125 / 100000, window := n, beyond := 0 } })) ∧
    (s.rcd.clip = none → s.host.arb.window < n → exec (.inboundBudgetWindow t) s = .next ((s.at t).updHost fun h =>
      { h with arb := { h.arb with budget := 0, window := n, beyond := 0 } })) ∧
    (n ≤ s.host.arb.window → exec (.inboundBudgetWindow t) s = .next (s.at t)) ∧
    (s.host.link.up = true → s.linkBusy = false → s.host.link.idleSince + 100000 ≤ max s.now t →
      exec (.aspmL1Entry t) s = .next ((s.at t).updHost fun h => { h with link := { h.link with l1 := true } }))

/-- A function that is not ready retries configuration requests, reads all ones and discards writes (R69, R119, R526,
R698, R699, Table 3.1). While a function is not ready, a configuration read or write, or one that would start a
function-level reset, is answered with Retry Status, a BAR read with bytes 0xFF and a BAR write is discarded;
nothing else changes, and a function-level reset is not begun. FUNCTIONS_READY at a rate and width of Table 3.1
makes functions ready: at step 11 of a boot all four (in recovery F3 alone), with the link up and the part in RUN;
after a link-down all four at the rate and width it trained to; with the link up, those whose reset is in progress,
the others staying as they are. -/
def Obligations.FunctionsThatAreNotReadyAnswer : Prop :=
  ∀ (t : Time) (fn : FnId) (s : State),
    ((s.func fn).ready = false →
      exec (.configRequestNotReady t fn .configRead) s = .next ((s.at t).emit (.retryStatus fn)) ∧
      exec (.configRequestNotReady t fn .configWrite) s = .next ((s.at t).emit (.retryStatus fn)) ∧
      exec (.configRequestNotReady t fn .configFlr) s = .next ((s.at t).emit (.retryStatus fn)) ∧
      (∀ n, exec (.configRequestNotReady t fn (.barRead n)) s = .next ((s.at t).emit (.allOnes fn n))) ∧
      exec (.configRequestNotReady t fn .barWrite) s = .next ((s.at t).emit (.discarded fn)) ∧
      exec (.functionLevelReset t fn) s = .next ((s.at t).emit (.retryStatus fn))) ∧
    (∀ rate width : Nat, (rate = 25 ∨ rate = 50 ∨ rate = 80 ∨ rate = 160) → (width = 1 ∨ width = 2 ∨ width = 4 ∨ width = 8) →
      s.quill.stopped = false →
      (s.quill.recovery = false → s.quill.bootStep = 10 → ∃ u, exec (.functionsReady t rate width) s = .next u ∧
        u.quill.bootStep = 11 ∧ u.pwr.state = .run ∧ u.host.link.up = true ∧ u.host.link.rate = rate ∧
        u.host.link.width = width ∧ ∀ g : FnId, (u.func g).ready = true) ∧
      (s.quill.recovery = true → s.quill.bootStep = 5 → ∃ u, exec (.functionsReady t rate width) s = .next u ∧
        u.quill.bootStep = 11 ∧ u.pwr.state = .run ∧ u.host.link.up = true ∧ ∀ g : FnId, (u.func g).ready = (g == 3)) ∧
      (s.quill.recovery = false → s.quill.bootStep = 11 → s.host.link.up = false →
        exec (.functionsReady t rate width) s = .next ((s.at t).updHost fun h => { h with
          funcs := Vector.ofFn fun i => { (h.funcs[i]) with ready := true, inReset := false }
          link := { up := true, rate := rate, width := width, idleSince := max s.now t } })) ∧
      (s.quill.recovery = false → s.quill.bootStep = 11 → s.host.link.up = true →
        ∃ u, exec (.functionsReady t rate width) s = .next u ∧ ∀ g : FnId,
          u.func g = if (s.func g).inReset = true then { (s.func g) with ready := true, inReset := false } else s.func g))

/-- Every function reset adds 1 to the function's reset epoch, and keeps its error log page (R77). A function-level
reset of a ready function adds 1 modulo 65,536 to that function's reset epoch, keeps its error log page and
error sequence number, makes it not ready, and leaves the epoch of every other function. A link-down, a hot reset
and a disabled link with the link up add 1 to the epoch of all four functions and make none ready; a function whose
reset is in progress then is reset once only (R699), so its epoch stays. A link-down or hot reset with the link down
resets nothing. The epoch is 0 at reset, and a power-up sets it to 0. It reads in bits [15:0] of the word at BAR0
offset 0x0010, whose other bits read 0, and a write there changes nothing. -/
def Obligations.FunctionResetCountsItsEpoch : Prop :=
  ∀ (t : Time) (fn : FnId) (s : State),
    ((s.func fn).ready = true → ∃ u, exec (.functionLevelReset t fn) s = .next u ∧
      (u.func fn).epoch = (s.func fn).epoch + 1 ∧ (u.func fn).errLog = (s.func fn).errLog ∧ (u.func fn).ready = false ∧
      (u.func fn).errSeq = (s.func fn).errSeq ∧ ∀ g : FnId, g ≠ fn → (u.func g).epoch = (s.func g).epoch) ∧
    (s.host.link.up = true →
      ∃ u v w, exec (.linkDown t) s = .next u ∧ exec (.hotReset t) s = .next v ∧ exec (.linkDisabled t) s = .next w ∧
        ∀ g : FnId, let n := if (s.func g).inReset = true then (s.func g).epoch else (s.func g).epoch + 1
          ((u.func g).epoch = n ∧ (u.func g).ready = false) ∧ ((v.func g).epoch = n ∧ (v.func g).ready = false) ∧
          ((w.func g).epoch = n ∧ (w.func g).ready = false)) ∧
    (s.host.link.up = false →
      exec (.linkDown t) s = .next (s.at t) ∧ exec (.hotReset t) s = .next (s.at t) ∧
      exec (.linkDisabled t) s = .next ((s.at t).updHost fun h => { h with link := { h.link with disabled := true } })) ∧
    (∀ g : FnId, (State.reset.func g).epoch = 0) ∧
    (∃ u, exec (.vaonPowerUp t) s = .next u ∧ ∀ g : FnId, (u.func g).epoch = 0) ∧
    (s.readBar0 fn 0x10).extractLsb' 0 16 = (s.func fn).epoch ∧ (s.readBar0 fn 0x10).extractLsb' 16 16 = 0 ∧
    ((s.func fn).ready = true → ∀ v : Word, exec (.registerWrite t (.bar0 fn) 0x10 v) s = .next (s.at t))

/-- A reset of the part returns every register to its reset value but Dormouse, OTP, flash and the pins (R116, R491,
R502, R524, R534, R671, R683, R700). A PERST_N low of 100 µs or more in RUN, DOZE or PARK with no power-fail
sequence running asserts the reset: queues, locks, weights, loops, calibration, mount and clip are as
State.reset has them, Quill keeps its OTP fields and flash slots, and Vole its flash. The deferred PERST_N of a
power-fail sequence does the same at its end. An activation whose reset is due, and a Quill fault, do so too,
with every laser release withdrawn. A power-up also starts Dormouse afresh with VCORE at 750 mV. -/
def Obligations.PartResetsKeepWhatLasts : Prop :=
  ∀ (t : Time) (s : State),
    let cleared := fun u : State =>
      u.host.funcs = State.reset.host.funcs ∧ u.host.locks = State.reset.host.locks ∧ u.host.arb = State.reset.host.arb ∧
      u.loop = State.reset.loop ∧ u.cal = State.reset.cal ∧ u.mnt = State.reset.mnt ∧ u.rcd.clip = none ∧
      u.rcd.frames = [] ∧ u.params = State.reset.params ∧ u.quill.seed = s.quill.seed ∧ u.quill.lk = s.quill.lk ∧
      u.quill.slotA = s.quill.slotA ∧ u.quill.slotB = s.quill.slotB ∧ u.quill.floors = s.quill.floors ∧
      u.quill.epoch = s.quill.epoch ∧ u.vole.integrator = s.vole.integrator ∧
      u.pending = s.pending
    (∀ lowNs : Nat, 100000 ≤ lowNs → s.pwr.state ≠ .torpor → s.pwr.state ≠ .hibernate → s.pwr.pfStep = 0 →
      ∃ u, exec (.perstNAssertion t lowNs) s = .next u ∧ cleared u ∧ u.pins.perst = true ∧ u.pwr.storm = s.pwr.storm ∧
        u.vole.sectors = s.vole.sectors ∧ u.vole.bank0 = s.vole.bank0 ∧ u.vole.bank1 = s.vole.bank1) ∧
    (s.pwr.perstDeferred = true → s.pwr.pfStep = 6 →
      ∃ u, exec (.deferredPerst t) s = .next u ∧ cleared u ∧ u.pins.perst = true) ∧
    (s.quill.activating = true → s.host.running = [] →
      ∃ u, exec (.activationReset t) s = .next u ∧ cleared u ∧ u.hdA.release = false ∧ u.hdB.release = false ∧
        u.quill.motorRelease = false) ∧
    (∀ cls : Word, ∃ u, exec (.quillFault t cls) s = .next u ∧ cleared u ∧ u.hdA.release = false ∧ u.hdB.release = false ∧
      (0x0708, [cls]) ∈ u.quill.bootRecord) ∧
    (∃ u, exec (.vaonPowerUp t) s = .next u ∧ cleared u ∧ u.pwr = State.reset.pwr ∧ u.pace.vcore = 750 ∧
      u.vole.dropped = 0 ∧ u.vole.restarts = 0 ∧ u.pins.perst = true)

/-- A boot from mask ROM stops on a failed self-test, enters recovery without a valid slot, and else runs the best
slot (R510, R513, R526, R533, Table 14.4). With PERST_N rising in PARK before a boot: with TEST_EN high or a
known-answer test failed Quill stops at step 1 with no function ready. With the 8D mode failed, or no slot valid
under R509, it enters recovery. With a valid slot it runs the one chosen, with that slot's SEQUENCE as the
running sequence, and every switchable domain is powered. -/
def Obligations.QuillBootsFromMaskRom : Prop :=
  ∀ (t : Time) (kat octal testEn : Bool) (s : State), s.quill.bootStep = 0 → s.pwr.state = .park → s.pwr.running = none →
    let best := (({ s.quill with measures := Vector.replicate 8 (Word.zeros 48) } : QuillState).seedRbg).measureRom
    (testEn = true ∨ kat = false →
      ∃ u, exec (.quillBoot t kat octal testEn) s = .next u ∧ u.quill.stopped = true ∧ u.quill.bootStep = 1 ∧
        u.host = s.host ∧ u.pwr = s.pwr) ∧
    (testEn = false → kat = true → octal = false →
      ∃ u, exec (.quillBoot t kat octal testEn) s = .next u ∧ u.quill.recovery = true ∧ u.quill.running = none ∧
        u.pwr.domains = 0x08004#17) ∧
    (testEn = false → kat = true → octal = true → (best.choose best.candidates).1 = none →
      ∃ u, exec (.quillBoot t kat octal testEn) s = .next u ∧ u.quill.recovery = true ∧ u.quill.running = none ∧
        u.pwr.domains = 0x08024#17) ∧
    (∀ n, testEn = false → kat = true → octal = true → (best.choose best.candidates).1 = some n →
      ∃ u, exec (.quillBoot t kat octal testEn) s = .next u ∧ u.quill.running = some n ∧
        u.quill.sequence = (s.quill.slotOf n).seq ∧ u.quill.bootStep = 9 ∧ u.pwr.domains = 0x1FFFC#17 ∧ u.vole.alive = true)

/-- A command that fails a check completes with the status of the first failing check and has no other effect (R139,
R140 (04_command_packets)). For every opcode row and every command that its queue starts: where one of checks 1
to 3 fails, where the command waits for nothing and one of checks 4 to 6 fails, or where its own checks refuse
it, the next state is that of its completion with that status and Detail, the space it took at fetch given back,
and the commands that wait for others checked again. -/
def Obligations.RefusedCommandOnlyCompletes : Prop :=
  ∀ (t : Time) (o : Opcode) (c : Call) (f : Fetched) (rest : List Fetched) (st : Status) (v : DWord) (s : State),
    Starts s t o c f rest →
    let u := popped s t c rest
    let d := taken o c f
    (u.firstChecks d = some (st, v) ∨
        (u.firstChecks d = none ∧ u.waitsFor d = none ∧ u.midChecks d = some (st, v)) ∨
        (u.firstChecks d = none ∧ u.waitsFor d = none ∧ u.midChecks d = none ∧ u.ownRule d = .refuse st v)) →
    let row : Instr := match o with
      | .identify => .identify t c
      | .getPage => .getPage t c
      | .getParam => .getParam t c
      | .setParam => .setParam t c
      | .keyLoad => .keyLoad t c
      | .keyPurge => .keyPurge t c
      | .mount => .mount t c
      | .unmount => .unmount t c
      | .clipOpen => .clipOpen t c
      | .clipClose => .clipClose t c
      | .frameAppend => .frameAppend t c
      | .auxAppend => .auxAppend t c
      | .read => .read t c
      | .frameRead => .frameRead t c
      | .metaRead => .metaRead t c
      | .metaWrite => .metaWrite t c
      | .lockAcquire => .lockAcquire t c
      | .lockRelease => .lockRelease t c
      | .lockClearAbandoned => .lockClearAbandoned t c
      | .powerState => .powerState t c
      | .spindle => .spindle t c
      | .calibrate => .calibrate t c
      | .verifyCtl => .verifyCtl t c
      | .fwStage => .fwStage t c
      | .fwActivate => .fwActivate t c
      | .attest => .attest t c
      | .jtagUnlock => .jtagUnlock t c
    exec row s = .next (completed u f st v [])

/-- A completion goes into the next slot of its ring with the phase of the pass, or is held where the ring is full
(R81, R87, R124, R135 (04_command_packets)). Posting a completion on an active queue pair: with no completion
held and a free slot, the entry is written at CQTAIL with the phase of the present pass and the commit point,
CQTAIL advances modulo the depth and the phase is inverted when it wraps to 0; otherwise the completion joins
the held ones. The registers of every other queue pair of the function stay. -/
def Obligations.CompletionEntryIsPosted : Prop :=
  ∀ (fn : FnId) (q : QId) (c : Completion) (s : State), (s.queue fn q).active = true →
    let p := s.queue fn q
    let d := 2 ^ p.depthLog2.toNat
    let u := s.post fn q c
    (p.held = [] → (p.cqTail + 1) % d ≠ p.cqHead →
      Sent.completion fn q p.cqTail p.phase c s.mnt.commitClip (BitVec.ofNat 32 s.mnt.commitFrames) ∈ u.host.sent ∧
      (u.queue fn q).cqTail = (p.cqTail + 1) % d ∧
      (u.queue fn q).phase = (if (p.cqTail + 1) % d = 0 then !p.phase else p.phase) ∧ (u.queue fn q).held = []) ∧
    (p.held ≠ [] ∨ (p.cqTail + 1) % d = p.cqHead →
      u = s.updQueue fn q fun x => { x with held := x.held ++ [c] }) ∧
    (∀ r : QId, r ≠ q → u.queue fn r = s.queue fn r)

/-- IDENTIFY, GET_PAGE, GET_PARAM and SET_PARAM return and set what the spec names (R128, R129, R159
(04_command_packets)). An accepted IDENTIFY sends the identify data with RESULT 0. GET_PAGE sends the bytes of
the page from OFFSET on, at most LENGTH of them, and RESULT is their number. GET_PARAM gives the parameter as
RESULT. SET_PARAM stores the value and gives the previous one. After SET_PARAM nothing has changed but that
parameter and what follows the occupancy's new warning level. -/
def Obligations.PagesAndParameters : Prop :=
  ∀ (t : Time) (c : Call) (f : Fetched) (rest : List Fetched) (s : State),
    let u := popped s t c rest
    (Accepted s t .identify c f rest →
      exec (.identify t c) s = .next (completed u f .success 0 (u.identifyData f.org.fn))) ∧
    (Accepted s t .getPage c f rest →
      let bytes := ((u.page ((parm f.entry 0).toNat % 256) f.org.fn).drop (parm f.entry 1).toNat).take f.entry.length.toNat
      exec (.getPage t c) s = .next (completed u f .success (BitVec.ofNat 64 bytes.length) bytes)) ∧
    (Accepted s t .getParam c f rest → ∀ v : Nat,
      ((parm f.entry 0).toNat % 65536 = 1 ∧ v = s.params.rateWarnPct ∨
        (parm f.entry 0).toNat % 65536 = 2 ∧ v = s.params.fullWaitMs ∨
        (parm f.entry 0).toNat % 65536 = 3 ∧ v = s.params.reviewMarginMib) →
      exec (.getParam t c) s = .next (completed u f .success (BitVec.ofNat 64 v) [])) ∧
    (Accepted s t .setParam c f rest → ∀ (v : Nat) (p : Params),
      ((parm f.entry 0).toNat % 65536 = 1 ∧ v = s.params.rateWarnPct ∧
          p = { s.params with rateWarnPct := (parm f.entry 1).toNat } ∨
        (parm f.entry 0).toNat % 65536 = 2 ∧ v = s.params.fullWaitMs ∧
          p = { s.params with fullWaitMs := (parm f.entry 1).toNat } ∨
        (parm f.entry 0).toNat % 65536 = 3 ∧ v = s.params.reviewMarginMib ∧
          p = { s.params with reviewMarginMib := (parm f.entry 1).toNat }) →
      exec (.setParam t c) s = .next (completed ({ u with params := p }).watchOccupancy f .success (BitVec.ofNat 64 v) []))

/-- KEY_LOAD puts the unwrapped key into its slot, and KEY_PURGE empties one slot or all (R279, R280
(07_stripe_codec_crypto)). An accepted KEY_LOAD whose 40 bytes unwrap under the usable LK puts the key into the
slot named and completes with SUCCESS; where they do not unwrap, or LK is not usable, it completes with
KEY_UNWRAP_FAILED and the slot as Detail and changes no slot. An accepted KEY_PURGE with no magazine mounted
empties the slot named, or all 16 with ALL. -/
def Obligations.KeysAreLoadedAndPurged : Prop :=
  ∀ (t : Time) (c : Call) (f : Fetched) (rest : List Fetched) (s : State),
    let u := popped s t c rest
    let slot : Fin 16 := Fin.ofNat 16 ((parm f.entry 0).toNat % 16)
    (Accepted s t .keyLoad c f rest → c.dataErr = none →
      (∀ lk key, s.quill.lkUsable = true → s.quill.lk = some lk → kwUnwrap lk c.payload = some key →
        exec (.keyLoad t c) s = .next (completed
          (u.updQuill fun q => { q with keys := Vec.upd q.keys slot fun _ => some key }) f .success 0 [])) ∧
      (s.quill.lkUsable = false ∨ (∃ lk, s.quill.lk = some lk ∧ kwUnwrap lk c.payload = none) →
        exec (.keyLoad t c) s = .next (completed u f .keyUnwrapFailed (BitVec.ofNat 64 slot.val) []))) ∧
    (Accepted s t .keyPurge c f rest → s.mnt.mode = .none →
      ((parm f.entry 0).getLsbD 31 = false →
        exec (.keyPurge t c) s = .next (completed
          (u.updQuill fun q => { q with keys := Vec.upd q.keys slot fun _ => none }) f .success 0 [])) ∧
      ((parm f.entry 0).getLsbD 31 = true →
        exec (.keyPurge t c) s = .next (completed
          (u.updQuill fun q => { q with keys := Vector.replicate 16 none }) f .success 0 [])))

/-- MOUNT enters the magazine read-only or read-write, and UNMOUNT leaves it (R277, R281, R283, R285, R587
(07_stripe_codec_crypto, 16_modes_coincidences)). An accepted MOUNT with the spindle at record speed, of a
written magazine of format 1 whose media key unwraps: read-only it enters the magazine with the highest session
and completes at once; read-write, with a session number left and a head that can record, it begins the session
one above the highest. An accepted UNMOUNT of a read-only mount leaves the mounted state, erases the media key
and completes; of a read-write mount it begins to unmount, and MAGAZINE reads 6. -/
def Obligations.MountAndUnmount : Prop :=
  ∀ (t : Time) (c : Call) (f : Fetched) (rest : List Fetched) (s : State),
    let u := popped s t c rest
    let ro := (parm f.entry 0).getLsbD 0
    let slot : Fin 16 := Fin.ofNat 16 ((parm f.entry 0).toNat / 16 % 16)
    (∀ band ckek key, Accepted s t .mount c f rest → s.cal.bringup = false → s.spin.state = 3 →
      c.scan.blank = false → c.scan.band = some band → Word.fieldLE band 1 1 = 1 → s.quill.keys[slot] = some ckek →
      mediaKeyOf ckek band = some key →
      let keys := keyBits (keyRecordsOf band)
      let identity := (band.drop 4).take 16
      (ro = true → exec (.mount t c) s =
        .next ((u.mountRO c.scan (f.run .mount) slot.val keys identity key .success).drain)) ∧
      (ro = false → c.scan.highestSession < 0xFFFFFFFF → u.noRoom c.scan = false → exec (.mount t c) s =
        .next ((u.mountRW c.scan (f.run .mount) slot.val keys identity key).drain))) ∧
    (Accepted s t .unmount c f rest → s.mnt.mode = .readOnly →
      exec (.unmount t c) s = .next (((u.startRunning (f.run .unmount)).unmountNow.endRunning (f.run .unmount)
        .success 0 []).drain)) ∧
    (Accepted s t .unmount c f rest → s.mnt.mode = .readWrite →
      exec (.unmount t c) s = .next (((((u.wakeSpindle.startRunning (f.run .unmount)).setMagazine 6).sealIfDue).settleUnmount
        ).drain))

/-- CLIP_OPEN opens a clip, CLIP_CLOSE closes it, FRAME_APPEND starts the next frame, AUX_APPEND queues its data
(R147, R149, R152, R154, R157 (04_command_packets)). For accepted commands: a CLIP_OPEN with a sustainable
profile, the spindle at record speed and VCORE ready opens the clip with that profile and completes. A
CLIP_CLOSE that names the open clip and no next clip closes it with reason 0 and runs until its record has
passed. A FRAME_APPEND of the profile's length that names the open clip and its next number, with capacity and a
slot left, starts that frame in the slot and makes the next number due. An AUX_APPEND to a frame that exists,
with capacity left, adds its AUX record, queues its sectors from the next system sector number on and completes. -/
def Obligations.ClipsOpenAndTakeFrames : Prop :=
  ∀ (t : Time) (c : Call) (f : Fetched) (rest : List Fetched) (s : State), c.dataErr = none →
    let u := popped s t c rest
    let e := f.entry
    (Accepted s t .clipOpen c f rest →
      let p : Profile := { clip := parm e 0, frameBytes := (parm e 1).toNat, rateNum := (parm e 2).toNat
                           rateDen := (parm e 3).toNat % 65536, holdAwake := (parm e 4).getLsbD 0, user := c.payload }
      p.rate ≤ s.guarantee * 1000000 → s.spin.state = 3 → 720 ≤ s.pace.vcore → s.pace.lastStep + 500000 ≤ max s.now t →
      exec (.clipOpen t c) s = .next (completed
        (if p.holdAwake then (u.openClip p).dropDeepPending else u.openClip p) f .success 0 [])) ∧
    (∀ k, Accepted s t .clipClose c f rest → s.rcd.clip = some k → parm e 0 = k.prof.clip → parm e 1 = 0 →
      exec (.clipClose t c) s = .next (((u.closeClip 0).startRunning (f.run .clipClose)).drain)) ∧
    (∀ k slot u1, Accepted s t .frameAppend c f rest → s.rcd.clip = some k → e.length.toNat = k.prof.frameBytes →
      parm e 0 = k.prof.clip → (parm e 1).toNat = k.nextFrame →
      sectorsOf k.prof.frameBytes + s.unencodedSectors + 3 ≤ s.remainingSlots →
      u.slotFor f k.prof.frameBytes = some (slot, u1) →
      ∃ w, exec (.frameAppend t c) s = .next w.drain ∧ w = u1.startFrame f k slot ∧
        w.host.running = u1.host.running ++ [{ (f.run .frameAppend) with alloc := .frame slot }]) ∧
    (Accepted s t .auxAppend c f rest → s.clipKnown (parm e 0) = true →
      (parm e 1).toNat < (s.frameCount (parm e 0)).getD 0 →
      (e.length.toNat + 32767) / 32768 + s.unencodedSectors + 3 ≤ s.remainingSlots →
      ∃ w, exec (.auxAppend t c) s = .next (State.drain (State.finish (State.wakeSpindle w) f.org e .none .success 0 [])) ∧
        w.mnt.nextSys = s.mnt.nextSys + (e.length.toNat + 32767) / 32768 ∧
        w.vmap.auxData = (s.mnt.nextSys, c.payload) :: s.vmap.auxData ∧
        w.rcd.auxQueue.length = s.rcd.auxQueue.length + (e.length.toNat + 32767) / 32768 ∧
        auxRecord (parm e 0) (parm e 1) ((parm e 2).toNat % 256) e.length.toNat s.mnt.nextSys ∈ w.vmap.records)

/-- READ, FRAME_READ and META_READ return the data named, META_WRITE stores its record, and a refused LSN ends a
READ (R63, R75, R156, R207, R226, R705). For accepted commands: a READ of LSNs the function may read and that
are assigned, with the medium not needed or no lock-out and bring-up over, starts its read of those LSNs; one
with an LSN the function may not read completes with ACCESS_DENIED and the first such LSN. A FRAME_READ of a
frame still in its slot returns its bytes from the offset on. A META_READ of a record that exists returns the
record's bytes from OFFSET on, at most LENGTH of them; where the medium does not give all of an AUX record's data,
it ends with the status of the sector that failed. A META_WRITE of type 7 adds the record that its data make
and completes. -/
def Obligations.ReadsDeliverTheirData : Prop :=
  ∀ (t : Time) (c : Call) (f : Fetched) (rest : List Fetched) (s : State),
    let u := popped s t c rest
    let e := f.entry
    (Accepted s t .read c f rest →
      let lsn := (parm e 0).toNat
      let n := (parm e 1).toNat % 16384
      let r : Running := { (f.run .read) with lsns := (List.range n).map (lsn + ·) }
      (∀ l, s.firstRefused f.org.fn lsn n = some l →
        exec (.read t c) s = .next (completed u f .accessDenied (BitVec.ofNat 64 l) [])) ∧
      (s.firstRefused f.org.fn lsn n = none → lsn + n ≤ s.mnt.nextLsn → s.needsMedium r.lsns = false →
        exec (.read t c) s = .next ((u.startRead r).drain)) ∧
      (s.firstRefused f.org.fn lsn n = none → lsn + n ≤ s.mnt.nextLsn → s.needsMedium r.lsns = true →
        s.spin.lockout = false → s.cal.bringup = false →
        exec (.read t c) s = .next ((u.wakeSpindle.startRead r).drain))) ∧
    (∀ fr bytes, Accepted s t .frameRead c f rest → u.appendAhead f.order (parm e 0) (parm e 1) = false →
      s.frameBytesOf (parm e 0) = some bytes → (parm e 2).toNat + e.length.toNat ≤ bytes →
      s.findFrame (parm e 0) (parm e 1).toNat = some fr → fr.phase ≠ .dma → s.slotRefused f fr = none →
      exec (.frameRead t c) s = .next (completed u f .success (BitVec.ofNat 64 (fr.firstLsn.getD 0xFFFFFFFF))
        ((fr.data.drop (parm e 2).toNat).take e.length.toNat))) ∧
    (∀ r, Accepted s t .metaRead c f rest →
      let ty := BitVec.ofNat 8 ((parm e 0).toNat % 256)
      u.recordAhead f ty (parm e 1) (parm e 2) = false → s.findRecord ty (parm e 1) (parm e 2) = some r →
      (parm e 3).toNat < r.bytes.length + (if r.rtype = 0x0A then Word.fieldLE r.bytes 16 4 else 0) →
      let d := ((s.recordData c r).1.drop (parm e 3).toNat).take e.length.toNat
      let v := u.cacheAccess c.mapAddr.toNat r false
      ((s.recordData c r).2 = none ∨ d.length = e.length.toNat →
        exec (.metaRead t c) s = .next (completed v f .success (BitVec.ofNat 64 d.length) d)) ∧
      ∀ st lsn psa, (s.recordData c r).2 = some (st, lsn, psa) → d.length < e.length.toNat →
        exec (.metaRead t c) s = .next (completed (if st = .authTagMismatch then v.log 0x0401 [arg lsn, arg psa] else v) f st
          (BitVec.ofNat 64 lsn) (d ++ (List.range (e.length.toNat - d.length)).map (Config.undefinedByte lsn)))) ∧
    (Accepted s t .metaWrite c f rest → c.dataErr = none → (parm e 0).toNat % 256 = 7 →
      let r := mkRecord 7 (parm e 1).toNat (parm e 2).toNat (c.payload.drop 4)
      exec (.metaWrite t c) s = .next (completed
        (((u.addRecord r).cacheAccess c.mapAddr.toNat r true).wakeSpindle) f .success 0 []))

/-- A free lock is granted, a held one is waited for or busy, its holder releases it or clears ABANDONED (R98, R99,
R100, R102). For accepted commands: LOCK_ACQUIRE on a free lock makes the issuing queue the owner, with the
function's epoch, and completes with SUCCESS, or with ACQUIRED_ABANDONED and the lock status word where
ABANDONED is set. On a lock that another queue holds it completes with LOCK_BUSY at timeout 0 or with 256
acquires waiting; else it joins the waiters with its deadline, in fetch order: last, where every other waiter was
fetched before it. LOCK_RELEASE by the owner, with no waiter,
frees the lock and leaves ABANDONED; LOCK_CLEAR_ABANDONED by the owner clears ABANDONED and leaves the lock
held. No other lock changes. -/
def Obligations.LocksAreTakenAndFreed : Prop :=
  ∀ (t : Time) (c : Call) (f : Fetched) (rest : List Fetched) (s : State),
    let u := popped s t c rest
    let e := f.entry
    let l : LockId := Fin.ofNat 64 ((parm e 0).toNat % 64)
    let k := s.lock l
    let ms := (parm e 1).toNat % 16384
    let mine : Lock → Lock := fun x =>
      { x with held := true, ownerFn := f.org.fn, ownerQ := f.org.q, ownerEpoch := (s.func f.org.fn).epoch }
    (Accepted s t .lockAcquire c f rest →
      (k.held = false → k.abandoned = false → exec (.lockAcquire t c) s =
        .next (((u.updLock l mine).complete f.org { opcode := e.opcode, cid := e.cid } .success 0 []).drain)) ∧
      (k.held = false → k.abandoned = true → exec (.lockAcquire t c) s =
        .next (((u.updLock l mine).complete f.org { opcode := e.opcode, cid := e.cid } .acquiredAbandoned
          (k.word.setWidth 64) []).drain)) ∧
      (k.held = true → ¬(k.ownerFn = f.org.fn ∧ k.ownerQ = f.org.q) → ms = 0 ∨ 256 ≤ s.waiterCount →
        exec (.lockAcquire t c) s = .next (completed u f .lockBusy (k.word.setWidth 64) [])) ∧
      (k.held = true → ¬(k.ownerFn = f.org.fn ∧ k.ownerQ = f.org.q) → 0 < ms → s.waiterCount < 256 →
        let w : LockWaiter := { org := f.org, cid := e.cid, opcode := e.opcode, deadline := max s.now t + ms * 1000000 }
        exec (.lockAcquire t c) s = .next (State.drain (u.updLock l fun x => { x with waiters := putWaiter w x.waiters })) ∧
          ((∀ y ∈ k.waiters, y.org.order ≤ f.org.order) → putWaiter w k.waiters = k.waiters ++ [w]))) ∧
    (Accepted s t .lockRelease c f rest → k.held = true → k.ownerFn = f.org.fn → k.ownerQ = f.org.q → k.waiters = [] →
      exec (.lockRelease t c) s = .next (completed (u.updLock l fun x => { x with held := false }) f .success 0 [])) ∧
    (Accepted s t .lockClearAbandoned c f rest → k.held = true → k.ownerFn = f.org.fn → k.ownerQ = f.org.q →
      exec (.lockClearAbandoned t c) s =
        .next (completed (u.updLock l fun x => { x with abandoned := false }) f .success 0 []))

/-- A second acquire by the holder, and a release or clear by any other queue, complete with STATE_CONFLICT (R101).
For accepted commands: a LOCK_ACQUIRE by the queue that holds the lock, and a LOCK_RELEASE or
LOCK_CLEAR_ABANDONED by a queue that does not hold it, complete with STATE_CONFLICT and the state code; the next
state is that of the completion alone. -/
def Obligations.LockConflictsChangeNoLock : Prop :=
  ∀ (t : Time) (c : Call) (f : Fetched) (rest : List Fetched) (s : State),
    let u := popped s t c rest
    let k := s.lock (Fin.ofNat 64 ((parm f.entry 0).toNat % 64))
    let holds := k.held = true ∧ k.ownerFn = f.org.fn ∧ k.ownerQ = f.org.q
    let refused : State := completed u f .stateConflict (s.stateCode.setWidth 64) []
    (Accepted s t .lockAcquire c f rest → holds → exec (.lockAcquire t c) s = .next refused) ∧
    (Accepted s t .lockRelease c f rest → ¬holds → exec (.lockRelease t c) s = .next refused) ∧
    (Accepted s t .lockClearAbandoned c f rest → ¬holds → exec (.lockClearAbandoned t c) s = .next refused)

/-- A lock released with acquires waiting goes at once to the first of them (R99, R102). An accepted LOCK_RELEASE by
the owner of a lock with acquires waiting leaves the lock held by the queue of the first waiter, with that
function's epoch, ABANDONED as it was, and the other waiters still waiting in their order; LOCK_WAIT_TIMEOUT
takes exactly the waiters whose deadline has come off the lock, and leaves its owner and ABANDONED. -/
def Obligations.LockReleaseGrantsTheHeadWaiter : Prop :=
  ∀ (t : Time) (c : Call) (f : Fetched) (rest : List Fetched) (s : State) (w : LockWaiter) (ws : List LockWaiter),
    let l : LockId := Fin.ofNat 64 ((parm f.entry 0).toNat % 64)
    let k := s.lock l
    (Accepted s t .lockRelease c f rest → k.held = true → k.ownerFn = f.org.fn → k.ownerQ = f.org.q → k.waiters = w :: ws →
      ∃ x : State, exec (.lockRelease t c) s = .next x.drain ∧
        x.lock l = { k with held := true, ownerFn := w.org.fn, ownerQ := w.org.q
                            ownerEpoch := (s.func w.org.fn).epoch, waiters := ws } ∧
        ∀ j : LockId, j ≠ l → x.lock j = s.lock j) ∧
    (∀ j : LockId, (∀ y ∈ (s.lock j).waiters, (s.queue y.org.fn y.org.q).policyHalt = false) →
      ∃ x, exec (.lockWaitTimeout t j) s = .next x ∧
        x.lock j = { s.lock j with waiters := (s.lock j).waiters.filter fun y => decide (max s.now t < y.deadline) })

/-- POWER_STATE, SPINDLE, CALIBRATE and VERIFY_CTL start what they ask for (R144, R416, R419, R484, R493, R558, R570
(11_spindle_sled_moves, 13_power_states, 15_bringup_calibration)). For accepted commands: POWER_STATE with a
legal target, and no clip holding the part awake, runs and requests that state. SPINDLE with DIR 1 above the
reversal threshold of 300 rpm completes with STATE_CONFLICT, whatever its RPM. SPINDLE with RPM 0 on a rotor at
rest completes and ends a lock-out; forward at the speed the rotor already has it completes; forward from rest
without lock-out it runs, and a start to that speed is due. CALIBRATE with no failing precondition makes its
units pending and runs. VERIFY_CTL with bring-up over sets the two scrubs as its parameter says and completes. -/
def Obligations.DeviceCommandsTakeEffect : Prop :=
  ∀ (t : Time) (c : Call) (f : Fetched) (rest : List Fetched) (s : State),
    let u := popped s t c rest
    let e := f.entry
    let rpm := (parm e 1).toNat % 65536
    (∀ p, Accepted s t .powerState c f rest → PowerState.ofNum ((parm e 0).toNat % 8) = some p → s.holdsAwake = false →
      exec (.powerState t c) s = .next (((u.startRunning { (f.run .powerState) with target := PowerState.num p }).requestPower p
        (.command f.org e.cid)).drain)) ∧
    (Accepted s t .spindle c f rest →
      ((parm e 0).getLsbD 0 = true → s.spin.state ≠ 0 → 300 ≤ s.spin.rpm →
        exec (.spindle t c) s = .next (completed u f .stateConflict (s.stateCode.setWidth 64) [])) ∧
      (rpm = 0 → s.spin.state = 0 →
        exec (.spindle t c) s = .next (completed ((u.updMnt fun m => { m with stoppedByHost := true }).updSpin fun p =>
          { p with lockout := false, firstTrip := none, startDue := false, target := 0 }) f .success 0 [])) ∧
      (rpm ≠ 0 → (parm e 0).getLsbD 0 = false → s.spin.lockout = false → s.spin.reverse = false →
        (s.spin.state = 3 ∨ s.spin.state = 4) → s.spin.target = rpm →
        exec (.spindle t c) s = .next (completed (u.dropScurry.updMnt fun m => { m with stoppedByHost := false }) f
          .success 0 [])) ∧
      (rpm ≠ 0 → (parm e 0).getLsbD 0 = false → s.spin.lockout = false → s.spin.state = 0 →
        ∃ w, exec (.spindle t c) s = .next (State.drain w) ∧ w.spin.startDue = true ∧ w.spin.target = rpm ∧
          w.spin.reverse = false ∧ w.spin.state = 0 ∧
          w.host.running = u.host.running ++ [{ (f.run .spindle) with target := rpm }])) ∧
    (Accepted s t .calibrate c f rest → u.calMask e = 0 →
      exec (.calibrate t c) s = .next ((((calUnits e).foldl (fun v x => v.setUnit x.1 x.2.1 x.2.2 .pending) u).startRunning
        { (f.run .calibrate) with calLeft := calUnits e, result := BitVec.ofNat 32 (stepsOf e).length }).followBringup.drain)) ∧
    (Accepted s t .verifyCtl c f rest → s.cal.bringup = false →
      let on := fun v : State => v.updRd fun r => { r with
        bufferScrub := (parm e 0).getLsbD 1, mediaScrub := (parm e 0).getLsbD 0 }
      exec (.verifyCtl t c) s = .next (completed (on (if (parm e 0).getLsbD 0 then u.wakeSpindle else u)) f .success 0 []))

/-- FW_STAGE, FW_ACTIVATE, ATTEST and JTAG_UNLOCK take their effect or are refused with the status the spec names
(R517, R518, R520, R522, R523, R530, R532 (14_quill_secure_start)). For accepted commands: FW_STAGE at an offset
that may be staged adds its chunk, and completes with the verdict on it. FW_ACTIVATE with a staged slot stops
fetch and runs until the other started commands have ended. ATTEST with an attestation count to take sends the
report for the new count with RESULT 756; with none left it completes with STATE_CONFLICT and logs
ATTEST_EXHAUSTED. JTAG_UNLOCK with a valid token and fewer than three refusals unlocks at the token's level;
else it completes with UNLOCK_REFUSED and counts one refusal. -/
def Obligations.QuillCommandsTakeEffect : Prop :=
  ∀ (t : Time) (c : Call) (f : Fetched) (rest : List Fetched) (s : State), c.dataErr = none →
    let u := popped s t c rest
    let e := f.entry
    (Accepted s t .fwStage c f rest → s.quill.stageInvalid (parm e 0).toNat = false →
      let r := s.quill.stageChunk (parm e 0).toNat ((parm e 1).getLsbD 0) c.payload
      exec (.fwStage t c) s = .next (completed (u.updQuill fun _ => r.1) f r.2.1 (BitVec.ofNat 64 r.2.2) [])) ∧
    (∀ n, Accepted s t .fwActivate c f rest → s.quill.staged = some n → s.host.running ≠ [] →
      exec (.fwActivate t c) s = .next (((u.updHost fun h => { h with fetchStopped := true }).startRunning
        (f.run .fwActivate)).drain)) ∧
    (∀ q, Accepted s t .attest c f rest → s.quill.nextCounter = some q →
      let v := u.updQuill fun _ => { q with lastReport := some q.counter }
      exec (.attest t c) s = .next (completed v f .success 756 (v.report f))) ∧
    (Accepted s t .attest c f rest → s.quill.nextCounter = none →
      exec (.attest t c) s = .next (completed (u.log 0x0705 []) f .stateConflict (s.stateCode.setWidth 64) [])) ∧
    (Accepted s t .jtagUnlock c f rest → s.quill.refusals < 3 → s.quill.tokenOk e c.payload = true →
      exec (.jtagUnlock t c) s = .next (completed (u.unlockAt (Word.fieldLE c.payload 2 1)) f .success 0 [])) ∧
    (Accepted s t .jtagUnlock c f rest → 3 ≤ s.quill.refusals ∨ s.quill.tokenOk e c.payload = false →
      exec (.jtagUnlock t c) s = .next (completed (u.updQuill fun q => { q with refusals := q.refusals + 1 }) f
        .unlockRefused 0 []))

/-- An undefined opcode completes with INVALID_OPCODE, a fenced command starts, a failed read ends in DMA_ERROR
(R95, R139, R153, R691 (04_command_packets)). A front command whose opcode is in no row of Table 4.4 completes
with INVALID_OPCODE. FENCE_COMMAND_START starts the front command of a queue that has the FENCE flag, and whose
queue has nothing outstanding, as its opcode says. DMA_READ_ERROR of a running FRAME_APPEND ends it with
DMA_ERROR and the address, as it ends the later frames of its clip; of the front command of a queue, that
command starts and meets the error. -/
def Obligations.UndefinedFencedAndFailedCommands : Prop :=
  ∀ (t : Time) (c : Call) (f : Fetched) (rest : List Fetched) (s : State),
    ((s.at t).front c = some (f, rest) → f.entry = c.entry → Opcode.ofCode c.entry.opcode = none →
      exec (.undefinedOpcode t c) s = .next ((popped s t c rest).finish f.org f.entry f.alloc .invalidOpcode 0 [])) ∧
    (∀ o : Opcode, Starts s t o c f rest → c.entry.fence = true →
      exec (.fenceCommandStart t c) s = .next (((popped s t c rest).settle (taken o c f)).drain)) ∧
    (∀ (r : Running) (a : DWord), s.appendOf c = some r → c.dataErr = some a →
      exec (.dmaReadError t c) s = .next (((s.at t).failAppend r .dmaError a).drain)) ∧
    (∀ (o : Opcode) (a : DWord), s.appendOf c = none → c.dataErr = some a → Starts s t o c f rest →
      exec (.dmaReadError t c) s = .next (((popped s t c rest).settle (taken o c f)).drain))

/-- A waiting command is checked again when what it waited for has come (R97, R142, R146, R420, R545). Each of
OVERLAP_READ_RESUME, BRINGUP_DEFERRED_START, MEDIA_COMMAND_RUN_START and CLIP_OPEN_DEFERRED_START takes the
command with that queue and identifier that waits for that reason out of the waiting ones and settles it: it
starts, is refused, or waits on. MOUNT_WAIT_RELEASE does so with every command that waits for a MOUNT or
UNMOUNT, in fetch order, once none runs. -/
def Obligations.WaitingCommandsResume : Prop :=
  ∀ (t : Time) (fn : FnId) (q : QId) (cid : BitVec 16) (d : Deferred) (s : State),
    let named := fun why : WaitReason => s.host.deferred.find? fun x =>
      x.cmd.org.fn == fn && x.cmd.org.q == q && x.cmd.entry.cid == cid && x.reason == why
    let again := (((s.at t).undefer d).settle d).drain
    (named .overlap = some d → exec (.overlapReadResume t fn q cid) s = .next again) ∧
    (named .bringup = some d → exec (.bringupDeferredStart t fn q cid) s = .next again) ∧
    (named .power = some d → exec (.mediaCommandRunStart t fn q cid) s = .next again) ∧
    (named .clipOpen = some d → exec (.clipOpenDeferredStart t fn q cid) s = .next again) ∧
    (s.runs [.mount, .unmount] = false →
      exec (.mountWaitRelease t) s = .next (((s.at t).recheck fun x => x.reason == .mount).drain))

/-- A frame whose DMA completes is held in its slot and its command completes, and a close record is queued in its
turn (R92, R149, R154 (02_frame_path, 04_command_packets)). For a frame whose DMA runs, FRAME_DMA_COMPLETE with all
its bytes marks it full with those bytes, completes the FRAME_APPEND that brings it with SUCCESS and the frame
number, and counts its bytes against F0's inbound budget and beyond it. For the oldest clip being closed with no frame left to wait for, CLIP_CLOSE_RECORD_QUEUED queues
its close record with its frame count, takes the clip off the closing ones and publishes what has committed. -/
def Obligations.FramesArriveAndClipsClose : Prop :=
  ∀ (t : Time) (s : State),
    (∀ (clip : Word) (number : Nat) (data : List Byte) (f : Frame) (r : Running), s.findFrame clip number = some f →
      f.phase = .dma → data.length = f.bytes → s.host.running.find? (Running.appends f) = some r →
      exec (.frameDmaComplete t clip number data) s = .next ((((s.at t).updFrame clip number fun x =>
        { x with phase := .full, data := data }).endRunning { r with alloc := .none } .success (BitVec.ofNat 64 number)
          []).spendInbound f.bytes)) ∧
    (∀ (u : State) (n : Nat), (u.spendInbound n).host.arb.budget = u.host.arb.budget - n ∧
      (u.spendInbound n).host.arb.beyond = u.host.arb.beyond + (n - u.host.arb.budget)) ∧
    (∀ (c : ClosingClip) (cs : List ClosingClip), s.rcd.closing = c :: cs → s.rcd.frames.any c.waits = false →
      ∃ w, exec (.clipCloseRecordQueued t) s = .next (State.publish w) ∧ w.rcd.closing = cs ∧
        w.rcd.closed = s.rcd.closed ++ [(c.clip, c.frames)] ∧ (w.findRecord 3 c.clip 0).isSome = true)

/-- The codec encodes the next full frame from its next sector on, and waiting system sectors are placed in order
(R33, R51, R53, R210, R274 (02_frame_path, 06_volume_map_burrow)). With a session open, its start sector passed
and recording not stopped, FRAME_ENCODE encodes the first frame that is not encoded, where its data are
complete, from the sector it has reached, and publishes. A sector that finds a group, a free position and a
counter value takes the next LSN, so the next one rises by 1. SYSTEM_SECTOR_WRITE of a read-write mount places
the first that is due of: a sector to be written again on head A, on head B, a record sector, an AUX data
sector. -/
def Obligations.EncodingAndSystemSectors : Prop :=
  ∀ (t : Time) (s : State),
    let s1 := (s.at t).endRebuilds
    (∀ (discards : List Nat) (f : Frame) (i : Nat), s.encoding = true → s.rcd.stopped = false → s.nextFrame = some (f, i) →
      exec (.frameEncode t discards) s = .next ((s1.encodeFrame f discards i (sectorsOf f.bytes - i)).publish)) ∧
    (∀ (f : Frame) (i lost : Nat) (u : State), s.encodeOne f i lost = some u → u.mnt.nextLsn = s.mnt.nextLsn + 1) ∧
    (∀ u : State, let s2 := (s.at t).sealIfDue
      s2.mountedRW = true →
      (s2.placeRewrite .a = some u ∨ (s2.placeRewrite .a = none ∧ s2.placeRewrite .b = some u) ∨
        (s2.placeRewrite .a = none ∧ s2.placeRewrite .b = none ∧ s2.encoding = true ∧ s2.placeRecords = some u) ∨
        (s2.placeRewrite .a = none ∧ s2.placeRewrite .b = none ∧ s2.encoding = true ∧ s2.placeRecords = none ∧
          s2.placeAux = some u)) →
      exec (.systemSectorWrite t) s = .next u)

/-- A slot begins on every beam in order, and a verdict takes the oldest sector in flight of its beam (R19, R24, R49,
R65, R303, R304, R309, R322, R690 (08_write_lanes)). With a group open on a head of a read-write mount, SLOT_BEGIN
within one wedge of the moment that the slot's position gives (the tolerance is the model's, log entry 152; padding
after a stop, and a first slot, are held to no moment) begins the slot on beams 0 to 17 in order and moves to the
next slot; at the last slot the group closes. Elsewhen it changes only the time. A verdict on the oldest sector of
a beam whose last bit has passed removes it; where the criteria of Table 8.3 are met and nothing dooms it, it
passes, else it fails with cause 1 or with what doomed it; the verdict is counted and, where nothing dooms it, the
beam's power corrected. A beam without a valid calibration gives no verdict and is retired. -/
def Obligations.SlotsAndVerdicts : Prop :=
  ∀ (t : Time) (h : Head) (s : State),
    let n := (s.wh h).slot
    ((s.wh h).open3.isSome = true → s.mountedRW = true →
      s.rcd.stopped = true ∨ s.rcd.layerAt = none ∨
        (∃ d, s.slotDue h n = some d ∧ (d - ((max s.now t : Nat) : Int)).natAbs ≤ 4823) →
      let u := (allBeams.foldl (fun v b => v.startBeam h n b) ((s.at t).anchor h)).updWh h WriteHead.steps
      (n + 1 < 36 →
        exec (.slotBegin t h) s = .next (u.updWh h fun w => { w with slot := n + 1 }).checkGuarantee) ∧
      (36 ≤ n + 1 → exec (.slotBegin t h) s = .next (u.closeGroup h))) ∧
    (∀ d, (s.wh h).open3.isSome = true → s.rcd.stopped = false → s.slotDue h n = some d →
      4823 < (d - ((max s.now t : Nat) : Int)).natAbs → exec (.slotBegin t h) s = .next (s.at t)) ∧
    (∀ (b : Beam) (m : VerifyMeasure) (x : Sector),
      (s.wh h).sectors.find? (fun y => y.beam == b && y.inFlight && (decide (y.ends ≤ max s.now t) || y.doomed != 0)) = some x →
      (s.valid50 h b = false →
        exec (.verifyVerdict t h b m) s = .next (((s.at t).retireBeam h b 3).publish.settleUnmount)) ∧
      (s.valid50 h b = true →
      let u := (s.at t).updWh h fun w => { w with sectors := w.sectors.erase x }
      (x.doomed = 0 → (s.beam h b).passes x.kind m = true → exec (.verifyVerdict t h b m) s =
        .next (((((u.passSector x).countVerdict h b false 0).trimBeta h b m.beta).publish).settleUnmount)) ∧
      (x.doomed = 0 → (s.beam h b).passes x.kind m = false → exec (.verifyVerdict t h b m) s =
        .next (((((u.failSector x 1).countVerdict h b true 1).trimBeta h b m.beta).publish).settleUnmount)) ∧
      (x.doomed ≠ 0 → exec (.verifyVerdict t h b m) s =
        .next ((((u.failSector x x.doomed).countVerdict h b true x.doomed).publish).settleUnmount))))

/-- A dry stream stops recording, recording resumes past R41's revolution, and an excursion begins and ends (R40,
R41, R322, R575, R576, R577 (01_hendun_medium, 16_modes_coincidences)). For a read-write mount: STREAM_DRY with
nothing left to write pads the groups in progress and stops. RECORDING_RESUME with a session writing, both heads
able to write, no group in progress and no excursion goes on at the first groups that R41 allows, and retires the
beams that have no set there. EXCURSION_START with a read waiting, a boundary reached and room in the frame pool
under R575 stops recording, takes the place of a turnaround that is due and turns Scurry off on both heads;
EXCURSION_END ends the excursion, and recording goes on at once where both heads can write. -/
def Obligations.RecordingStopsAndResumes : Prop :=
  ∀ (t : Time) (s : State),
    let stopped := (s.at t).updRcd fun r => { r with
      stopped := true, headA := { r.headA with padding := r.headA.open3.isSome }
      headB := { r.headB with padding := r.headB.open3.isSome } }
    let ready := bothHeads.all fun h => (s.at t).mayWrite h && (s.wh h).open3.isNone
    let early := fun (h : Head) (w : WriteHead) => decide (groupRev h w.layer w.swept w.group < s.resumeRev)
    (s.mountedRW = true → s.rcd.stopped = false → s.dry = true → exec (.streamDry t) s = .next stopped) ∧
    (s.encoding = true → s.rcd.stopped = true → s.rd.excursion = none → ready = true →
      exec (.recordingResume t) s = .next ((s.at t).updRcd fun r => { r with
        stopped := false, layerAt := none, headA := skipGroups .a (early .a) 5000 r.headA
        headB := skipGroups .b (early .b) 5000 r.headB }).retireInvalid) ∧
    (∀ c : OpenClip, s.rd.excursion = none → (s.wh .a).open3 = none ∨ (s.wh .b).open3 = none → s.reviewWaits = true →
      s.rcd.clip = some c → s.occupancy + c.prof.rate + s.params.reviewMarginMib * 1048576 ≤ s.warnLevel →
      s.mountedRW = true →
      exec (.excursionStart t) s = .next ((stopped.updRcd fun r => { r with turnAt := none }).updRd fun r => { r with
        excursion := some (max s.now t), scurryA := false, scurryB := false })) ∧
    (s.rd.excursion.isSome = true →
      let u := (s.at t).updRd fun r => { r with excursion := none }
      (s.encoding = false ∨ s.rcd.stopped = false ∨ ready = false → exec (.excursionEnd t) s = .next u) ∧
      (s.encoding = true → s.rcd.stopped = true → ready = true → exec (.excursionEnd t) s = .next u.resume))

/-- A parity error of an on-chip memory costs the sector it hits and no other (R66, R67, R189, R200, R202, R272
(02_frame_path, 05_drey_buffers)). For a byte whose odd parity bit is wrong, SRAM_PARITY_ERROR: a staged sector
whose slot has not begun leaves staging, its data slot and its place in its stripe's parity, its position is kept
for a pad, and it is encoded again as its kind asks; an encoding in progress for that beam costs one counter value
while R272 leaves one, and nothing else; a sector in decrypt holding becomes an erasure of its stripe; the oldest
codeword of the beam that no engine has taken counts as failed. PARITY_ACCUMULATOR_ERROR marks the stripe of that
member of the head's open group for rebuilding. A byte whose parity bit is right, and an event that finds nothing
there, change only the time. -/
def Obligations.ChipParityErrorsAreContained : Prop :=
  ∀ (t : Time) (byte : Byte) (p : Bool) (s : State),
    let s1 := s.at t
    (p = oddParity byte → (∀ site, exec (.sramParityError t site byte p) s = .next s1) ∧
      ∀ h m, exec (.parityAccumulatorError t h m byte p) s = .next s1) ∧
    (p ≠ oddParity byte →
      (∀ (h : Head) (b : Beam) (x : Sector), (s.staging h).find? (fun y => y.beam == b && !y.inFlight) = some x →
        ∃ w : State, exec (.sramParityError t (.staging h b) byte p) s = .next (w.failSector x 6) ∧
          (w.wh h).sectors = (s.wh h).sectors.erase x ∧ w.mnt.usedSlots = s.mnt.usedSlots - 1 ∧
          (w.wh h).lost = (x.seq, x.index) :: (s.wh h).lost ∧
          w.mnt.nextLsn = s.mnt.nextLsn ∧ ∀ st ∈ w.rcd.stripes, st.seq = x.seq → ∀ q ∈ st.parts, q.1 ≠ x.index) ∧
      (∀ (h : Head) (b : Beam), s1.encodesFor h b = true → s.counterRoom = true →
        exec (.sramParityError t (.encode h b) byte p) s = .next (s1.updMnt fun m => { m with counter := m.counter + 1 })) ∧
      (∀ (h : Head) (b : Beam), s1.encodesFor h b = false ∨ s.counterRoom = false →
        exec (.sramParityError t (.encode h b) byte p) s = .next s1) ∧
      (∀ psa : Word, s.rd.holding.any (fun x => x.1 == psa) = true →
        exec (.sramParityError t (.decrypt psa) byte p) s = .next ((s1.updRd fun r => { r with
          holding := r.holding.filter fun x => x.1 != psa }).setPart psa .erased)) ∧
      (∀ (h : Head) (b : Beam) (w : PoolWord),
        s.rd.pool.find? (fun x => x.head == h && x.beam == b && !s.rd.taken.contains x) = some w →
        exec (.sramParityError t (.codeword h b) byte p) s =
          .next ((s1.updRd fun r => { r with pool := r.pool.erase w }).wordFailed w)) ∧
      (∀ (h : Head) (m : Fin 3) (st : Stripe), (s.groupStripes h)[m.val]? = some st →
        exec (.parityAccumulatorError t h m byte p) s =
          .next (s1.updStripe st.seq fun y => { y with rebuilding := true })))

/-- A detected codeword joins the pool, and its decode gives its sector a result or counts a failure (R62, R163, R266,
R342, R343, R344, R346, R348, R455, R461 (09_read_channel)). On a readable head and a beam whose channel reads,
CODEWORD_DETECTED of an address of that head and beam discards what the beam's buffer still holds untaken and
appends the codeword, with its soft values of the beam's stream, to the pool, once it has crossed the channel's
bridge; where the bridge is not armed, or the sector's mark was not found, it fails instead. LDPC_DECODE_DONE of
a codeword that an engine has taken, with room in decrypt holding, removes it from the pool and counts its
iterations unless it is speculative; converged within its limit it gives the sector its 4,096 bytes; otherwise it is
decoded once more, extended, during bring-up, and else counts as a failure of that beam. -/
def Obligations.CodewordsAreDecoded : Prop :=
  ∀ (t : Time) (h : Head) (b : Beam) (index : Fin 8) (s : State),
    (∀ (psa : Word) (spec : Bool), (s.at t).readable h = true → psaHead psa = h → psaBeam psa = b →
      s.channelReads h b = true →
      let u := (if spec then s.at t else (s.at t).openAssembly psa).overrunBeam h b
      let x := u.crossWord (chanBridge h b) (8 * psa.toNat + index.val)
      let w : PoolWord := { head := h, beam := b, psa := psa, index := index.val, speculative := spec
                            soft := ((s.chan h b).codeword (psaZone psa) (psaSlot psa) index.val).getD [] }
      let missed := (s.chan h b).markMissed (psaZone psa) (psaSlot psa)
      (missed = false → (u.bridge (chanBridge h b)).armed = true → exec (.codewordDetected t h b psa index spec) s =
        .next (x.updRd fun r => { r with pool := r.pool ++ [w] })) ∧
      (missed = false → (u.bridge (chanBridge h b)).armed = false →
        exec (.codewordDetected t h b psa index spec) s = .next (x.wordFailed w)) ∧
      (missed = true → exec (.codewordDetected t h b psa index spec) s = .next (u.wordFailed w))) ∧
    (∀ (iters : Nat) (result : Option (List Byte)) (header : List Byte) (w : PoolWord),
      s.rd.taken.find? (fun x => x.head == h && x.beam == b && x.index == index.val) = some w →
      s.rd.holding.length < 128 → s.codecOn = true →
      let lim := if w.extended then s.rd.limExtended else s.rd.limNormal
      let u := ((s.at t).updRd fun r => { r with pool := r.pool.filter fun x => x != w }).updBeam h b fun v =>
        { v with iterations := if w.speculative then v.iterations else (min iters lim :: v.iterations).take 4096 }
      (∀ d, result = some d → iters ≤ lim → exec (.ldpcDecodeDone t h b index iters result header) s =
        .next (u.wordResult w (some d) (if header.isEmpty then none else some header))) ∧
      (result = none ∨ lim < iters → s.cal.bringup = true → w.extended = false →
        exec (.ldpcDecodeDone t h b index iters result header) s =
          .next (u.updRd fun r => { r with pool := r.pool ++ [{ w with extended := true }] })) ∧
      (result = none ∨ lim < iters → s.cal.bringup = false ∨ w.extended = true →
        exec (.ldpcDecodeDone t h b index iters result header) s = .next (u.wordFailed w)))

/-- A sector with a good tag is delivered, a bad one is erased or fails for good, and a complete stripe is decoded
(R265, R268, R291, R292, R365, R368 (07_stripe_codec_crypto, 09_read_channel)). SECTOR_TAG_CHECK takes the
sector out of decrypt holding; with a tag that verifies its plaintext is delivered; with one that does not, a
sector as read becomes an erasure of its stripe, and one that was rebuilt fails authentication. ERASURE_DECODE
runs the outer code on a stripe of which every sector is known. RETRY_LADDER_STEP on a head whose ladder runs,
while the recording leaves the medium free, takes the recovered sectors, decodes its stripes again, and ends the ladder where nothing is missing, else goes
to the next step. -/
def Obligations.StripesAreRecovered : Prop :=
  ∀ (t : Time) (s : State),
    (∀ (psa p : Word) (hdr ct key : List Byte), s.rd.holding.find? (fun x => x.1 == psa) = some (p, hdr, ct) →
      s.mnt.mediaKey = some key →
      let u := (s.at t).updRd fun r => { r with holding := r.holding.filter fun x => x.1 != psa }
      (∀ pt, openSector key hdr ct = some pt → exec (.sectorTagCheck t psa) s =
        .next ((u.updRd fun r => { r with rebuilt := r.rebuilt.filter (· != psa) }).deliver (Word.fieldLE hdr 0 4) pt)) ∧
      (openSector key hdr ct = none → s.rd.rebuilt.contains psa = false →
        exec (.sectorTagCheck t psa) s = .next (u.setPart psa .badTag)) ∧
      (openSector key hdr ct = none → s.rd.rebuilt.contains psa = true → exec (.sectorTagCheck t psa) s =
        .next ((u.updRd fun r => { r with rebuilt := r.rebuilt.filter (· != psa) }).authFail (Word.fieldLE hdr 0 4) psa))) ∧
    (∀ (seq : Nat) (a : Assembly), s.rd.assembly.find? (fun x => x.seq == seq) = some a → s.stripeComplete a = true →
      a.ladder = false → exec (.erasureDecode t seq) s = .next ((s.at t).eraseDecode a)) ∧
    (∀ (h : Head) (got : List (Word × List Byte × List Byte)), s.ladder h ≠ 0 →
      (s.at t).mediumFree = true →
      let u := (s.at t).recovered got
      let v := (u.rd.assembly.filter fun a => a.head == h && a.ladder).foldl State.eraseDecode u
      (v.ladderLeft h = [] → exec (.retryLadderStep t h got) s = .next (v.setLadder h 0)) ∧
      (v.ladderLeft h ≠ [] → s.ladder h < 5 →
        exec (.retryLadderStep t h got) s = .next (v.setLadder h (s.ladder h + 1))) ∧
      (v.ladderLeft h ≠ [] → 5 ≤ s.ladder h → exec (.retryLadderStep t h got) s =
        .next ((v.ladderLeft h).foldl (fun w x => w.log 0x0404 [arg x.1, x.2, 5])
          ((v.setLadder h 0).failReads ((v.ladderLeft h).map (·.1)) .mediaUnrecovered))))

/-- A data field updates its own read channel, defect spans open and close, Scurry and the media scrub take what
they read (R327, R349, R350, R351, R362, R363, R364, R434, R578, R579 (09_read_channel)). On a beam whose channel
reads, DATA_FIELD_READ changes that beam's read channel and nothing else: not its parameters, nor its spans but
for those done with. DEFECT_SPAN_OPEN opens a span at the field and bit, and logs one radial defect for a stripe in
assembly when the span is the third that opened in that field on the head, counting beams; DEFECT_SPAN_CLOSE
closes the open span at its place. Where Scurry may run, SCURRY_READ holds the sectors that meet R351, and
SPECULATIVE_PREFOCUS notes the layer above. Where the media scrub may run, MEDIA_SCRUB_READ counts each stripe of
the group that comes next in the stream. -/
def Obligations.FieldsDefectsAndBackgroundReads : Prop :=
  ∀ (t : Time) (h : Head) (b : Beam) (s : State),
    (∀ f : FieldSense, s.channelReads h b = true →
      ∃ c : ReadChannel, exec (.dataFieldRead t h b f) s = .next ((s.at t).updChan h b fun _ => c) ∧
        c.par = (s.chan h b).par ∧ c.verify = (s.chan h b).verify ∧ c.defectPsa = (s.chan h b).defectPsa ∧
        c.spans = (s.chan h b).spans.filter fun d => !d.stop.any fun e => decide (e.1 + 1 < f.expected)) ∧
    (∀ (psa : Word) (field bit : Nat), s.channelReads h b = true →
      let u := (s.at t).updChan h b fun c => { c with spans := c.spans ++ [{ start := (field, bit) }], defectPsa := psa }
      let beams := allBeams.filter fun x => (u.chan h x).spans.any fun d => d.start.1 == field
      (s.stripeAt psa = none ∨ beams.length < 3 → exec (.defectSpanOpen t h b psa field bit) s = .next u) ∧
      (∀ seq live, s.stripeAt psa = some (seq, live) → 3 ≤ beams.length →
        s.rd.radialLogged.contains seq = false → s.rd.assembly.any (fun a => a.seq == seq) = true →
        exec (.defectSpanOpen t h b psa field bit) s =
          .next ((u.updRd fun r => { r with radialLogged := seq :: r.radialLogged }).log 0x0403
            [arg (Head.num h), (u.chan h (beams.headD 0)).defectPsa, arg beams.length]))) ∧
    (∀ field bit : Nat, exec (.defectSpanClose t h b field bit) s = .next ((s.at t).updChan h b fun c => { c with
      spans := c.spans.map fun d => if d.stop.isNone then { d with stop := some (field, bit) } else d })) ∧
    (∀ l : List (Word × List Byte × List Byte), s.scurryOn h = true →
      exec (.scurryRead t h l) s = .next (l.foldl (fun u x => u.holdScurry h x) (s.at t))) ∧
    (s.scurryOn h = true → (s.hd h).captured = true → (s.hd h).layer < 11 →
      exec (.speculativePrefocus t h) s = .next ((s.at t).updHd h fun d => { d with prefocus := some (d.layer + 1) })) ∧
    (∀ l : List (Nat × Nat × Bool), s.scrubbing = true →
      exec (.mediaScrubRead t l) s = .next (l.foldl State.scrubStripe (s.at t)))

/-- A slot samples on every DIV-th event: the control law on a valid sample, a hold on a missed one, nothing when
idle (R370, R374, R379, R383, R384, R385, R387, R400, R461, Table 10.2, Table 12.7 (10_loop_engine, 12_handshake_fabric)).
While the Loop Engine's domain is off, or the servo front end has no clock, SLOT_SAMPLE changes only the time. Else
the sample crosses its bridge. Of a slot that is not in RAMP, RUN or HOLD, with no ENABLE cleared at this moment,
nothing further changes; below the DIV-th event the event is counted. On the DIV-th event a valid sample runs the
control law on the measured value, slot 8 with SPEED_TRIM added and slot 9 held to 147; a missed sample, and any
sample that its bridge discards, keeps output, I_prev, D_prev, e_prev, ramp index and SUP_COUNT and enters HOLD, and
the ninth in a row trips the slot with cause 3; an overrun is also counted. -/
def Obligations.LoopSamplesFollowTheLaw : Prop :=
  ∀ (t : Time) (i : LoopId) (x : LoopSample) (s : State),
    let s1 := s.at t
    let k := { (s.slot i) with events := 0 }
    let crossed := fun y : LoopSample => (s1.crossSample i y).1
    let arrives := ∀ n, loopBridge i = some n → (s.bridge n).armed = true
    (s.loopOn = false → exec (.slotSample t i x) s = .next s1) ∧
    (s.loopOn = true →
      ((s.slot i).active = false → (∀ z ∈ s.loop.cleared, ¬(z.1 = i ∧ z.2.1 = s1.now ∧ z.2.2.active = true)) →
        exec (.slotSample t i x) s = .next (crossed x)) ∧
      ((s.slot i).active = true → (s.slot i).events + 1 < max 1 (s.slot i).cfg.div.toNat →
        exec (.slotSample t i x) s = .next ((crossed x).updSlot i fun z => { z with events := (s.slot i).events + 1 })) ∧
      ((s.slot i).active = true → max 1 (s.slot i).cfg.div.toNat ≤ (s.slot i).events + 1 →
        (arrives →
          (∀ y, exec (.slotSample t i (.valid y)) s =
            .next ((crossed (.valid y)).putSample i (k.sample (q y) (s1.trimOf i) (outLimit i)))) ∧
          exec (.slotSample t i .overrun) s =
            .next (((crossed .overrun).logOverrun i).putSample i ({ k with overrun := satInc k.overrun }).miss)) ∧
        exec (.slotSample t i .invalid) s = .next ((crossed .invalid).putSample i k.miss) ∧
        (¬arrives → exec (.slotSample t i x) s = .next ((crossed x).putSample i k.miss)))) ∧
    (k.missedRun < 8 → k.miss.2 = none ∧ k.miss.1.out = k.out ∧ k.miss.1.iPrev = k.iPrev ∧ k.miss.1.dPrev = k.dPrev ∧
      k.miss.1.ePrev = k.ePrev ∧ k.miss.1.rampIdx = k.rampIdx ∧ k.miss.1.supCount = k.supCount ∧
      k.miss.1.missedRun = k.missedRun + 1 ∧ k.miss.1.missed = satInc k.missed) ∧
    (8 ≤ k.missedRun → k.miss.2 = some 3 ∧ k.miss.1.mode = .trip ∧ k.miss.1.cause = 3 ∧ k.miss.1.out = 0)

/-- With a valid configuration a sample leaves the output within U_MIN to U_MAX and the integral within I_LIM (R374,
R376, R377, R379, R380 (10_loop_engine)). For every slot with a configuration that R380 accepts, every input,
trim and limit that meets U_MIN to U_MAX: after a valid sample that does not trip, the output lies between U_MIN
and U_MAX and within the limit; the integral stays within I_LIM if it was there or the slot is fresh. A trip
drives 0. The integral never moves further in the direction in which the unclamped output is beyond its limit. -/
def Obligations.LoopOutputStaysInItsLimits : Prop :=
  ∀ (k : LoopSlot) (y trim limit : Int), k.cfg.valid = true → 0 ≤ limit → limit ≤ 32768 → -limit ≤ q k.cfg.uMax →
    q k.cfg.uMin ≤ limit → (k.fresh = true ∨ -k.cfg.iMax ≤ k.iPrev ∧ k.iPrev ≤ k.cfg.iMax) →
    let r := k.sample y trim limit
    (r.2 = none → q k.cfg.uMin ≤ q r.1.out ∧ q r.1.out ≤ q k.cfg.uMax ∧ -limit ≤ q r.1.out ∧ q r.1.out ≤ limit) ∧
    (r.2.isSome = true → r.1.mode = .trip ∧ r.1.out = 0) ∧
    (-k.cfg.iMax ≤ r.1.iPrev ∧ r.1.iPrev ≤ k.cfg.iMax) ∧
    ∀ e : Int, -k.cfg.iMax ≤ k.iPrev → k.iPrev ≤ k.cfg.iMax →
      (q k.cfg.uMax < (k.law e).uRaw → (k.law e).i ≤ k.iPrev) ∧ ((k.law e).uRaw < q k.cfg.uMin → k.iPrev ≤ (k.law e).i)

/-- ENABLE, APPLY, a parity error, a lost FSYNC and a stopped source move a slot between the states of Table 10.3
(R47, R380, R386, R390, R393, R397, R398, Table 10.3 (10_loop_engine)). With the Loop Engine's domain 7 powered
(what a row does while it is off is the model's choice, log entry 159): LOOP_SLOT_ENABLE sets ENABLE of a slot:
already set it has no effect; an invalid configuration sets CFG_ERR and stays IDLE; a valid one clears MISSED,
OVERRUN and TRIP_CAUSE and enters RAMP, or RUN with RAMP_LEN 0 or REF_EXT; clearing it brings the slot to IDLE.
LOOP_APPLY takes a valid shadow set into use and otherwise sets CFG_ERR and keeps the set in use.
LOOP_PARITY_ERROR trips an active slot with cause 6. SLOT9_FSYNC_TIMEOUT after 100 ms without FSYNC makes slot 9
IDLE with its output kept. STOPPED_SOURCE_REPORT disables focus, tracking and tilt of the head. -/
def Obligations.LoopSlotsAreSwitched : Prop :=
  ∀ (t : Time) (i : LoopId) (s : State),
    let s1 := s.at t
    let k := s.slot i
    s.pwr.domains.getLsbD 7 = true →
    (k.enable = true → exec (.loopSlotEnable t i true) s = .next s1) ∧
    (k.enable = false → k.cfg.valid = false → exec (.loopSlotEnable t i true) s =
      .next (s1.updSlot i fun x => { x with enable := true, cfgErr := true, mode := .idle })) ∧
    (k.enable = false → k.cfg.valid = true → ∃ u : State, exec (.loopSlotEnable t i true) s = .next u ∧
      (∀ j, j ≠ i → u.slot j = s.slot j) ∧ (u.slot i).enable = true ∧ (u.slot i).cause = 0 ∧ (u.slot i).missed = 0 ∧
      (u.slot i).overrun = 0 ∧ (u.slot i).supCount = k.supCount ∧ (u.slot i).cfg = k.cfg ∧ (u.slot i).fresh = true ∧
      (u.slot i).mode = if k.cfg.rampLen = 0 ∨ k.cfg.refExt = true then .run else .ramp) ∧
    (k.enable = false → exec (.loopSlotEnable t i false) s = .next s1) ∧
    (k.enable = true → exec (.loopSlotEnable t i false) s = .next (s1.disableSlot i)) ∧
    (k.enable = true → (s1.disableSlot i).slot i = k.disable ∧ (∀ j, j ≠ i → (s1.disableSlot i).slot j = s.slot j) ∧
      k.disable.enable = false ∧ k.disable.mode = .idle) ∧
    (k.shadow.valid = true → ∃ f : LoopSlot → LoopSlot, exec (.loopApply t i) s = .next (s1.updSlot i f) ∧
      (f k).cfg = k.shadow ∧ (f k).out = k.out ∧ (f k).mode = k.mode ∧ (f k).iPrev = k.iPrev) ∧
    (k.shadow.valid = false → exec (.loopApply t i) s = .next (s1.updSlot i fun x => { x with cfgErr := true })) ∧
    (k.active = true → exec (.loopParityError t i) s = .next ((s1.updSlot i (LoopSlot.trip 6)).afterTrip i 6)) ∧
    (k.active = false → exec (.loopParityError t i) s = .next s1) ∧
    ((s.slot 9).active = true → (∀ e, s.sync.lastEdge = some e → e + 100000000 ≤ s1.now) →
      exec (.slot9FsyncTimeout t) s = .next (s1.updSlot 9 fun x => { x.disable with out := x.out })) ∧
    (∀ h : Head, exec (.stoppedSourceReport t h) s =
      .next ((((s1.updHd h fun d => { d with decoding := false, captured := false }).disableSlot (headSlot h 0)).disableSlot
        (headSlot h 1)).disableSlot (headSlot h 2)))

/-- A start from rest commutates once its rotor synchronises, a failed one is retried, and the target speed is
reached (R404, R406, R410, R414, R436, R437, R706, Table 11.2 (11_spindle_sled_moves)). Where a start is due,
the motor may start and the rotor rests or coasts, SPINDLE_START of a rotor that shows no zero crossing and
synchronises, with a back-EMF constant that is no fault, gives spindle state 1 with commutating gates; one that
does not synchronise is tried again. SPINDLE_START_RETRY after 1 s and SPINDLE_RESTART make the same start; the
third failed attempt logs SPINDLE_START_FAIL and locks the spindle out. SPEED_TARGET_REACHED sets state 3 at
10,800 rpm forward and 4 otherwise, retunes the loops and completes the SPINDLE commands to that speed (log
entry 12). -/
def Obligations.SpindleStarts : Prop :=
  ∀ (t : Time) (g : StartSense) (s : State),
    let s1 := s.at t
    let s0 := s1.updSpin fun p => { p with attempts := 0 }
    let cold := fun (o : Answer) => ∃ u : State, o = .next u ∧ u.spin.state = 1 ∧ u.spin.gates = .commutating ∧
      u.spin.gatesAt = s1.now ∧ u.spin.keMeas = g.keMeas ∧ u.spin.starts = s.spin.starts + 1 ∧ u.spin.startDue = false ∧
      u.spin.retryDue = false ∧ u.spin.restartDue = false ∧ u.spin.target = s.spin.target ∧
      u.spin.foundVector = foundVector s.spin.params.tTestMax g.runs ∧
      u.spin.firstVector = forcedFrom (foundVector s.spin.params.tTestMax g.runs) s.spin.reverse ∧ u.mnt = s.mnt ∧ u.rcd = s.rcd
    let good := g.turning = none ∧ g.synced = true ∧ keCheck g.keMeas s.spin.params.keNom ≠ .fault
    (s.spin.startDue = true → s.mayStart = true → (s.spin.state = 0 ∨ s.spin.state = 6) →
      exec (.spindleStart t g) s = .next (s0.startSpindle g) ∧ (good → cold (exec (.spindleStart t g) s)) ∧
      (g.turning = none → g.synced = false → ∃ u : State, exec (.spindleStart t g) s = .next u ∧ u.spin.state = 1 ∧
        u.spin.gates = .off ∧ u.spin.attempts = 1 ∧ u.spin.retryDue = true)) ∧
    (s.spin.retryDue = true → s.mayStart = true → s.spin.gatesAt + 1000000000 ≤ s1.now →
      exec (.spindleStartRetry t g) s = .next (s1.startSpindle g) ∧ (good → cold (exec (.spindleStartRetry t g) s)) ∧
      (g.turning = none → g.synced = false → s.spin.attempts = 2 → ∃ v : State,
        exec (.spindleStartRetry t g) s = .next ((v.log 0x0508 [3]).lockOutAll) ∧ v.spin.state = 0)) ∧
    (s.spin.restartDue = true → s.mayStart = true →
      exec (.spindleRestart t g) s = .next (s0.startSpindle g) ∧ (good → cold (exec (.spindleRestart t g) s))) ∧
    (s.spin.gates = .commutating → (s.spin.state = 1 ∨ s.spin.state = 2) → exec (.speedTargetReached t) s =
      .next (((((s1.updSpin fun p => { p with
        state := if s.spin.target = 10800 ∧ s.spin.reverse = false then 3 else 4, rpm := s.spin.target }).retune
          s.spin.target).spindleDone s.spin.target).followBringup).drain))

/-- Comparator trips, stalls, the three phases of a stop, coasting and wedge lock (R409, R412, R413, R415, R438,
R706 (11_spindle_sled_moves)). A comparator trip outside BLANK with the gates driven notes the present PWM
period once. With trips in more than 75 % of the periods of 100 ms SPINDLE_STALL counts, logs with the speed,
clears slot 8's ENABLE and drops the spindle. A stop clears slot 8's ENABLE and brakes (state 5); below 300 rpm
the low side is on for 1 s, and then the rotor rests with gates off and state 0. After 10 s of braking at 300
rpm or more the spindle coasts and is logged. A rotor that coasts rests after 100 ms without a crossing. Wedge
lock is gained with COMM_OFFSET learned once, and lost when neither head decodes. -/
def Obligations.SpindleStopsAndTrips : Prop :=
  ∀ (t : Time) (rpm : Nat) (s : State),
    let s1 := s.at t
    let p := s.spin
    ((p.gates = .commutating ∨ p.gates = .braking) → s1.highSideOff = false →
      exec (.comparatorTrip t false) s = .next (s1.updSpin fun x => { x with
        tripPeriods := s1.pwmPeriod :: x.tripPeriods.filter fun k => decide (s1.pwmPeriod < k + 100 * x.params.fPwm) })) ∧
    (exec (.comparatorTrip t true) s = .next s1) ∧
    (s1.stalled = true → p.gates = .commutating → exec (.spindleStall t rpm) s =
      .next (((((s1.updSpin fun x => { x with stalls := x.stalls + 1, rpm := rpm }).log 0x0507 [arg rpm]).updSlot 8
        LoopSlot.disable).spindleDrop).drain)) ∧
    (p.state ≠ 0 → p.state ≠ 5 → s.runs [.spindle] = false →
      exec (.spindleStop t) s = .next (s1.brakeSpindle.checkGuarantee)) ∧
    (p.state ≠ 0 → p.lockout = false → s.quill.motorRelease = true →
      s1.brakeSpindle.spin.state = 5 ∧ s1.brakeSpindle.spin.gates = .braking ∧ (s1.brakeSpindle.slot 8).enable = false) ∧
    (p.gates = .braking → exec (.brakeBelowThreshold t) s = .next (s1.updSpin fun x => { x with
      gates := .lowSide, gatesAt := s1.now, rpm := min x.rpm 299, tripPeriods := [] })) ∧
    (p.gates = .lowSide → p.gatesAt + 1000000000 ≤ s1.now → exec (.brakeHoldEnd t) s = .next s1.rest) ∧
    (p.gates = .braking → p.gatesAt + 10000000000 ≤ s1.now → 300 ≤ rpm → exec (.spindleBrakeTimeout t rpm) s =
      .next ((s1.gatesOff.updSpin fun x => { x with rpm := rpm }).log 0x0509 [arg rpm])) ∧
    (p.state = 6 → p.gatesAt + 100000000 ≤ s1.now → exec (.coastStopped t) s = .next s1.rest) ∧
    (∀ offset : Int, p.gates = .commutating → (s.hdA.decoding = true ∨ s.hdB.decoding = true) → p.wedgeLock = false →
      exec (.wedgeLockGained t offset) s = .next (s1.updSpin fun x => { x with
        wedgeLock := true, commOffset := some (x.commOffset.getD offset) })) ∧
    (s.hdA.decoding = false → s.hdB.decoding = false →
      exec (.wedgeLockLost t) s = .next (s1.updSpin fun x => { x with wedgeLock := false }))

/-- A seek moves a sled, a capture and a jump close focus at a layer, and a park takes a head's loops and lanes off
(R424, R425, R427, R428, R429, R430, R431, R439, R701 (11_spindle_sled_moves)). SLED_SEEK within the travel
starts the profile of R424 from where the sled stands; SEEK_SETTLED after it, with 32 quiet samples in a row, follows
the decoded band 0 to 2 bands before the target, seeks again otherwise, and holds without a band. SLED_SOURCE_SWITCH gives the slot the
source of the head's state. FOCUS_CAPTURE and HEAD_RECAPTURE close focus at the head's layer when one of three
attempts locks on it, and jump to it where the attempt locks on another. LAYER_JUMP jumps to the target and TRACK_JUMP moves one track in step 5 of the ladder. PARK
parks a head at 30.5 mm with its lanes off, EMERGENCY_PARK both where they are. -/
def Obligations.HeadsMove : Prop :=
  ∀ (t : Time) (h : Head) (s : State),
    let s1 := s.at t
    let d := s.hd h
    (∀ nm : Nat, s.servoOn = true → s.spin.reverse = false → (s.calUnit 6 h 0).status = .passed → 30500000 ≤ nm →
      nm ≤ 70500000 → ∃ u : State, exec (.sledSeek t h nm) s = .next u ∧ (u.hd h).sledMode = .seek ∧ (u.hd h).seekNm = nm ∧
        (u.hd h).seekAt = s1.now ∧ (u.hd h).seekTime = profileTime s1.spin.sled (distance d.sledNm nm) ∧ (u.hd h).sledNm = d.sledNm ∧
        (u.hd h).parked = false ∧ (u.hd h).layer = d.layer ∧ u.rcd = s.rcd ∧ u.spin = s.spin) ∧
    (d.sledMode = .seek → d.seekAt + d.seekTime ≤ s1.now → 32 ≤ d.quiet →
      (∀ want got : Nat, d.seekBand = some want → beforeBand (outward h d.layer) want got = true →
        exec (.seekSettled t h (some got)) s = .next (s1.updHd h fun x => { x with
          sledMode := .follow, sledNm := bandRadius got, seekBand := none, followN := 0, followTrim := 0
          driveSum := (0, 0) })) ∧
      (∀ want got : Nat, d.seekBand = some want → beforeBand (outward h d.layer) want got = false →
        exec (.seekSettled t h (some got)) s =
          .next ((s1.updHd h fun x => { x with sledNm := bandRadius got }).startSeek h (bandRadius want) (some want))) ∧
      (exec (.seekSettled t h none) s = .next (s1.updHd h fun x => { x with sledMode := .hold, sledNm := x.seekNm }))) ∧
    (∀ on : Bool, s.servoOn = true → (on = true → s.spin.reverse = false) →
      exec (.sledSourceSwitch t h on) s = .next (s1.sledSource h on)) ∧
    (∀ (l : List CaptureSense) (c : CaptureSense), s.canSweep h = true → (l.take 3).find? (·.locked) = some c →
      let u := if c.layer = d.layer then s1.closeFocus h d.layer else (s1.closeFocus h c.layer).jumpTo h d.layer
      (d.captured = false → exec (.focusCapture t h l) s = .next u) ∧
      (d.needRecapture = true → exec (.headRecapture t h l) s = .next u)) ∧
    (∀ l : List CaptureSense, s.canSweep h = true → (l.take 3).any (·.locked) = false → 3 ≤ l.length →
      d.captured = false → exec (.focusCapture t h l) s = .next (s1.captureFails h)) ∧
    (∀ target : Nat, s.canSweep h = true → d.captured = true → target ≤ 11 → target ≠ d.layer →
      exec (.layerJump t h target) s = .next (s1.jumpTo h target)) ∧
    (∀ out : Bool, d.captured = true → s.ladder h = 5 → ∃ f : HeadState → HeadState,
      exec (.trackJump t h out) s =
        .next (((s1.disableSlot (headSlot h 1)).updHd h f).enableSlot (headSlot h 1)) ∧
      ∀ x, (f x).trackOffset = x.trackOffset + (if out then 1 else -1) ∧ (f x).layer = x.layer ∧ (f x).sledNm = x.sledNm) ∧
    (s.servoOn = true → exec (.park t h) s = .next (s1.parkHead h) ∧ ((s1.parkHead h).hd h).sledNm = 30500000 ∧
      ((s1.parkHead h).hd h).parked = true ∧ ((s1.parkHead h).hd h).captured = false) ∧
    (exec (.emergencyPark t) s = .next s1.emergencyPark ∧ s1.emergencyPark.spin.gates = .off ∧
      (s1.emergencyPark.hd h).sledNm = d.sledNm ∧ (s1.emergencyPark.hd h).sledMode = .hold ∧
      (s1.emergencyPark.hd h).captured = false)

/-- Both heads turn to the next layer at its end, a late turnaround stops recording, and gap trims step one code
(R29, R299, R300, R432, R433, R550, Table 15.4 (08_write_lanes, 11_spindle_sled_moves)). LAYER_TURNAROUND at the
layer end of both heads turns them, applies the gain corrections of at most 6 dB and puts the start of the new layer
54 revolutions after the last band of the old one; 290 ms after the layer's last slot (after the turnaround, where
none was written) TURNAROUND_TIMEOUT stops recording unless both heads are SERVO_READY. A trim acts on a beam whose lanes
are on after bring-up: AFE_OFFSET_TRIM and READ_POWER_TRIM step their code by one towards the target, at most 32
LSB or 15 % from the calibrated value, and LASER_REFERENCE_TRIM sets WRITE and MID from the slope (the codes are
rounded freely, log entry 19), a WRITE code more than 12 % off retiring the beam; a trim that would go beyond
its limit is discarded. -/
def Obligations.TurnaroundsAndTrims : Prop :=
  ∀ (t : Time) (h : Head) (b : Beam) (s : State),
    let s1 := s.at t
    let u := s.beam h b
    (∀ (okA okB : Bool) (gains : List (LoopId × Nat)), s.mountedRW = true → s.atLayerEnd .a = true →
      s.atLayerEnd .b = true → ((s.wh .a).atEnd = true ∨ (s.wh .b).atEnd = true) → (s.wh .a).layer < 11 →
      s.rd.excursion = none → exec (.layerTurnaround t okA okB gains) s =
        .next ((gains.foldl State.gainTrim ((s1.turnHead .a okA).turnHead .b okB)).updRcd fun r => { r with
          turnAt := some (r.turnAt.getD s1.now), layerAt := r.layerAt.map (· + 48566666666) })) ∧
    (∀ a : Time, s.rcd.turnAt = some a → a + 290000000 ≤ s1.now →
      let v := s1.updRcd fun r => { r with turnAt := none }
      (s.servoReady .a = true → s.servoReady .b = true → exec (.turnaroundTimeout t) s = .next v) ∧
      (s.servoReady .a = false ∨ s.servoReady .b = false → exec (.turnaroundTimeout t) s = .next v.stopIfRecording)) ∧
    (s.trims h b = true →
      (∀ dev : Int,
        let want := if 32 < dev then u.adcOffset - 1 else if dev < -32 then u.adcOffset + 1 else u.adcOffset
        ((want - u.calOffset).natAbs ≤ 32 → exec (.afeOffsetTrim t h b dev) s =
          .next ((s1.updBeam h b fun x => { x with adcOffset := want }).trimKept h b 0)) ∧
        (32 < (want - u.calOffset).natAbs → exec (.afeOffsetTrim t h b dev) s = .next (s1.trimLost h b 0))) ∧
      (∀ mean : Nat,
        (mean * 100 ≤ u.readTarget * 102 → u.readTarget * 98 ≤ mean * 100 →
          exec (.readPowerTrim t h b mean) s =
            .next ((s1.updBeam h b fun x => { x with readCode := u.readCode }).trimKept h b 1)) ∧
        (mean * 100 < u.readTarget * 98 →
          let want := min 1023 (u.readCode + 1)
          (100 * ((want : Int) - u.calRead).natAbs ≤ 15 * u.calRead → exec (.readPowerTrim t h b mean) s =
            .next ((s1.updBeam h b fun x => { x with readCode := want }).trimKept h b 1)) ∧
          (15 * u.calRead < 100 * ((want : Int) - u.calRead).natAbs →
            exec (.readPowerTrim t h b mean) s = .next (s1.trimLost h b 1))) ∧
        (u.readTarget * 102 < mean * 100 →
          let want := u.readCode - 1
          (100 * ((want : Int) - u.calRead).natAbs ≤ 15 * u.calRead → exec (.readPowerTrim t h b mean) s =
            .next ((s1.updBeam h b fun x => { x with readCode := want }).trimKept h b 1)) ∧
          (15 * u.calRead < 100 * ((want : Int) - u.calRead).natAbs →
            exec (.readPowerTrim t h b mean) s = .next (s1.trimLost h b 1)))) ∧
      (∀ slope : Nat,
        let w := min 1023 (Config.startCode slope u.calSlope u.writeCode)
        let m := min 1023 (Config.startCode slope u.calSlope u.midCode)
        (100 * ((slope : Int) - u.calSlope).natAbs ≤ 30 * u.calSlope →
          100 * ((w : Int) - u.calWrite).natAbs ≤ 12 * u.calWrite → exec (.laserReferenceTrim t h b slope) s =
            .next ((s1.trimKept h b 2).updBeam h b fun x => { x with writeCode := w, midCode := m })) ∧
        (100 * ((slope : Int) - u.calSlope).natAbs ≤ 30 * u.calSlope →
          12 * u.calWrite < 100 * ((w : Int) - u.calWrite).natAbs → exec (.laserReferenceTrim t h b slope) s =
            .next ((s1.trimKept h b 2).retireBeam h b 2)) ∧
        (30 * u.calSlope < 100 * ((slope : Int) - u.calSlope).natAbs →
          exec (.laserReferenceTrim t h b slope) s = .next (s1.trimLost h b 2))))

/-- Lasers come back 5 ms after the pins settle, a declared opening ends the mount, and driver codes are sent and
checked (R317, R592, R641, R642, R650, R651, Table 8.5, Table 18.5 (08_write_lanes, 18_balls_supplies)).
LASER_REENABLE with both pins settled for 5 ms (DOOR_SENSE low and LASER_ARM asserted, log entry 25), the head's
release, its write-lane domain, forward rotation and no power failure sets the head's enable, LD_EN rises where VCORE
and the I/O supplies stand, and each lane goes to READ unless its driver is lost. DOOR_DECLARED_OPEN 5 ms after the rise ends the mount with DOOR_OPEN, parks
both heads and stops the spindle. An insertion and a removal set MAGAZINE. LDCFG_FRAME sends the frame of Table
18.5 and puts the code in force where the first or the second returned frame agrees, else it holds the lane at
OFF. -/
def Obligations.LaserChainCommands : Prop :=
  ∀ (t : Time) (h : Head) (s : State),
    let s1 := s.at t
    (s.pins.doorSince + 5000000 ≤ s1.now → s.pins.armSince + 5000000 ≤ s1.now → (s.hd h).release = true →
      s.pwr.domains.getLsbD (laneDomain h) = true → s.spin.reverse = false → s.pwr.pfStep < 5 →
      ∃ u : State, exec (.laserReenable t h) s = .next u ∧ (u.hd h).laserEnable = true ∧ u.pins.laserArm = true ∧
        u.pins.doorSense = false ∧ (s.pins.vcoreLow = false → s.ioFallen = false → u.ldEn h = true) ∧ u.spin = s.spin ∧ u.loop = s.loop ∧
        ∀ b : Beam, (u.beam h b).level = if (s.beam h b).driverLost = true then .off else .read) ∧
    (s.pins.doorSense = true → s.pins.doorRose + 5000000 ≤ s1.now →
      let u := (((s1.departMount .doorOpen).parkHead .a).parkHead .b).brakeSpindle
      exec (.doorDeclaredOpen t) s = .next (u.setMagazine (if u.pins.magPresent then 1 else 0)).endGroupM) ∧
    (exec (.magPresentChange t s.pins.magPresent) s = .next s1) ∧
    (s.pins.magPresent = false → exec (.magPresentChange t true) s =
      .next (((s1.updPins fun p => { p with magPresent := true }).updMnt fun m =>
        { m with stoppedByHost := false }).setMagazine (if s.pins.doorSense then 1 else 2))) ∧
    (s.pins.magPresent = true →
      let u := s1.updPins fun p => { p with magPresent := false }
      exec (.magPresentChange t false) s = .next (((if 3 ≤ s.mnt.magazine then
        ((u.departMount .magazineAbsent).parkHead .a).parkHead .b else u).brakeSpindle.setMagazine 0).endGroupM)) ∧
    (∀ (b : Beam) (l : Level) (code : BitVec 10) (e1 e2 : Word), l ≠ .off →
      s.pwr.domains.getLsbD (laneDomain h) = true →
      let w := ldcfgWord b l code
      let sent := s1.emit (.ldcfg h w)
      (w.toNat = b.val * 134217728 + Level.index l * 16777216 + code.toNat * 16384) ∧
      (e1 = w → exec (.ldcfgFrame t h b l code e1 e2) s = .next (sent.updBeam h b fun x => x.setCode l code.toNat)) ∧
      (e1 ≠ w → e2 = w → exec (.ldcfgFrame t h b l code e1 e2) s =
        .next ((sent.emit (.ldcfg h w)).updBeam h b fun x => x.setCode l code.toNat)) ∧
      (e1 ≠ w → e2 ≠ w → exec (.ldcfgFrame t h b l code e1 e2) s =
        .next (((sent.emit (.ldcfg h w)).updBeam h b fun x => { x with driverLost := true, level := .off }).retireInvalid)))

/-- Whatever opens the laser chain, every lane of both heads drives OFF at once and the head loops trip (R313, R314,
R315, R386, R401, R514, R515, Table 8.5, Table 10.3 (08_write_lanes, 10_loop_engine)). From every state
DOOR_SENSE_RISE, LASER_ARM_DEASSERT and QUILL_RELEASE_WITHDRAW answer a next state in which LD_EN of both heads
is low, every lane drives OFF and is selected OFF, firmware's enables are clear, and no sector in flight stays
without a cause to fail. A focus, tracking or tilt slot that was in RAMP, RUN or HOLD is in TRIP, with cause 4
where a pin opened the chain; a withdrawal also turns the spindle gates off and clears all three releases. -/
def Obligations.OpeningTheChainDarkensEveryLane : Prop :=
  ∀ (t : Time) (s : State),
    let dark := fun (u : State) => ∀ (h : Head) (b : Beam), u.ldEn h = false ∧ u.levelOf h b = .off ∧
      (u.beam h b).level = .off ∧ (u.hd h).laserEnable = false ∧ (u.hd h).captured = false ∧
      ∀ x ∈ (u.wh h).sectors, x.inFlight = true → x.doomed ≠ 0
    let tripped := fun (u : State) (cause : BitVec 3) => ∀ (h : Head) (r : Nat), r < 3 →
      (s.slot (headSlot h r)).active = true →
      (u.slot (headSlot h r)).mode = .trip ∧ (u.slot (headSlot h r)).cause = cause ∧ (u.slot (headSlot h r)).out = 0
    (∃ u : State, exec (.doorSenseRise t) s = .next u ∧ dark u ∧ tripped u 4 ∧ u.pins.doorSense = true ∧
      u.pins.doorRose = (s.at t).now) ∧
    (∃ u : State, exec (.laserArmDeassert t) s = .next u ∧ dark u ∧ tripped u 4 ∧ u.pins.laserArm = false) ∧
    (∃ u : State, exec (.quillReleaseWithdraw t) s = .next u ∧ dark u ∧ tripped u 5 ∧ u.hdA.release = false ∧
      u.hdB.release = false ∧ u.quill.motorRelease = false ∧ u.spin.gates = .off)

/-- Corrected bursts are written back, uncorrectable ones counted and contained, and the self-test opens or closes
Drey (R184, R186, R188, R190, R192, R196, R198, R199, Table 5.5, Table 5.7 (05_drey_buffers)). With the DDR5
domain on and not in self-refresh: a burst with a codeword that is only detected counts as uncorrectable; one
whose codewords all decode is written back, unless only the lost device's symbols were corrected or a newer
write drops it. DDR5_UNCORRECTABLE counts the burst and acts by its region. SCRUB_READ moves the patrol to the
next burst of the first 18 GiB once its interval has passed. The volume map is rebuilt from its records and the
lists from theirs (R252, R253 (06_volume_map_burrow)). The self-test at boot step 9 puts Drey in service where
nothing failed and out of service where its first steps fail. A burst beyond the first 18 GiB stops these two
commands by name (the model's bound). -/
def Obligations.DreyErrorsAndSelfTest : Prop :=
  ∀ (t : Time) (burst : Nat) (s : State),
    let s1 := s.at t
    (150994944 ≤ burst → (∀ beats newer, exec (.ddr5ReadCorrected t burst beats newer) s = .fault .outsideDrey) ∧
      ∀ region, exec (.ddr5Uncorrectable t burst region) s = .fault .outsideDrey) ∧
    (burst < 150994944 → s.pwr.domains.getLsbD 14 = true → s.dram.selfRefresh = false → s.pwr.pllLost.contains .ddr5 = false →
      ∀ (beats : List (List (BitVec 4))) (newer : Bool),
      (((ddrWords beats).mapM (ddrDecode s.dram.lost) = none) → exec (.ddr5ReadCorrected t burst beats newer) s =
        .next (s1.updDram fun x => { x with uncorrectable := satOne x.uncorrectable })) ∧
      ∀ good, (ddrWords beats).mapM (ddrDecode s.dram.lost) = some good →
        let devs := (List.zip (ddrWords beats) good).flatMap fun x => changedDevices x.1 x.2
        let lostOnly := devs.all fun d => (s.dram.lost.map (·.val)) == some d
        ∃ u : State, exec (.ddr5ReadCorrected t burst beats newer) s = .next u ∧
          u.dram.uncorrectable = s.dram.uncorrectable ∧
          u.dram.lastWriteBack = (if lostOnly || newer then s.dram.lastWriteBack
            else some (burst, good.flatMap fun w => (w.take 16).reverse)) ∧
          u.dram.dropped = (if !lostOnly && newer then s.dram.dropped + 1 else s.dram.dropped)) ∧
    (burst < 150994944 → s.pwr.domains.getLsbD 14 = true → s.dram.selfRefresh = false → s.pwr.pllLost.contains .ddr5 = false →
      let u := s1.updDram fun x => { x with uncorrectable := satOne x.uncorrectable }
      (areaOf burst = .frames → ∀ clip number,
        exec (.ddr5Uncorrectable t burst (.frame clip number)) s = .next (u.damageFrame clip number)) ∧
      (areaOf burst = .review → ∀ fn qid cid lsn twice, exec (.ddr5Uncorrectable t burst (.review fn qid cid lsn twice)) s =
        .next (u.damageReview fn qid cid lsn twice)) ∧
      (areaOf burst = .side → ∀ fn qid cid offset clip frame stream,
        exec (.ddr5Uncorrectable t burst (.side fn qid cid offset clip frame stream)) s =
          .next (u.damageSide fn qid cid offset clip frame stream)) ∧
      (areaOf burst = .assembly → ∀ psa,
        exec (.ddr5Uncorrectable t burst (.assembly psa)) s = .next (u.setPart psa .erased)) ∧
      (areaOf burst = .scurry → ∀ lsn, exec (.ddr5Uncorrectable t burst (.scurry lsn)) s = .next (u.dropScurryLsn lsn)) ∧
      (areaOf burst = .volumeMap → ∀ line, exec (.ddr5Uncorrectable t burst (.volumeMap line)) s =
        .next { u with vmap := { s.vmap with mem := Memory.writeAll s.vmap.mem (128 * line) (s.vmap.lineOfRecords (128 * line)) } }) ∧
      (areaOf burst = .lists →
        (exec (.ddr5Uncorrectable t burst .relocationList) s =
          .next (u.updBurrow fun b => { b with relocs := relocList s.vmap.records })) ∧
        (exec (.ddr5Uncorrectable t burst .accessList) s =
          .next (u.updBurrow fun b => { b with ranges := rangeList s.vmap.records })) ∧
        ∀ row, exec (.ddr5Uncorrectable t burst (.shadow row)) s = .next (u.updBurrow fun b => b.rebuildShadow row)) ∧
      (areaOf burst = .working → exec (.ddr5Uncorrectable t burst .working) s = .next u) ∧
      (areaOf burst = .selfTest → exec (.ddr5Uncorrectable t burst .selfTest) s = .next u)) ∧
    (s.pwr.domains.getLsbD 14 = true → s.dram.selfRefresh = false → s.pwr.pllLost.contains .ddr5 = false →
      ∀ (beats : List (List (BitVec 4))) (newer : Bool), s1.filled s.dram.patrol = true →
        (s.dram.lastScrub + s1.scrubInterval ≤ s1.now →
          exec (.scrubRead t beats newer) s = .next ((s1.readBurst s.dram.patrol beats newer).updDram fun x => { x with
            patrol := (x.patrol + 1) % 150994944, lastScrub := s1.now })) ∧
        (s1.now < s.dram.lastScrub + s1.scrubInterval → exec (.scrubRead t beats newer) s = .next s1)) ∧
    (s.quill.bootStep = 9 → s.pwr.domains.getLsbD 14 = true →
      (∃ u : State, exec (.memorySelfTest t {}) s = .next u ∧ u.rcd.drey.tested = true ∧
        u.dram.fillStart = some s1.now ∧ u.quill.bootStep = 10 ∧ u.dram.lost = s.dram.lost) ∧
      (∀ d, s.dram.lost = none → ∃ u : State, exec (.memorySelfTest t { failed := [d] }) s = .next u ∧
        u.rcd.drey.tested = true ∧ u.dram.lost = some d) ∧
      (∀ x : SelfTestSense, x.loopOk = false → ∃ u : State, exec (.memorySelfTest t x) s = .next u ∧
        u.rcd.drey.outOfService = true))

/-- Cache fills, write-backs and parity errors, and Burrow's read-back, probes, deletions, consolidation and result
parity (R217, R219, R220, R234, R237, R239, R241, R242, R245, R254, R255 (06_volume_map_burrow)).
With DDR5 served CACHE_FILL_COMPLETE fills the outstanding miss with the 128 bytes of its line and changes
nothing else, and EVICTION_WRITEBACK writes the oldest line of the eviction buffer back; CACHE_PARITY_ERROR on a
byte that fails its odd parity drops a dirty line and rebuilds it in DDR5, and reads a clean one again. With the
command core on, BURROW_READBACK of a row equal to its shadow goes to the next row every 10 us, and one that
differs retires the row; BURROW_PROBE counts to the end of its pass and diagnoses there; BURROW_DELETE clears the
row at a logical index; BURROW_CONSOLIDATE with fewer than 64 rows free replaces a block by one bucket row, and
with no row free clears one of the block first; BURROW_RESULT_PARITY asks for a read-back at once. -/
def Obligations.CacheAndBurrowKeepTheirTables : Prop :=
  ∀ (t : Time) (s : State),
    let s1 := s.at t
    let c := s.vmap.cache
    let b := s.vmap.burrow
    (∀ line : List Byte, c.miss = none → c.fill line = c) ∧
    (s1.dramServed = true →
      (∀ r : CacheReq, c.miss = some r → exec (.cacheFillComplete t) s =
        .next (s1.updCache fun x => x.fill (Memory.readAll s.vmap.mem (128 * (r.addr / 128)) 128))) ∧
      (∀ (x : Nat × List Byte) (rest : List (Nat × List Byte)), c.eviction = x :: rest →
        ∃ u : State, exec (.evictionWriteback t) s = .next u ∧ u.vmap.mem = Memory.writeAll s.vmap.mem x.1 x.2 ∧
          u.vmap.cache = { c with eviction := rest } ∧ u.vmap.records = s.vmap.records ∧ u.vmap.burrow = b)) ∧
    (∀ (byte : Byte) (parity : Bool), parity = oddParity byte → ∀ site, exec (.cacheParityError t site byte parity) s = .next s1) ∧
    (∀ (byte : Byte) (parity : Bool), parity ≠ oddParity byte →
      (∀ (set way : Nat) (l : CacheLine), c.lines.find? (fun x => x.set == set && x.way == way) = some l →
        let d := { c with lines := c.lines.filter fun x => !(x.set == set && x.way == way) }
        exec (.cacheParityError t (.line set way) byte parity) s = .next (if l.dirty then
          (s1.updCache fun _ => d).rebuildLine l.addr else s1.updCache fun _ => d.access { addr := l.addr, write := false })) ∧
      (∀ (i : Nat) (x : Nat × List Byte), c.eviction[i]? = some x → exec (.cacheParityError t (.eviction i) byte parity) s =
        .next ((s1.updCache fun y => { y with eviction := y.eviction.eraseIdx i }).rebuildLine x.1))) ∧
    (s.pwr.domains.getLsbD 4 = true → s.quill.recovery = false →
      (∀ (key mask : DWord) (valid : Bool), b.urgent = [] → dueAgain b.readAt 10000 s1.now = true →
        b.rebuilding.contains b.scanRow = false → b.suspects.contains b.scanRow = false →
        let w := b.shadowRow b.scanRow
        (w.valid = valid → w.key = key → w.mask = mask → ∃ u : State, exec (.burrowReadback t key mask valid) s = .next u ∧
          u.vmap.burrow.scanRow = (b.scanRow + 1) % Config.burrowPhysical ∧ u.vmap.burrow.rows = b.rows ∧
          u.vmap.burrow.shadow = b.shadow ∧ u.vmap.burrow.removed = b.removed ∧ u.vmap.burrow.readAt = some s1.now) ∧
        (w.valid ≠ valid ∨ w.key ≠ key ∨ w.mask ≠ mask → b.removed.contains b.scanRow = false →
          ∃ u : State, exec (.burrowReadback t key mask valid) s = .next u ∧
            u.vmap.burrow.removed = b.removed ++ [b.scanRow])) ∧
      (∀ (key mask : DWord) (valid : Bool) (row : Nat) (rest : List Nat), b.urgent = row :: rest →
        ∃ u : State, exec (.burrowReadback t key mask valid) s = .next u ∧ u.vmap.burrow.urgent = rest ∧
          u.vmap.burrow.scanRow = b.scanRow) ∧
      (∀ rows : List Nat, s.rcd.drey.outOfService = false → dueAgain b.probeAt 50000 s1.now = true →
        b.probe + 1 < b.probeKeys.length →
        ∃ u : State, exec (.burrowProbe t rows) s = .next u ∧ u.vmap.burrow.probe = b.probe + 1 ∧
          u.vmap.burrow.rows = b.rows ∧ u.vmap.burrow.shadow = b.shadow ∧
          (rowDiff (b.matchRows (b.probeKeys.getD b.probe 0) none) rows = [] → u.vmap.burrow.mismatches = b.mismatches)) ∧
      (∀ row : Nat, exec (.burrowDelete t row) s = .next (s1.updBurrow fun x => x.clear row) ∧
        ∀ x ∈ (b.clear row).rows, x.1 = b.physical row → x.2.valid = false) ∧
      (b.freeCount < 64 → b.block = none → exec (.burrowConsolidate t) s = .next s1) ∧
      (∀ p k : Nat, b.freeCount < 64 → b.block = some (p, k) →
        let gone := (b.live.filter fun x => (b.inBlock p k).contains x.1).map (·.2)
        let row : BurrowRow := { key := burrowKey 1 0 (k * 2 ^ (32 - p)), mask := burrowMask p, result := burrowResult 2 0 0 }
        let b1 := if b.freeCount = 0 then b.clear ((b.inBlock p k).headD 0) else b
        exec (.burrowConsolidate t) s = .next (s1.updBurrow fun _ => (b1.place row).clearAll gone.contains)) ∧
      (∀ row : Nat, b.urgent.contains row = false → b.badResult.contains row = false →
        exec (.burrowResultParity t row) s = .next (s1.updBurrow fun x => { x with
          urgent := x.urgent ++ [row], badResult := x.badResult ++ [row] })))

/-- The prefixes of an access range are aligned and cover exactly its LSNs (R224, R226 (06_volume_map_burrow)). For
every first LSN and count that end within the 2^32 LSNs, each prefix that R224 makes of the range has at most 32
cared bits and begins at a multiple of its size, and an LSN lies in one of the prefixes exactly when it lies in
the range: no LSN outside an access range is opened or closed by it, and none inside is missed. -/
def Obligations.AccessPrefixesCoverTheirRange : Prop :=
  ∀ first count : Nat, first + count ≤ 4294967296 →
    (∀ x ∈ prefixes 66 first count, x.2 ≤ 32 ∧ x.1 % 2 ^ (32 - x.2) = 0) ∧
      ∀ lsn : Nat, (∃ x ∈ prefixes 66 first count, x.1 ≤ lsn ∧ lsn < x.1 + 2 ^ (32 - x.2)) ↔ first ≤ lsn ∧ lsn < first + count

/-- A pace reading of each powered chain, the tick's rate and VCORE step, and the bridges' words, resets, overflows
and clock losses (R442, R443, R447, R452, R455, R457, R459, R461, R462, R463, R686, Table 12.7
(12_handshake_fabric)). PACE_WINDOW takes one reading of each chain whose domain was powered throughout the
window, and none otherwise. PACE_TICK gives R_pace, P_min and its domain, makes at most one VCORE request of 10
mV and checks the guaranteed rate. Words written into an armed bridge with room are delivered once and in order, a
full bridge takes none and one that is not armed discards and counts. A peer reset discards and counts the items
of the bridge and disarms it, an unplanned one is logged; the bridge re-arms when both sides have left reset, an
island no earlier than its PLL has lock. A word that meets a full bridge whose sender cannot be held off is counted
and logged where the receiver is below P = 1,000. A PLL that loses lock holds its island in reset with its bridges
disarmed, until it locks again. -/
def Obligations.PaceAndBridges : Prop :=
  ∀ (t : Time) (s : State),
    let s1 := s.at t
    (∀ counts : List Nat, exec (.paceWindow t counts) s =
      .next ((((((s1.paceRead 0 (counts.getD 0 0)).paceRead 1 (counts.getD 1 0)).paceRead 2 (counts.getD 2 0)).paceRead 3
        (counts.getD 3 0)).paceRead 4 (counts.getD 4 0)).paceRead 5 (counts.getD 5 0))) ∧
    (∀ (u : State) (i : Fin 6) (p : Nat), u.chainOn i = true → (u.pace.chains[i]).since + 10000 ≤ u.now →
      (u.pace.chains[i]).faulty = false → 0 < p → p ≤ 4000 → ((u.paceRead i p).pace.chains[i]).latest = p) ∧
    (∀ (u : State) (i : Fin 6) (p : Nat), u.chainOn i = false → u.paceRead i p = u) ∧
    (let m := s1.paceMin
     let u := s1.updPace fun x => { x with
       rate := BitVec.ofNat 32 (paceRate ((m.map (·.1)).getD 0)), min := BitVec.ofNat 16 ((m.map (·.1)).getD 0)
       minDomain := BitVec.ofNat 4 ((m.map (·.2)).getD 0) }
     exec (.paceTick t) s = .next (if u.vcoreStep ≠ 0 ∧ u.vole.alive = true ∧ u.pace.lastStep + 1000000 ≤ u.now then
       u.requestVcore ((u.pace.vcore : Int) + u.vcoreStep).toNat else u).checkGuarantee) ∧
    (∀ u : State, u.vcoreStep = 10 ∨ u.vcoreStep = 0 ∨ u.vcoreStep = -10) ∧
    (∀ (b : Bridge) (ws : List Nat), b.armed = true → b.words.length + ws.length ≤ bridgeDepth b.number →
      let c := ws.foldl Bridge.write b
      c.words = b.words ++ ws ∧ c.flushed = b.flushed ∧
        (b.words = [] → ∀ w rest, ws = w :: rest → c.read.1 = some w ∧ c.read.2.words = rest)) ∧
    (∀ (b : Bridge) (w : Nat), (b.armed = true → b.full = true → b.write w = b) ∧
      (b.armed = false → (b.write w).words = b.words ∧ (b.write w).flushed = satAdd b.flushed 1)) ∧
    (∀ (n items : Nat) (side : Side), bridgeExists n = true →
      let k := (s.bridge n).words.length + items
      let u := s1.updBridge n fun b => { b with
        words := [], wr := 0, rd := 0, armed := false, flushed := satAdd b.flushed k
        fabricReset := b.fabricReset || side == .fabric, islandReset := b.islandReset || side == .island }
      let v := u.lostItems n k
      exec (.peerResetAssert t n side items false) s = .next (v.log 0x0601 [arg n, (match side with
        | .fabric => 0
        | .island => 1), arg k, (v.bridge n).flushed]) ∧
      ∃ w : State, exec (.peerResetAssert t n side items true) s = .next w ∧ (w.bridge n).armed = false ∧
        (w.bridge n).words = [] ∧ w.vole = s.vole) ∧
    (∀ (n : Nat) (side : Side), bridgeExists n = true → side = .fabric ∨ s.islandHeld n = false →
      exec (.peerResetDeassert t n side) s = .next (s1.updBridge n fun b => (b.setReset side false).arm)) ∧
    (∀ (n : Nat), bridgeExists n = true → s.islandHeld n = true → exec (.peerResetDeassert t n .island) s = .next s1) ∧
    (∀ b : Bridge, b.arm.armed = true ↔ b.fabricReset = false ∧ b.islandReset = false) ∧
    (∀ n : Nat, canOverflow n = true → (s.bridge n).armed = true → s.receiverPace n < 1000 →
      let u := s1.updBridge n fun b => { b with overflows := satAdd b.overflows 1 }
      exec (.bridgeOverflow t n) s = .next ((u.lostItems n 1).log 0x0602 [arg n, (u.bridge n).overflows])) ∧
    (∀ n : Nat, canOverflow n = true → (s.bridge n).armed = true → 1000 ≤ s.receiverPace n →
      exec (.bridgeOverflow t n) s = .next s1) ∧
    (∀ i : Island, s.pwr.pllLost.contains i = false → exec (.pllLockLoss t i) s =
      .next (((islandBridges i).foldl (fun u n => u.updBridge n fun b => { b with armed := false, islandReset := true })
        (s1.updPwr fun w => { w with pllLost := putIsland i w.pllLost })).islandLost i)) ∧
    (∀ i : Island, s.pwr.pllLost.contains i = true → exec (.pllRelock t i) s =
      .next ((islandBridges i).foldl (fun u n => u.updBridge n fun b => { b with armed := !b.fabricReset, islandReset := false })
        (s1.updPwr fun w => { w with pllLost := w.pllLost.erase i })))

/-- Transitions start, go on step by step and exit through PARK; wake pins, storms, replay and the rails' retry act
as Dormouse says (R473, R476, R478, R482, R485, R487, R489, R490, R496, R500, Table 13.7 (13_power_states)).
With no transition, no WAKE latched and no power failure the pending target starts, PEND first. A step that has
completed its sequence ends and the next begins. An exit whose rails stand and whose link trains makes PGOOD high
and reaches PARK, whatever its boot and self-test find. A pin edge below 2 us or of a masked pin makes no event; an accepted wake event outside RUN starts a transition to
RUN; a PSREQ_N edge requests TORPOR or HIBERNATE by PSSEL unless a clip holds the part awake. A latched WAKE is
replayed after the entry. F3 re-arms masked pins. PGOOD missing after 10 ms lowers both enables; 100 ms later
they rise once more. -/
def Obligations.PowerTransitions : Prop :=
  ∀ (t : Time) (s : State),
    let s1 := s.at t
    (s.pwr.running = none → s.pwr.wake = none → s.pwr.pfStep = 0 →
      (∀ p, s.pwr.pend = some p → exec (.powerTransitionStart t) s =
        .next ((s1.updPwr fun w => { w with pend := none }).beginTransition p [] true 3)) ∧
      (∀ p, s.pwr.pend = none → s.pwr.pending = some p → exec (.powerTransitionStart t) s =
        .next ((s1.updPwr fun w => { w with pending := none, pendBy := [] }).beginTransition p s.pwr.pendBy false
          (wakeCode s.pwr.pendBy)))) ∧
    (∀ k, s.pwr.step = some k → (s1.stepDone k = true → exec (.powerTransitionStepEnd t) s = .next ((s1.endStep k).goOn)) ∧
      (s1.stepDone k = false → exec (.powerTransitionStepEnd t) s = .next s1)) ∧
    (∀ (deep ok kat octal : Bool) (test : SelfTestSense) (rate width : Nat), s.pwr.step = some (.exiting deep) →
      s.pwr.railMain = true → linkTrains rate width = true →
      ∃ u : State, exec (.torporHibernateExit t ok kat octal test rate width) s = .next u ∧ u.pwr.state = .park ∧
        u.pins.pgood = true ∧ u.pins.vcoreLow = false) ∧
    (∀ (second : Bool) (low : Nat), low < 2000 ∨ s.pwr.storm[(if second then 1 else 0 : Fin 3)] = true →
      exec (.wakePinEdge t second low) s = .next s1) ∧
    (∀ (second : Bool) (low : Nat),
      let r := s1.pinEdge (if second then 1 else 0) low
      r.2 = true → s.pwr.running = none → s.pwr.state ≠ .run → s.pwr.pfStep = 0 → exec (.wakePinEdge t second low) s =
        .next (r.1.beginTransition .run [] false (if second then 2 else 1))) ∧
    (∀ (low : Nat) (sel : Bool),
      let r := (s1.updPins fun p => { p with pssel := sel }).pinEdge 2 low
      r.2 = true → s.pwr.pfStep = 0 →
      (s.holdsAwake = false → exec (.psreqEdge t low sel) s =
        .next (r.1.requestPower (if sel then .hibernate else .torpor) .pin)) ∧
      (s.holdsAwake = true → exec (.psreqEdge t low sel) s = .next (r.1.log 0x0605 [2]))) ∧
    (∀ p, s.pwr.wake = some p → s.pwr.running = none → s.pwr.state ≠ .run → s.pwr.pending ≠ some .run →
      exec (.wakeReplay t) s = .next ((s1.updPwr fun w => { w with
        wake := none, pend := if w.pend = some .run then none else w.pend }).beginTransition .run [] true
          (if p = .wake1 then 2 else 1))) ∧
    (∀ v : Word, (s.func 3).ready = true → ∃ u : State, exec (.wakeRearm t 3 v) s = .next u ∧ u.host = s.host ∧
      ∀ i : Fin 3, u.pwr.storm[i] = (s.pwr.storm[i] && !v.getLsbD i.val)) ∧
    (∀ (fn : FnId) (v : Word), fn ≠ 3 → (s.func fn).ready = true → exec (.wakeRearm t fn v) s = .next s1) ∧
    (∀ deep, s.pwr.step = some (.exiting deep) → s.pwr.railMain = true → s.pins.pgood = false →
      s.pwr.exitAt + 10000000 ≤ s1.now → ∃ u : State, exec (.pgoodTimeout t) s = .next u ∧ u.pwr.railCore = false ∧
        u.pwr.railMain = false ∧ u.pwr.state = .hibernate ∧ u.pwr.railRetry = decide (s.pwr.railFails = 0) ∧
        (s.pwr.railFails ≠ 0 → u.pwr.running = none ∧ u.pwr.step = none ∧ u.pwr.railLog = s.pwr.railLog ++ [0, 1])) ∧
    (s.pwr.railRetry = true → s.pwr.exitAt + 100000000 ≤ s1.now → ∃ u : State, exec (.railEnableRetry t) s = .next u ∧
      u.pwr.railCore = true ∧ u.pwr.railMain = true ∧ u.pwr.exitAt = s1.now ∧ u.pwr.railRetry = false)

/-- A power failure runs its sequence and leaves the part safe and unmounted; PGOOD and VCORE losses take effect at
once (R499, R584, R585, R586, R599, R611, R636, R656, R682, R683, Table 16.3). PWRFAIL_N low for less than 0.5
us changes nothing; from 1 us on it freezes the log and, in RUN and DOZE, begins the sequence of Table 16.3;
from 5.5 ms on its last steps leave every laser enable clear, the spindle gates off and nothing mounted, and its
de-assertion runs a sequence to that end and lets fetch go on. In another state the level is only noted. A fall
of PGOOD acts as a PERST_N assertion where rails are enabled and no sequence runs. VCORE below 0.55 V turns
every lane and gate off. -/
def Obligations.PowerFailures : Prop :=
  ∀ (t : Time) (s : State),
    let s1 := s.at t
    let v := (s1.updPins fun p => { p with pwrfail := true }).updVole fun x => { x with frozen := true }
    let safe := fun u : State => u.pwr.pfStep = 6 ∧ u.spin.gates = .off ∧ u.mounted = false ∧
      ∀ h : Head, (u.hd h).laserEnable = false ∧ u.ldEn h = false ∧ ∀ b : Beam, u.levelOf h b = .off
    (∀ low : Nat, low < 500 → exec (.powerFail t low) s = .next s1) ∧
    (∀ low : Nat, 1000 ≤ low → s.pwr.pfStep = 0 → (s.pwr.state = .run ∨ s.pwr.state = .doze) →
      exec (.powerFail t low) s = .next v.powerFailBegin) ∧
    (∀ low : Nat, 1000 ≤ low → s.pwr.pfStep = 0 → s.pwr.state ≠ .run → s.pwr.state ≠ .doze →
      exec (.powerFail t low) s = .next v) ∧
    (∀ low : Nat, 1000 ≤ low → s.pwr.pfStep = 4 → s.pwr.pfAt + 5500000 ≤ s1.now →
      ∃ u : State, exec (.powerFail t low) s = .next u ∧ safe u) ∧
    (∀ u : State, safe u.powerFailEnd) ∧
    (s.pins.pwrfail = true → ∃ u : State, exec (.pwrfailDeassert t) s = .next u ∧ u.pins.pwrfail = false ∧
      u.vole.frozen = false ∧ u.host.fetchStopped = false ∧ u.pwr.pfStep = 0 ∧
      (s.pwr.pfStep = 4 → u.mounted = false ∧ u.spin.gates = .off)) ∧
    (s.pins.pgood = true → s.pwr.railsUp ≠ [] → s.pwr.state ≠ .torpor → s.pwr.state ≠ .hibernate →
      s1.inPowerFail = false → exec (.pgoodFall t) s = .next (((s1.updPins fun p => { p with pgood := false }).updPwr fun w =>
        { w with railLog := (w.railLog ++ w.railsUp) }).assertPerst)) ∧
    (∃ u : State, exec (.vcoreLowDetect t) s = .next u ∧ u.spin.gates = .off ∧
      ∀ (h : Head) (b : Beam), u.levelOf h b = .off ∧ u.ldEn h = false ∧ u.actEn h = false)

/-- Generator failure, LK, the test port, Vole's restart, sensor readings and the programming of the log (R505,
R506, R507, R529, R602, R607, R608, R609, R625, R626 (14_quill_secure_start, 17_vole_management)). RBG_FAIL is
noted and logged. LK is programmed once and locked when its 36 bytes check and read back, and refused with cause
3 once locked. The test port shifts out 20360F5Bh for IDCODE, treats every other instruction as BYPASS until an
unlock, and stops by name on others after it (what they do stands in no section). A Vole restart drops queued
records and logs VOLE_RESTART. A junction reading within its limits is kept without an event. The oldest record
goes to flash, a sector that fails is marked bad; dropped events are reported after the window. -/
def Obligations.QuillAndVoleKeepTheirRecords : Prop :=
  ∀ (t : Time) (s : State),
    let s1 := s.at t
    let served := s.portsServed = true ∧ s.vole.uartBusy = false
    (s.quill.rbgOk = true →
      exec (.rbgFail t) s = .next ((s1.updQuill fun x => { x with rbgOk := false }).log 0x0701 [])) ∧
    (∀ (p : List Byte) (ok : Bool), served → s.quill.lkLocked = true →
      exec (.lkProgram t p ok) s = .next ((s1.log 0x0702 [3]).uartAnswer 0x90 [3])) ∧
    (∀ p : List Byte, served → s.quill.lkLocked = false → s.quill.lkBad = false → p.length = 36 →
      (crc32 (p.take 32)).toNat = Word.fieldLE p 32 4 → exec (.lkProgram t p true) s =
        .next ((s1.updQuill fun x => { x with lk := some (p.take 32), lkLocked := true }).uartAnswer 0x90 [0])) ∧
    (exec (.jtagTapAccess t .idcode) s = .next (s1.emit (.tdo 0x20360F5B))) ∧
    (exec (.jtagTapAccess t .bypass) s = .next s1) ∧
    (∀ n : Nat, s.quill.unlock = 0 → exec (.jtagTapAccess t (.other n)) s = .next s1) ∧
    (∀ n : Nat, s.quill.unlock ≠ 0 → exec (.jtagTapAccess t (.other n)) s = .refused .unlockedTapInstruction) ∧
    (s.vole.alive = true → ∃ (u : State) (r : LogRecord), exec (.voleHeartbeatTimeout t) s = .next u ∧
      u.vole.queue = [r] ∧ r.code = 0x0908 ∧ r.args = [arg (s.vole.restarts + 1)] ∧ u.vole.restarts = s.vole.restarts + 1 ∧
      u.vole.windowCount = 1 ∧ u.vole.sectors = s.vole.sectors ∧ u.quill = s.quill ∧ u.host = s.host) ∧
    (∀ (i : Fin 8) (x : Int), s.vole.alive = true → -320 ≤ x → x < 960 → exec (.sensorSample t (.junction i x)) s =
      .next (s1.updVole fun v => { v with readings := Vec.upd v.readings (Fin.ofNat 25 i.val) fun _ => some x })) ∧
    (∀ (r : LogRecord) (rs : List LogRecord), s.vole.queue = r :: rs → s.vole.alive = true → s.vole.frozen = false →
      s.vole.badCount ≤ 16 →
      exec (.logProgram t true) s = .next (s1.updVole fun v => v.program s.vole.nextSector r) ∧
      (s.vole.program s.vole.nextSector r).queue = rs ∧
      ∃ v : State, exec (.logProgram t false) s = .next (v.log 0x0907 [arg s.vole.nextSector]) ∧
        (v.vole.sector s.vole.nextSector).bad = true ∧ v.vole.queue = s.vole.queue) ∧
    (s.vole.alive = true → s.vole.windowAt + 1000000000 ≤ s1.now →
      let u := s1.updVole fun v => { v with windowCount := 0, windowDropped := 0, windowAt := v.windowAt + 1000000000 }
      (s.vole.windowDropped = 0 → exec (.logWindowEnd t) s = .next u) ∧
      (s.vole.windowDropped ≠ 0 →
        exec (.logWindowEnd t) s = .next (u.createRecord 0x0906 [arg s.vole.windowDropped])))

/-- The I2C target, the I2C controller and the service port answer as their tables say (R600, R616, R617, R618,
R619, R620, R621, R622, R623, Table 17.6, Table 17.7 (17_vole_management)). Where the ports are served: a write
sets the register pointer, LOG_PTR takes its value, and a read to the end of LOG_RECORD sends the registers from
the pointer on and adds 1 to LOG_PTR. A controller transaction that times out recovers the bus and counts; an
address that answers again is cleared, and a power management IC is sent the VCORE request that stands. A service port request is answered once, a busy port sends a NAK: BAUD
changes the rate for the three rates, ARCHIVE_WRITE collects 1 to 4,096 bytes within the section, ARCHIVE_COMMIT
programs a valid section, LOG_READ sends the records asked for, a command frame runs as a command of F3, a bad
frame gets a NAK and a gap discards what has arrived. -/
def Obligations.ManagementPortsAnswer : Prop :=
  ∀ (t : Time) (s : State),
    let s1 := s.at t
    let served := s.portsServed = true ∧ s.vole.uartBusy = false
    (∀ p : Byte, s.portsServed = true → exec (.i2cPointerWrite t [p]) s = .next (s1.updVole fun v => { v with pointer := p })) ∧
    (∀ d : DWord, s.portsServed = true → exec (.logPtrWrite t d) s = .next (s1.updVole fun v => { v with logPtr := d })) ∧
    (s.portsServed = true → s.vole.pointer.toNat < 128 → exec (.logRecordReadEnd t) s =
      .next ((s1.emit (.i2cRead s.vole.pointer.toNat (s1.i2cTarget.drop s.vole.pointer.toNat))).updVole fun v =>
        { v with pointer := 0x80, logPtr := v.logPtr + 1 })) ∧
    (∀ a : BitVec 7, s.vole.alive = true →
      exec (.i2cTransactionTimeout t a) s = .next ((s1.emit .i2cRecover).countI2cFail a)) ∧
    (∀ a : BitVec 7, s.vole.alive = true → s.vole.unreachable.contains a = true →
      ∃ u : State, exec (.i2cAddressRetry t a true) s = .next u ∧ u.vole.unreachable.contains a = false ∧
        exec (.i2cAddressRetry t a false) s = .next s1 ∧
        ∀ p, s.vole.pmic = some p → p.1 = a → ∃ (v : State) (bs : List Byte), s.vole.vcoreBytes s.pace.vcore = some bs ∧
          exec (.i2cAddressRetry t a true) s = .next (v.emit (.vcoreRequest s.pace.vcore bs))) ∧
    (∀ p : List Byte, s.portsServed = true → s.vole.uartBusy = true → exec (.uartBaud t p) s = .next (s1.uartAnswer 0xFF [])) ∧
    (∀ p : List Byte, served → p.length = 4 →
      (Word.fieldLE p 0 4 = 115200 ∨ Word.fieldLE p 0 4 = 921600 ∨ Word.fieldLE p 0 4 = 3000000) →
      exec (.uartBaud t p) s = .next ((s1.uartAnswer 0x82 [0]).updVole fun v => { v with baud := Word.fieldLE p 0 4 })) ∧
    (∀ p : List Byte, served → s.mounted = false → 5 ≤ p.length → p.length ≤ 4100 →
      Word.fieldLE p 0 4 + (p.length - 4) ≤ 262144 → exec (.archiveWrite t p) s =
        .next ((s1.updVole fun v => { v with archiveData := v.archiveData ++ [(Word.fieldLE p 0 4, p.drop 4)] }).uartAnswer
          0x91 [0])) ∧
    (∀ p : List Byte, served → s.mounted = true → exec (.archiveWrite t p) s = .next (s1.uartAnswer 0x91 [2])) ∧
    (served → s.mounted = false → regionValid s.vole.archiveImage = true → exec (.archiveCommit t true) s =
      .next ((s1.updVole fun v => { v with integrator := s.vole.archiveImage }).uartAnswer 0x92 [0])) ∧
    (∀ ok : Bool, served → s.mounted = false → regionValid s.vole.archiveImage = false →
      exec (.archiveCommit t ok) s = .next (s1.uartAnswer 0x92 [1])) ∧
    (∀ p : List Byte, served → exec (.logRead t p) s = .next (s1.uartAnswer 0x93
      (s.vole.recordsFrom (Word.fieldLE p 0 8) (min 64 (Word.fieldLE p 8 1))))) ∧
    (∀ (p : List Byte) (scan : MountScan) (a : BitVec 31), s.uartServed = true → s.host.fetchStopped = false →
      (s.vole.uartBusy = true → exec (.uartCommand t p scan a) s = .next (s1.uartAnswer 0xFF [])) ∧
      (s.vole.uartBusy = false → exec (.uartCommand t p scan a) s = .next (s1.uartCommand p scan a))) ∧
    (∀ crc : Bool, s.uartServed = true → crc = true ∨ s.vole.uartBusy = true → exec (.uartBadFrame t crc) s =
      .next ((s1.updVole fun v => { v with uartPartial := false }).uartAnswer 0xFF [])) ∧
    (s.uartServed = true → exec (.uartFrameGap t) s = .next (s1.updVole fun v => { v with uartPartial := false }))

/-- Calibration steps start and end, FSYNC and LTC are followed, and registers are read with captures and written in
their windows (R91, R132, R136, R393, R535, R538, R540, R552, R675, R678, R679). A pending step whose needs are
done starts in RUN or reports its failing mask, and ends passed or discarded; a lost precondition aborts it.
Group M starts with door and magazine. An FSYNC edge is accepted 4.0 ms after the last and latches the time
address; timecode is valid after two frames and lost after three frame times. 32-bit reads of the commit point
and of the deficit capture their other words, which are returned once, and 64-bit reads return both words; the
weights read alike through every function, doorbells and reserved words read 0. Register writes reach the weights
through F3 only, the event registers, the shadow of a loop slot and PHASE_STEP while domain 7 is on, and no
read-only word; one at an offset that is no multiple of 4 is ignored (log entry 161), and one outside its window
stops by name (the model's bound). -/
def Obligations.CalibrationTimeAndRegisters : Prop :=
  ∀ (t : Time) (s : State),
    let s1 := s.at t
    (∀ (n : Nat) (h : Head) (b : Beam), (s.calUnit n h b).status.waits = true → s1.needsDone n h b = true →
      s.pwr.state = .run → s.pwr.step ≠ some .runToDoze →
      (s1.failing n h = 0 → exec (.calStepStart t n h b) s =
        .next (((s1.setUnit n h b .running).beginStep n).followBringup)) ∧
      (s1.failing n h ≠ 0 → exec (.calStepStart t n h b) s =
        .next ((s1.setUnit n h b (.notRun (BitVec.ofNat 32 (s1.failing n h)))).followBringup))) ∧
    (∀ (n : Nat) (h : Head) (b : Beam) (m : CalMeasure), (s.calUnit n h b).status.runs = true → s1.stepWorked n = true →
      (s1.discards n h b m = false → exec (.calStepEnd t n h b m) s =
        .next (((s1.stepPasses n h b m).settleCalibrate n h b).followBringup)) ∧
      (s1.discards n h b m = true → exec (.calStepEnd t n h b m) s =
        .next (((s1.stepFails n h b m).settleCalibrate n h b).followBringup))) ∧
    (∀ (n : Nat) (h : Head) (b : Beam) (mask : Word), (s.calUnit n h b).status.runs = true →
      s1.calibrateOf n h b = none →
      let lost := Nat.land (Nat.land mask.toNat (Nat.lor (stepNeeds n) 0)) (Nat.lor (s1.falseMask h) 16)
      (lost ≠ 0 → exec (.calPreconditionLost t n h b mask) s =
        .next ((s1.setUnit n h b (.aborted (BitVec.ofNat 32 lost))).followBringup)) ∧
      (lost = 0 → exec (.calPreconditionLost t n h b mask) s = .next s1)) ∧
    (s1.doorClosed.doorHolds = true → 2 ≤ s1.doorClosed.mnt.magazine → s1.doorClosed.cal.groupM = false →
      s1.doorClosed.quill.bootStep = 11 → s1.doorClosed.quill.recovery = false → exec (.groupMStart t) s =
        .next ((((s1.doorClosed.updCal fun c => { c with groupM := true }).setSteps groupM .pending).followBringup).autoStart)) ∧
    (∀ (high angle : Nat), 100 ≤ high → s.servoOn = true → (∀ e, s.sync.lastEdge = some e → e + 4000000 ≤ s1.now) →
      ∃ u : State, exec (.fsyncEdge t high angle) s = .next u ∧ u.sync.lastEdge = some s1.now ∧
        u.sync.latched = (if s.sync.validAt s1.now then s.sync.address else 0x80) ∧
        ∀ e, s.sync.lastEdge = some e → u.sync.period = BitVec.ofNat 32 ((s1.now - e) / 1000)) ∧
    (∀ (high angle : Nat) (e : Time), 100 ≤ high → s.servoOn = true → s.sync.lastEdge = some e → s1.now < e + 4000000 →
      exec (.fsyncEdge t high angle) s = .next (s1.updSync fun y => { y with ignored := satOne y.ignored })) ∧
    (∀ (a : TimeAddress) (rate : Nat), 1700 ≤ rate → rate ≤ 2700 → s.coreOn = true → ∃ v : Bool, exec (.ltcFrameDecoded t a rate) s =
      .next (s1.updSync fun y => { y with address := timecodeField a, syncAt := some s1.now, bitRate := rate, valid := v }) ∧
      (v = true ↔ s.sync.validAt s1.now = true ∨ ∃ e, s.sync.syncAt = some e ∧ s1.now ≤ e + bitTime 120 s.sync.bitRate)) ∧
    (∀ e, s.sync.syncAt = some e → e + bitTime 240 s.sync.bitRate ≤ s1.now →
      exec (.timecodeLoss t) s = .next (s1.updSync fun y => { y with valid := false })) ∧
    (∀ fn : FnId, (s.func fn).ready = true →
      (∀ v : Word, exec (.eventPendingClear t fn v) s = .next (s1.updFunc fn fun u => { u with
        eventPending := u.eventPending &&& ~~~(v.setWidth 8) })) ∧
      (exec (.commitPointRead32 t fn) s = .next ((s1.emit (.readValue fn 0x100 s1.commitClipWord)).updFunc fn fun u =>
        { u with captures := { u.captures with commitFrames := some s1.commitFramesWord } })) ∧
      (exec (.deficitRead32 t fn) s = .next ((s1.emit (.readValue fn 0x118 s.rcd.drey.inRate)).updFunc fn fun u =>
        { u with captures := { u.captures with outRate := some s.rcd.drey.outRate, timeToFull := some s.rcd.drey.timeToFull } })) ∧
      (∀ w, (s.func fn).captures.commitFrames = some w → exec (.capturedFieldRead t fn 0x104) s =
        .next ((s1.emit (.readValue fn 0x104 w)).updFunc fn fun u =>
          { u with captures := { u.captures with commitFrames := none } })) ∧
      (∀ v : Word, exec (.registerWrite t (.bar0 fn) 0x114 v) s = .next (s1.updFunc fn fun u =>
        { u with eventEnable := v.setWidth 8, eventVector := BitVec.ofNat 6 (fieldOf v 21 16) })) ∧
      (∀ v : Word, exec (.registerWrite t (.bar0 fn) 0x10C v) s = .next s1) ∧
      (∀ (v : Word) (off : Nat), off % 4 ≠ 0 → off < 0x10000 → exec (.registerWrite t (.bar0 fn) off v) s = .next s1) ∧
      (∀ v : Word, fn ≠ 3 → exec (.registerWrite t (.bar0 fn) 0x400 v) s = .next s1) ∧
      (∀ v : Word, fn = 3 → exec (.registerWrite t (.bar0 fn) 0x400 v) s = .next (s1.updHost fun x => { x with
        arb := { x.arb with w0 := v.extractLsb' 0 8, w1 := v.extractLsb' 8 8, w2 := v.extractLsb' 16 8
                            w3 := v.extractLsb' 24 8 } }))) ∧
    (∀ fn : FnId, s.readBar0Wide fn 0x100 = s.commitFramesWord ++ s.commitClipWord ∧
      s.readBar0Wide fn 0x118 = s.rcd.drey.outRate ++ s.rcd.drey.inRate ∧
      s.readBar0 fn 0x400 = s.host.arb.w3 ++ s.host.arb.w2 ++ s.host.arb.w1 ++ s.host.arb.w0 ∧
      (∀ off : Nat, 0x1000 ≤ off → off < 0x2000 → s.readBar0 fn off = 0) ∧
      ∀ off : Nat, 0x9000 ≤ off → s.readBar0 fn off = 0) ∧
    (∀ (fn : FnId) (v : Word), (s.func fn).ready = false →
      exec (.registerWrite t (.bar0 fn) 0x114 v) s = .next (s1.emit (.discarded fn)) ∧
      exec (.eventPendingClear t fn v) s = .next (s1.emit (.discarded fn))) ∧
    (∀ v : Word, s.servoOn = true →
      (exec (.registerWrite t .loopEngine 0x408 v) s = .next (s1.updLoop fun e => { e with phaseStep := v })) ∧
      ∀ i : LoopId, exec (.registerWrite t .loopEngine (i.val * 64 + 4) v) s = .next (s1.updSlot i fun k => { k with
        shadow := { k.shadow with kp := v.extractLsb' 16 16, ki := v.extractLsb' 0 16 } })) ∧
    (∀ (fn : FnId) (off : Nat) (v : Word), (0x10000 ≤ off → exec (.registerWrite t (.bar0 fn) off v) s = .fault .outsideWindow) ∧
      (0x4000 ≤ off → exec (.registerWrite t (.bar2 fn) off v) s = .fault .outsideWindow) ∧
      (0x40C ≤ off → exec (.registerWrite t .loopEngine off v) s = .fault .outsideWindow))
end

