-- ==== Sys2Proof/Laws/State.lean ====
section
/-! SUPPORT. One lemma per field and update of State: what each of the named updates changes, and that it leaves every
other field as it was. Later proofs cite these and never unfold an update. -/

namespace Sys2Proof.Machine

@[simp] theorem State.at_pending (s : State) (t : Time) : (s.at t).pending = s.pending := (rfl)
@[simp] theorem State.at_perstAt (s : State) (t : Time) : (s.at t).perstAt = s.perstAt := (rfl)
@[simp] theorem State.at_host (s : State) (t : Time) : (s.at t).host = s.host := (rfl)
@[simp] theorem State.at_rcd (s : State) (t : Time) : (s.at t).rcd = s.rcd := (rfl)
@[simp] theorem State.at_mnt (s : State) (t : Time) : (s.at t).mnt = s.mnt := (rfl)
@[simp] theorem State.at_vmap (s : State) (t : Time) : (s.at t).vmap = s.vmap := (rfl)
@[simp] theorem State.at_rd (s : State) (t : Time) : (s.at t).rd = s.rd := (rfl)
@[simp] theorem State.at_dram (s : State) (t : Time) : (s.at t).dram = s.dram := (rfl)
@[simp] theorem State.at_loop (s : State) (t : Time) : (s.at t).loop = s.loop := (rfl)
@[simp] theorem State.at_spin (s : State) (t : Time) : (s.at t).spin = s.spin := (rfl)
@[simp] theorem State.at_hdA (s : State) (t : Time) : (s.at t).hdA = s.hdA := (rfl)
@[simp] theorem State.at_hdB (s : State) (t : Time) : (s.at t).hdB = s.hdB := (rfl)
@[simp] theorem State.at_cal (s : State) (t : Time) : (s.at t).cal = s.cal := (rfl)
@[simp] theorem State.at_pins (s : State) (t : Time) : (s.at t).pins = s.pins := (rfl)
@[simp] theorem State.at_sync (s : State) (t : Time) : (s.at t).sync = s.sync := (rfl)
@[simp] theorem State.at_pace (s : State) (t : Time) : (s.at t).pace = s.pace := (rfl)
@[simp] theorem State.at_bridges (s : State) (t : Time) : (s.at t).bridges = s.bridges := (rfl)
@[simp] theorem State.at_pwr (s : State) (t : Time) : (s.at t).pwr = s.pwr := (rfl)
@[simp] theorem State.at_quill (s : State) (t : Time) : (s.at t).quill = s.quill := (rfl)
@[simp] theorem State.at_vole (s : State) (t : Time) : (s.at t).vole = s.vole := (rfl)
@[simp] theorem State.at_params (s : State) (t : Time) : (s.at t).params = s.params := (rfl)
@[simp] theorem State.at_now (s : State) (t : Time) : (s.at t).now = max s.now t := (rfl)

@[simp] theorem State.updHd_pending (s : State) (h : Head) (f : HeadState → HeadState) : (s.updHd h f).pending = s.pending := by cases h <;> rfl
@[simp] theorem State.updHd_now (s : State) (h : Head) (f : HeadState → HeadState) : (s.updHd h f).now = s.now := by cases h <;> rfl
@[simp] theorem State.updHd_perstAt (s : State) (h : Head) (f : HeadState → HeadState) : (s.updHd h f).perstAt = s.perstAt := by cases h <;> rfl
@[simp] theorem State.updHd_host (s : State) (h : Head) (f : HeadState → HeadState) : (s.updHd h f).host = s.host := by cases h <;> rfl
@[simp] theorem State.updHd_rcd (s : State) (h : Head) (f : HeadState → HeadState) : (s.updHd h f).rcd = s.rcd := by cases h <;> rfl
@[simp] theorem State.updHd_mnt (s : State) (h : Head) (f : HeadState → HeadState) : (s.updHd h f).mnt = s.mnt := by cases h <;> rfl
@[simp] theorem State.updHd_vmap (s : State) (h : Head) (f : HeadState → HeadState) : (s.updHd h f).vmap = s.vmap := by cases h <;> rfl
@[simp] theorem State.updHd_rd (s : State) (h : Head) (f : HeadState → HeadState) : (s.updHd h f).rd = s.rd := by cases h <;> rfl
@[simp] theorem State.updHd_dram (s : State) (h : Head) (f : HeadState → HeadState) : (s.updHd h f).dram = s.dram := by cases h <;> rfl
@[simp] theorem State.updHd_loop (s : State) (h : Head) (f : HeadState → HeadState) : (s.updHd h f).loop = s.loop := by cases h <;> rfl
@[simp] theorem State.updHd_spin (s : State) (h : Head) (f : HeadState → HeadState) : (s.updHd h f).spin = s.spin := by cases h <;> rfl
@[simp] theorem State.updHd_cal (s : State) (h : Head) (f : HeadState → HeadState) : (s.updHd h f).cal = s.cal := by cases h <;> rfl
@[simp] theorem State.updHd_pins (s : State) (h : Head) (f : HeadState → HeadState) : (s.updHd h f).pins = s.pins := by cases h <;> rfl
@[simp] theorem State.updHd_sync (s : State) (h : Head) (f : HeadState → HeadState) : (s.updHd h f).sync = s.sync := by cases h <;> rfl
@[simp] theorem State.updHd_pace (s : State) (h : Head) (f : HeadState → HeadState) : (s.updHd h f).pace = s.pace := by cases h <;> rfl
@[simp] theorem State.updHd_bridges (s : State) (h : Head) (f : HeadState → HeadState) : (s.updHd h f).bridges = s.bridges := by cases h <;> rfl
@[simp] theorem State.updHd_pwr (s : State) (h : Head) (f : HeadState → HeadState) : (s.updHd h f).pwr = s.pwr := by cases h <;> rfl
@[simp] theorem State.updHd_quill (s : State) (h : Head) (f : HeadState → HeadState) : (s.updHd h f).quill = s.quill := by cases h <;> rfl
@[simp] theorem State.updHd_vole (s : State) (h : Head) (f : HeadState → HeadState) : (s.updHd h f).vole = s.vole := by cases h <;> rfl
@[simp] theorem State.updHd_params (s : State) (h : Head) (f : HeadState → HeadState) : (s.updHd h f).params = s.params := by cases h <;> rfl

@[simp] theorem State.updRcd_pending (s : State) (f : RecordPath → RecordPath) : (s.updRcd f).pending = s.pending := (rfl)
@[simp] theorem State.updRcd_now (s : State) (f : RecordPath → RecordPath) : (s.updRcd f).now = s.now := (rfl)
@[simp] theorem State.updRcd_perstAt (s : State) (f : RecordPath → RecordPath) : (s.updRcd f).perstAt = s.perstAt := (rfl)
@[simp] theorem State.updRcd_host (s : State) (f : RecordPath → RecordPath) : (s.updRcd f).host = s.host := (rfl)
@[simp] theorem State.updRcd_mnt (s : State) (f : RecordPath → RecordPath) : (s.updRcd f).mnt = s.mnt := (rfl)
@[simp] theorem State.updRcd_vmap (s : State) (f : RecordPath → RecordPath) : (s.updRcd f).vmap = s.vmap := (rfl)
@[simp] theorem State.updRcd_rd (s : State) (f : RecordPath → RecordPath) : (s.updRcd f).rd = s.rd := (rfl)
@[simp] theorem State.updRcd_dram (s : State) (f : RecordPath → RecordPath) : (s.updRcd f).dram = s.dram := (rfl)
@[simp] theorem State.updRcd_loop (s : State) (f : RecordPath → RecordPath) : (s.updRcd f).loop = s.loop := (rfl)
@[simp] theorem State.updRcd_spin (s : State) (f : RecordPath → RecordPath) : (s.updRcd f).spin = s.spin := (rfl)
@[simp] theorem State.updRcd_hdA (s : State) (f : RecordPath → RecordPath) : (s.updRcd f).hdA = s.hdA := (rfl)
@[simp] theorem State.updRcd_hdB (s : State) (f : RecordPath → RecordPath) : (s.updRcd f).hdB = s.hdB := (rfl)
@[simp] theorem State.updRcd_cal (s : State) (f : RecordPath → RecordPath) : (s.updRcd f).cal = s.cal := (rfl)
@[simp] theorem State.updRcd_pins (s : State) (f : RecordPath → RecordPath) : (s.updRcd f).pins = s.pins := (rfl)
@[simp] theorem State.updRcd_sync (s : State) (f : RecordPath → RecordPath) : (s.updRcd f).sync = s.sync := (rfl)
@[simp] theorem State.updRcd_pace (s : State) (f : RecordPath → RecordPath) : (s.updRcd f).pace = s.pace := (rfl)
@[simp] theorem State.updRcd_bridges (s : State) (f : RecordPath → RecordPath) : (s.updRcd f).bridges = s.bridges := (rfl)
@[simp] theorem State.updRcd_pwr (s : State) (f : RecordPath → RecordPath) : (s.updRcd f).pwr = s.pwr := (rfl)
@[simp] theorem State.updRcd_quill (s : State) (f : RecordPath → RecordPath) : (s.updRcd f).quill = s.quill := (rfl)
@[simp] theorem State.updRcd_vole (s : State) (f : RecordPath → RecordPath) : (s.updRcd f).vole = s.vole := (rfl)
@[simp] theorem State.updRcd_params (s : State) (f : RecordPath → RecordPath) : (s.updRcd f).params = s.params := (rfl)
@[simp] theorem State.updRcd_rcd (s : State) (f : RecordPath → RecordPath) : (s.updRcd f).rcd = f s.rcd := (rfl)

@[simp] theorem State.updMnt_pending (s : State) (f : Mount → Mount) : (s.updMnt f).pending = s.pending := (rfl)
@[simp] theorem State.updMnt_now (s : State) (f : Mount → Mount) : (s.updMnt f).now = s.now := (rfl)
@[simp] theorem State.updMnt_perstAt (s : State) (f : Mount → Mount) : (s.updMnt f).perstAt = s.perstAt := (rfl)
@[simp] theorem State.updMnt_host (s : State) (f : Mount → Mount) : (s.updMnt f).host = s.host := (rfl)
@[simp] theorem State.updMnt_rcd (s : State) (f : Mount → Mount) : (s.updMnt f).rcd = s.rcd := (rfl)
@[simp] theorem State.updMnt_vmap (s : State) (f : Mount → Mount) : (s.updMnt f).vmap = s.vmap := (rfl)
@[simp] theorem State.updMnt_rd (s : State) (f : Mount → Mount) : (s.updMnt f).rd = s.rd := (rfl)
@[simp] theorem State.updMnt_dram (s : State) (f : Mount → Mount) : (s.updMnt f).dram = s.dram := (rfl)
@[simp] theorem State.updMnt_loop (s : State) (f : Mount → Mount) : (s.updMnt f).loop = s.loop := (rfl)
@[simp] theorem State.updMnt_spin (s : State) (f : Mount → Mount) : (s.updMnt f).spin = s.spin := (rfl)
@[simp] theorem State.updMnt_hdA (s : State) (f : Mount → Mount) : (s.updMnt f).hdA = s.hdA := (rfl)
@[simp] theorem State.updMnt_hdB (s : State) (f : Mount → Mount) : (s.updMnt f).hdB = s.hdB := (rfl)
@[simp] theorem State.updMnt_cal (s : State) (f : Mount → Mount) : (s.updMnt f).cal = s.cal := (rfl)
@[simp] theorem State.updMnt_pins (s : State) (f : Mount → Mount) : (s.updMnt f).pins = s.pins := (rfl)
@[simp] theorem State.updMnt_sync (s : State) (f : Mount → Mount) : (s.updMnt f).sync = s.sync := (rfl)
@[simp] theorem State.updMnt_pace (s : State) (f : Mount → Mount) : (s.updMnt f).pace = s.pace := (rfl)
@[simp] theorem State.updMnt_bridges (s : State) (f : Mount → Mount) : (s.updMnt f).bridges = s.bridges := (rfl)
@[simp] theorem State.updMnt_pwr (s : State) (f : Mount → Mount) : (s.updMnt f).pwr = s.pwr := (rfl)
@[simp] theorem State.updMnt_quill (s : State) (f : Mount → Mount) : (s.updMnt f).quill = s.quill := (rfl)
@[simp] theorem State.updMnt_vole (s : State) (f : Mount → Mount) : (s.updMnt f).vole = s.vole := (rfl)
@[simp] theorem State.updMnt_params (s : State) (f : Mount → Mount) : (s.updMnt f).params = s.params := (rfl)
@[simp] theorem State.updMnt_mnt (s : State) (f : Mount → Mount) : (s.updMnt f).mnt = f s.mnt := (rfl)

@[simp] theorem State.updHost_pending (s : State) (f : HostLink → HostLink) : (s.updHost f).pending = s.pending := (rfl)
@[simp] theorem State.updHost_now (s : State) (f : HostLink → HostLink) : (s.updHost f).now = s.now := (rfl)
@[simp] theorem State.updHost_perstAt (s : State) (f : HostLink → HostLink) : (s.updHost f).perstAt = s.perstAt := (rfl)
@[simp] theorem State.updHost_rcd (s : State) (f : HostLink → HostLink) : (s.updHost f).rcd = s.rcd := (rfl)
@[simp] theorem State.updHost_mnt (s : State) (f : HostLink → HostLink) : (s.updHost f).mnt = s.mnt := (rfl)
@[simp] theorem State.updHost_vmap (s : State) (f : HostLink → HostLink) : (s.updHost f).vmap = s.vmap := (rfl)
@[simp] theorem State.updHost_rd (s : State) (f : HostLink → HostLink) : (s.updHost f).rd = s.rd := (rfl)
@[simp] theorem State.updHost_dram (s : State) (f : HostLink → HostLink) : (s.updHost f).dram = s.dram := (rfl)
@[simp] theorem State.updHost_loop (s : State) (f : HostLink → HostLink) : (s.updHost f).loop = s.loop := (rfl)
@[simp] theorem State.updHost_spin (s : State) (f : HostLink → HostLink) : (s.updHost f).spin = s.spin := (rfl)
@[simp] theorem State.updHost_hdA (s : State) (f : HostLink → HostLink) : (s.updHost f).hdA = s.hdA := (rfl)
@[simp] theorem State.updHost_hdB (s : State) (f : HostLink → HostLink) : (s.updHost f).hdB = s.hdB := (rfl)
@[simp] theorem State.updHost_cal (s : State) (f : HostLink → HostLink) : (s.updHost f).cal = s.cal := (rfl)
@[simp] theorem State.updHost_pins (s : State) (f : HostLink → HostLink) : (s.updHost f).pins = s.pins := (rfl)
@[simp] theorem State.updHost_sync (s : State) (f : HostLink → HostLink) : (s.updHost f).sync = s.sync := (rfl)
@[simp] theorem State.updHost_pace (s : State) (f : HostLink → HostLink) : (s.updHost f).pace = s.pace := (rfl)
@[simp] theorem State.updHost_bridges (s : State) (f : HostLink → HostLink) : (s.updHost f).bridges = s.bridges := (rfl)
@[simp] theorem State.updHost_pwr (s : State) (f : HostLink → HostLink) : (s.updHost f).pwr = s.pwr := (rfl)
@[simp] theorem State.updHost_quill (s : State) (f : HostLink → HostLink) : (s.updHost f).quill = s.quill := (rfl)
@[simp] theorem State.updHost_vole (s : State) (f : HostLink → HostLink) : (s.updHost f).vole = s.vole := (rfl)
@[simp] theorem State.updHost_params (s : State) (f : HostLink → HostLink) : (s.updHost f).params = s.params := (rfl)
@[simp] theorem State.updHost_host (s : State) (f : HostLink → HostLink) : (s.updHost f).host = f s.host := (rfl)

@[simp] theorem State.updDrey_pending (s : State) (f : DreyPools → DreyPools) : (s.updDrey f).pending = s.pending := (rfl)
@[simp] theorem State.updDrey_now (s : State) (f : DreyPools → DreyPools) : (s.updDrey f).now = s.now := (rfl)
@[simp] theorem State.updDrey_perstAt (s : State) (f : DreyPools → DreyPools) : (s.updDrey f).perstAt = s.perstAt := (rfl)
@[simp] theorem State.updDrey_host (s : State) (f : DreyPools → DreyPools) : (s.updDrey f).host = s.host := (rfl)
@[simp] theorem State.updDrey_mnt (s : State) (f : DreyPools → DreyPools) : (s.updDrey f).mnt = s.mnt := (rfl)
@[simp] theorem State.updDrey_vmap (s : State) (f : DreyPools → DreyPools) : (s.updDrey f).vmap = s.vmap := (rfl)
@[simp] theorem State.updDrey_rd (s : State) (f : DreyPools → DreyPools) : (s.updDrey f).rd = s.rd := (rfl)
@[simp] theorem State.updDrey_dram (s : State) (f : DreyPools → DreyPools) : (s.updDrey f).dram = s.dram := (rfl)
@[simp] theorem State.updDrey_loop (s : State) (f : DreyPools → DreyPools) : (s.updDrey f).loop = s.loop := (rfl)
@[simp] theorem State.updDrey_spin (s : State) (f : DreyPools → DreyPools) : (s.updDrey f).spin = s.spin := (rfl)
@[simp] theorem State.updDrey_hdA (s : State) (f : DreyPools → DreyPools) : (s.updDrey f).hdA = s.hdA := (rfl)
@[simp] theorem State.updDrey_hdB (s : State) (f : DreyPools → DreyPools) : (s.updDrey f).hdB = s.hdB := (rfl)
@[simp] theorem State.updDrey_cal (s : State) (f : DreyPools → DreyPools) : (s.updDrey f).cal = s.cal := (rfl)
@[simp] theorem State.updDrey_pins (s : State) (f : DreyPools → DreyPools) : (s.updDrey f).pins = s.pins := (rfl)
@[simp] theorem State.updDrey_sync (s : State) (f : DreyPools → DreyPools) : (s.updDrey f).sync = s.sync := (rfl)
@[simp] theorem State.updDrey_pace (s : State) (f : DreyPools → DreyPools) : (s.updDrey f).pace = s.pace := (rfl)
@[simp] theorem State.updDrey_bridges (s : State) (f : DreyPools → DreyPools) : (s.updDrey f).bridges = s.bridges := (rfl)
@[simp] theorem State.updDrey_pwr (s : State) (f : DreyPools → DreyPools) : (s.updDrey f).pwr = s.pwr := (rfl)
@[simp] theorem State.updDrey_quill (s : State) (f : DreyPools → DreyPools) : (s.updDrey f).quill = s.quill := (rfl)
@[simp] theorem State.updDrey_vole (s : State) (f : DreyPools → DreyPools) : (s.updDrey f).vole = s.vole := (rfl)
@[simp] theorem State.updDrey_params (s : State) (f : DreyPools → DreyPools) : (s.updDrey f).params = s.params := (rfl)

@[simp] theorem State.updWh_pending (s : State) (h : Head) (f : WriteHead → WriteHead) : (s.updWh h f).pending = s.pending := (rfl)
@[simp] theorem State.updWh_now (s : State) (h : Head) (f : WriteHead → WriteHead) : (s.updWh h f).now = s.now := (rfl)
@[simp] theorem State.updWh_perstAt (s : State) (h : Head) (f : WriteHead → WriteHead) : (s.updWh h f).perstAt = s.perstAt := (rfl)
@[simp] theorem State.updWh_host (s : State) (h : Head) (f : WriteHead → WriteHead) : (s.updWh h f).host = s.host := (rfl)
@[simp] theorem State.updWh_mnt (s : State) (h : Head) (f : WriteHead → WriteHead) : (s.updWh h f).mnt = s.mnt := (rfl)
@[simp] theorem State.updWh_vmap (s : State) (h : Head) (f : WriteHead → WriteHead) : (s.updWh h f).vmap = s.vmap := (rfl)
@[simp] theorem State.updWh_rd (s : State) (h : Head) (f : WriteHead → WriteHead) : (s.updWh h f).rd = s.rd := (rfl)
@[simp] theorem State.updWh_dram (s : State) (h : Head) (f : WriteHead → WriteHead) : (s.updWh h f).dram = s.dram := (rfl)
@[simp] theorem State.updWh_loop (s : State) (h : Head) (f : WriteHead → WriteHead) : (s.updWh h f).loop = s.loop := (rfl)
@[simp] theorem State.updWh_spin (s : State) (h : Head) (f : WriteHead → WriteHead) : (s.updWh h f).spin = s.spin := (rfl)
@[simp] theorem State.updWh_hdA (s : State) (h : Head) (f : WriteHead → WriteHead) : (s.updWh h f).hdA = s.hdA := (rfl)
@[simp] theorem State.updWh_hdB (s : State) (h : Head) (f : WriteHead → WriteHead) : (s.updWh h f).hdB = s.hdB := (rfl)
@[simp] theorem State.updWh_cal (s : State) (h : Head) (f : WriteHead → WriteHead) : (s.updWh h f).cal = s.cal := (rfl)
@[simp] theorem State.updWh_pins (s : State) (h : Head) (f : WriteHead → WriteHead) : (s.updWh h f).pins = s.pins := (rfl)
@[simp] theorem State.updWh_sync (s : State) (h : Head) (f : WriteHead → WriteHead) : (s.updWh h f).sync = s.sync := (rfl)
@[simp] theorem State.updWh_pace (s : State) (h : Head) (f : WriteHead → WriteHead) : (s.updWh h f).pace = s.pace := (rfl)
@[simp] theorem State.updWh_bridges (s : State) (h : Head) (f : WriteHead → WriteHead) : (s.updWh h f).bridges = s.bridges := (rfl)
@[simp] theorem State.updWh_pwr (s : State) (h : Head) (f : WriteHead → WriteHead) : (s.updWh h f).pwr = s.pwr := (rfl)
@[simp] theorem State.updWh_quill (s : State) (h : Head) (f : WriteHead → WriteHead) : (s.updWh h f).quill = s.quill := (rfl)
@[simp] theorem State.updWh_vole (s : State) (h : Head) (f : WriteHead → WriteHead) : (s.updWh h f).vole = s.vole := (rfl)
@[simp] theorem State.updWh_params (s : State) (h : Head) (f : WriteHead → WriteHead) : (s.updWh h f).params = s.params := (rfl)

@[simp] theorem State.updBeam_pending (s : State) (h : Head) (b : Beam) (f : BeamState → BeamState) : (s.updBeam h b f).pending = s.pending := (rfl)
@[simp] theorem State.updBeam_now (s : State) (h : Head) (b : Beam) (f : BeamState → BeamState) : (s.updBeam h b f).now = s.now := (rfl)
@[simp] theorem State.updBeam_perstAt (s : State) (h : Head) (b : Beam) (f : BeamState → BeamState) : (s.updBeam h b f).perstAt = s.perstAt := (rfl)
@[simp] theorem State.updBeam_host (s : State) (h : Head) (b : Beam) (f : BeamState → BeamState) : (s.updBeam h b f).host = s.host := (rfl)
@[simp] theorem State.updBeam_mnt (s : State) (h : Head) (b : Beam) (f : BeamState → BeamState) : (s.updBeam h b f).mnt = s.mnt := (rfl)
@[simp] theorem State.updBeam_vmap (s : State) (h : Head) (b : Beam) (f : BeamState → BeamState) : (s.updBeam h b f).vmap = s.vmap := (rfl)
@[simp] theorem State.updBeam_rd (s : State) (h : Head) (b : Beam) (f : BeamState → BeamState) : (s.updBeam h b f).rd = s.rd := (rfl)
@[simp] theorem State.updBeam_dram (s : State) (h : Head) (b : Beam) (f : BeamState → BeamState) : (s.updBeam h b f).dram = s.dram := (rfl)
@[simp] theorem State.updBeam_loop (s : State) (h : Head) (b : Beam) (f : BeamState → BeamState) : (s.updBeam h b f).loop = s.loop := (rfl)
@[simp] theorem State.updBeam_spin (s : State) (h : Head) (b : Beam) (f : BeamState → BeamState) : (s.updBeam h b f).spin = s.spin := (rfl)
@[simp] theorem State.updBeam_hdA (s : State) (h : Head) (b : Beam) (f : BeamState → BeamState) : (s.updBeam h b f).hdA = s.hdA := (rfl)
@[simp] theorem State.updBeam_hdB (s : State) (h : Head) (b : Beam) (f : BeamState → BeamState) : (s.updBeam h b f).hdB = s.hdB := (rfl)
@[simp] theorem State.updBeam_cal (s : State) (h : Head) (b : Beam) (f : BeamState → BeamState) : (s.updBeam h b f).cal = s.cal := (rfl)
@[simp] theorem State.updBeam_pins (s : State) (h : Head) (b : Beam) (f : BeamState → BeamState) : (s.updBeam h b f).pins = s.pins := (rfl)
@[simp] theorem State.updBeam_sync (s : State) (h : Head) (b : Beam) (f : BeamState → BeamState) : (s.updBeam h b f).sync = s.sync := (rfl)
@[simp] theorem State.updBeam_pace (s : State) (h : Head) (b : Beam) (f : BeamState → BeamState) : (s.updBeam h b f).pace = s.pace := (rfl)
@[simp] theorem State.updBeam_bridges (s : State) (h : Head) (b : Beam) (f : BeamState → BeamState) : (s.updBeam h b f).bridges = s.bridges := (rfl)
@[simp] theorem State.updBeam_pwr (s : State) (h : Head) (b : Beam) (f : BeamState → BeamState) : (s.updBeam h b f).pwr = s.pwr := (rfl)
@[simp] theorem State.updBeam_quill (s : State) (h : Head) (b : Beam) (f : BeamState → BeamState) : (s.updBeam h b f).quill = s.quill := (rfl)
@[simp] theorem State.updBeam_vole (s : State) (h : Head) (b : Beam) (f : BeamState → BeamState) : (s.updBeam h b f).vole = s.vole := (rfl)
@[simp] theorem State.updBeam_params (s : State) (h : Head) (b : Beam) (f : BeamState → BeamState) : (s.updBeam h b f).params = s.params := (rfl)

@[simp] theorem State.updBeams_pending (s : State) (h : Head) (f : BeamState → BeamState) : (s.updBeams h f).pending = s.pending := (rfl)
@[simp] theorem State.updBeams_now (s : State) (h : Head) (f : BeamState → BeamState) : (s.updBeams h f).now = s.now := (rfl)
@[simp] theorem State.updBeams_perstAt (s : State) (h : Head) (f : BeamState → BeamState) : (s.updBeams h f).perstAt = s.perstAt := (rfl)
@[simp] theorem State.updBeams_host (s : State) (h : Head) (f : BeamState → BeamState) : (s.updBeams h f).host = s.host := (rfl)
@[simp] theorem State.updBeams_mnt (s : State) (h : Head) (f : BeamState → BeamState) : (s.updBeams h f).mnt = s.mnt := (rfl)
@[simp] theorem State.updBeams_vmap (s : State) (h : Head) (f : BeamState → BeamState) : (s.updBeams h f).vmap = s.vmap := (rfl)
@[simp] theorem State.updBeams_rd (s : State) (h : Head) (f : BeamState → BeamState) : (s.updBeams h f).rd = s.rd := (rfl)
@[simp] theorem State.updBeams_dram (s : State) (h : Head) (f : BeamState → BeamState) : (s.updBeams h f).dram = s.dram := (rfl)
@[simp] theorem State.updBeams_loop (s : State) (h : Head) (f : BeamState → BeamState) : (s.updBeams h f).loop = s.loop := (rfl)
@[simp] theorem State.updBeams_spin (s : State) (h : Head) (f : BeamState → BeamState) : (s.updBeams h f).spin = s.spin := (rfl)
@[simp] theorem State.updBeams_hdA (s : State) (h : Head) (f : BeamState → BeamState) : (s.updBeams h f).hdA = s.hdA := (rfl)
@[simp] theorem State.updBeams_hdB (s : State) (h : Head) (f : BeamState → BeamState) : (s.updBeams h f).hdB = s.hdB := (rfl)
@[simp] theorem State.updBeams_cal (s : State) (h : Head) (f : BeamState → BeamState) : (s.updBeams h f).cal = s.cal := (rfl)
@[simp] theorem State.updBeams_pins (s : State) (h : Head) (f : BeamState → BeamState) : (s.updBeams h f).pins = s.pins := (rfl)
@[simp] theorem State.updBeams_sync (s : State) (h : Head) (f : BeamState → BeamState) : (s.updBeams h f).sync = s.sync := (rfl)
@[simp] theorem State.updBeams_pace (s : State) (h : Head) (f : BeamState → BeamState) : (s.updBeams h f).pace = s.pace := (rfl)
@[simp] theorem State.updBeams_bridges (s : State) (h : Head) (f : BeamState → BeamState) : (s.updBeams h f).bridges = s.bridges := (rfl)
@[simp] theorem State.updBeams_pwr (s : State) (h : Head) (f : BeamState → BeamState) : (s.updBeams h f).pwr = s.pwr := (rfl)
@[simp] theorem State.updBeams_quill (s : State) (h : Head) (f : BeamState → BeamState) : (s.updBeams h f).quill = s.quill := (rfl)
@[simp] theorem State.updBeams_vole (s : State) (h : Head) (f : BeamState → BeamState) : (s.updBeams h f).vole = s.vole := (rfl)
@[simp] theorem State.updBeams_params (s : State) (h : Head) (f : BeamState → BeamState) : (s.updBeams h f).params = s.params := (rfl)

@[simp] theorem State.updFunc_pending (s : State) (fn : FnId) (f : Func → Func) : (s.updFunc fn f).pending = s.pending := (rfl)
@[simp] theorem State.updFunc_now (s : State) (fn : FnId) (f : Func → Func) : (s.updFunc fn f).now = s.now := (rfl)
@[simp] theorem State.updFunc_perstAt (s : State) (fn : FnId) (f : Func → Func) : (s.updFunc fn f).perstAt = s.perstAt := (rfl)
@[simp] theorem State.updFunc_rcd (s : State) (fn : FnId) (f : Func → Func) : (s.updFunc fn f).rcd = s.rcd := (rfl)
@[simp] theorem State.updFunc_mnt (s : State) (fn : FnId) (f : Func → Func) : (s.updFunc fn f).mnt = s.mnt := (rfl)
@[simp] theorem State.updFunc_vmap (s : State) (fn : FnId) (f : Func → Func) : (s.updFunc fn f).vmap = s.vmap := (rfl)
@[simp] theorem State.updFunc_rd (s : State) (fn : FnId) (f : Func → Func) : (s.updFunc fn f).rd = s.rd := (rfl)
@[simp] theorem State.updFunc_dram (s : State) (fn : FnId) (f : Func → Func) : (s.updFunc fn f).dram = s.dram := (rfl)
@[simp] theorem State.updFunc_loop (s : State) (fn : FnId) (f : Func → Func) : (s.updFunc fn f).loop = s.loop := (rfl)
@[simp] theorem State.updFunc_spin (s : State) (fn : FnId) (f : Func → Func) : (s.updFunc fn f).spin = s.spin := (rfl)
@[simp] theorem State.updFunc_hdA (s : State) (fn : FnId) (f : Func → Func) : (s.updFunc fn f).hdA = s.hdA := (rfl)
@[simp] theorem State.updFunc_hdB (s : State) (fn : FnId) (f : Func → Func) : (s.updFunc fn f).hdB = s.hdB := (rfl)
@[simp] theorem State.updFunc_cal (s : State) (fn : FnId) (f : Func → Func) : (s.updFunc fn f).cal = s.cal := (rfl)
@[simp] theorem State.updFunc_pins (s : State) (fn : FnId) (f : Func → Func) : (s.updFunc fn f).pins = s.pins := (rfl)
@[simp] theorem State.updFunc_sync (s : State) (fn : FnId) (f : Func → Func) : (s.updFunc fn f).sync = s.sync := (rfl)
@[simp] theorem State.updFunc_pace (s : State) (fn : FnId) (f : Func → Func) : (s.updFunc fn f).pace = s.pace := (rfl)
@[simp] theorem State.updFunc_bridges (s : State) (fn : FnId) (f : Func → Func) : (s.updFunc fn f).bridges = s.bridges := (rfl)
@[simp] theorem State.updFunc_pwr (s : State) (fn : FnId) (f : Func → Func) : (s.updFunc fn f).pwr = s.pwr := (rfl)
@[simp] theorem State.updFunc_quill (s : State) (fn : FnId) (f : Func → Func) : (s.updFunc fn f).quill = s.quill := (rfl)
@[simp] theorem State.updFunc_vole (s : State) (fn : FnId) (f : Func → Func) : (s.updFunc fn f).vole = s.vole := (rfl)
@[simp] theorem State.updFunc_params (s : State) (fn : FnId) (f : Func → Func) : (s.updFunc fn f).params = s.params := (rfl)

@[simp] theorem State.updQueue_pending (s : State) (fn : FnId) (q : QId) (f : QueuePair → QueuePair) : (s.updQueue fn q f).pending = s.pending := (rfl)
@[simp] theorem State.updQueue_now (s : State) (fn : FnId) (q : QId) (f : QueuePair → QueuePair) : (s.updQueue fn q f).now = s.now := (rfl)
@[simp] theorem State.updQueue_perstAt (s : State) (fn : FnId) (q : QId) (f : QueuePair → QueuePair) : (s.updQueue fn q f).perstAt = s.perstAt := (rfl)
@[simp] theorem State.updQueue_rcd (s : State) (fn : FnId) (q : QId) (f : QueuePair → QueuePair) : (s.updQueue fn q f).rcd = s.rcd := (rfl)
@[simp] theorem State.updQueue_mnt (s : State) (fn : FnId) (q : QId) (f : QueuePair → QueuePair) : (s.updQueue fn q f).mnt = s.mnt := (rfl)
@[simp] theorem State.updQueue_vmap (s : State) (fn : FnId) (q : QId) (f : QueuePair → QueuePair) : (s.updQueue fn q f).vmap = s.vmap := (rfl)
@[simp] theorem State.updQueue_rd (s : State) (fn : FnId) (q : QId) (f : QueuePair → QueuePair) : (s.updQueue fn q f).rd = s.rd := (rfl)
@[simp] theorem State.updQueue_dram (s : State) (fn : FnId) (q : QId) (f : QueuePair → QueuePair) : (s.updQueue fn q f).dram = s.dram := (rfl)
@[simp] theorem State.updQueue_loop (s : State) (fn : FnId) (q : QId) (f : QueuePair → QueuePair) : (s.updQueue fn q f).loop = s.loop := (rfl)
@[simp] theorem State.updQueue_spin (s : State) (fn : FnId) (q : QId) (f : QueuePair → QueuePair) : (s.updQueue fn q f).spin = s.spin := (rfl)
@[simp] theorem State.updQueue_hdA (s : State) (fn : FnId) (q : QId) (f : QueuePair → QueuePair) : (s.updQueue fn q f).hdA = s.hdA := (rfl)
@[simp] theorem State.updQueue_hdB (s : State) (fn : FnId) (q : QId) (f : QueuePair → QueuePair) : (s.updQueue fn q f).hdB = s.hdB := (rfl)
@[simp] theorem State.updQueue_cal (s : State) (fn : FnId) (q : QId) (f : QueuePair → QueuePair) : (s.updQueue fn q f).cal = s.cal := (rfl)
@[simp] theorem State.updQueue_pins (s : State) (fn : FnId) (q : QId) (f : QueuePair → QueuePair) : (s.updQueue fn q f).pins = s.pins := (rfl)
@[simp] theorem State.updQueue_sync (s : State) (fn : FnId) (q : QId) (f : QueuePair → QueuePair) : (s.updQueue fn q f).sync = s.sync := (rfl)
@[simp] theorem State.updQueue_pace (s : State) (fn : FnId) (q : QId) (f : QueuePair → QueuePair) : (s.updQueue fn q f).pace = s.pace := (rfl)
@[simp] theorem State.updQueue_bridges (s : State) (fn : FnId) (q : QId) (f : QueuePair → QueuePair) : (s.updQueue fn q f).bridges = s.bridges := (rfl)
@[simp] theorem State.updQueue_pwr (s : State) (fn : FnId) (q : QId) (f : QueuePair → QueuePair) : (s.updQueue fn q f).pwr = s.pwr := (rfl)
@[simp] theorem State.updQueue_quill (s : State) (fn : FnId) (q : QId) (f : QueuePair → QueuePair) : (s.updQueue fn q f).quill = s.quill := (rfl)
@[simp] theorem State.updQueue_vole (s : State) (fn : FnId) (q : QId) (f : QueuePair → QueuePair) : (s.updQueue fn q f).vole = s.vole := (rfl)
@[simp] theorem State.updQueue_params (s : State) (fn : FnId) (q : QId) (f : QueuePair → QueuePair) : (s.updQueue fn q f).params = s.params := (rfl)

@[simp] theorem State.updRunning_pending (s : State) (r : Running) (f : Running → Running) : (s.updRunning r f).pending = s.pending := (rfl)
@[simp] theorem State.updRunning_now (s : State) (r : Running) (f : Running → Running) : (s.updRunning r f).now = s.now := (rfl)
@[simp] theorem State.updRunning_perstAt (s : State) (r : Running) (f : Running → Running) : (s.updRunning r f).perstAt = s.perstAt := (rfl)
@[simp] theorem State.updRunning_rcd (s : State) (r : Running) (f : Running → Running) : (s.updRunning r f).rcd = s.rcd := (rfl)
@[simp] theorem State.updRunning_mnt (s : State) (r : Running) (f : Running → Running) : (s.updRunning r f).mnt = s.mnt := (rfl)
@[simp] theorem State.updRunning_vmap (s : State) (r : Running) (f : Running → Running) : (s.updRunning r f).vmap = s.vmap := (rfl)
@[simp] theorem State.updRunning_rd (s : State) (r : Running) (f : Running → Running) : (s.updRunning r f).rd = s.rd := (rfl)
@[simp] theorem State.updRunning_dram (s : State) (r : Running) (f : Running → Running) : (s.updRunning r f).dram = s.dram := (rfl)
@[simp] theorem State.updRunning_loop (s : State) (r : Running) (f : Running → Running) : (s.updRunning r f).loop = s.loop := (rfl)
@[simp] theorem State.updRunning_spin (s : State) (r : Running) (f : Running → Running) : (s.updRunning r f).spin = s.spin := (rfl)
@[simp] theorem State.updRunning_hdA (s : State) (r : Running) (f : Running → Running) : (s.updRunning r f).hdA = s.hdA := (rfl)
@[simp] theorem State.updRunning_hdB (s : State) (r : Running) (f : Running → Running) : (s.updRunning r f).hdB = s.hdB := (rfl)
@[simp] theorem State.updRunning_cal (s : State) (r : Running) (f : Running → Running) : (s.updRunning r f).cal = s.cal := (rfl)
@[simp] theorem State.updRunning_pins (s : State) (r : Running) (f : Running → Running) : (s.updRunning r f).pins = s.pins := (rfl)
@[simp] theorem State.updRunning_sync (s : State) (r : Running) (f : Running → Running) : (s.updRunning r f).sync = s.sync := (rfl)
@[simp] theorem State.updRunning_pace (s : State) (r : Running) (f : Running → Running) : (s.updRunning r f).pace = s.pace := (rfl)
@[simp] theorem State.updRunning_bridges (s : State) (r : Running) (f : Running → Running) : (s.updRunning r f).bridges = s.bridges := (rfl)
@[simp] theorem State.updRunning_pwr (s : State) (r : Running) (f : Running → Running) : (s.updRunning r f).pwr = s.pwr := (rfl)
@[simp] theorem State.updRunning_quill (s : State) (r : Running) (f : Running → Running) : (s.updRunning r f).quill = s.quill := (rfl)
@[simp] theorem State.updRunning_vole (s : State) (r : Running) (f : Running → Running) : (s.updRunning r f).vole = s.vole := (rfl)
@[simp] theorem State.updRunning_params (s : State) (r : Running) (f : Running → Running) : (s.updRunning r f).params = s.params := (rfl)

@[simp] theorem State.updLock_pending (s : State) (l : LockId) (f : Lock → Lock) : (s.updLock l f).pending = s.pending := (rfl)
@[simp] theorem State.updLock_now (s : State) (l : LockId) (f : Lock → Lock) : (s.updLock l f).now = s.now := (rfl)
@[simp] theorem State.updLock_perstAt (s : State) (l : LockId) (f : Lock → Lock) : (s.updLock l f).perstAt = s.perstAt := (rfl)
@[simp] theorem State.updLock_rcd (s : State) (l : LockId) (f : Lock → Lock) : (s.updLock l f).rcd = s.rcd := (rfl)
@[simp] theorem State.updLock_mnt (s : State) (l : LockId) (f : Lock → Lock) : (s.updLock l f).mnt = s.mnt := (rfl)
@[simp] theorem State.updLock_vmap (s : State) (l : LockId) (f : Lock → Lock) : (s.updLock l f).vmap = s.vmap := (rfl)
@[simp] theorem State.updLock_rd (s : State) (l : LockId) (f : Lock → Lock) : (s.updLock l f).rd = s.rd := (rfl)
@[simp] theorem State.updLock_dram (s : State) (l : LockId) (f : Lock → Lock) : (s.updLock l f).dram = s.dram := (rfl)
@[simp] theorem State.updLock_loop (s : State) (l : LockId) (f : Lock → Lock) : (s.updLock l f).loop = s.loop := (rfl)
@[simp] theorem State.updLock_spin (s : State) (l : LockId) (f : Lock → Lock) : (s.updLock l f).spin = s.spin := (rfl)
@[simp] theorem State.updLock_hdA (s : State) (l : LockId) (f : Lock → Lock) : (s.updLock l f).hdA = s.hdA := (rfl)
@[simp] theorem State.updLock_hdB (s : State) (l : LockId) (f : Lock → Lock) : (s.updLock l f).hdB = s.hdB := (rfl)
@[simp] theorem State.updLock_cal (s : State) (l : LockId) (f : Lock → Lock) : (s.updLock l f).cal = s.cal := (rfl)
@[simp] theorem State.updLock_pins (s : State) (l : LockId) (f : Lock → Lock) : (s.updLock l f).pins = s.pins := (rfl)
@[simp] theorem State.updLock_sync (s : State) (l : LockId) (f : Lock → Lock) : (s.updLock l f).sync = s.sync := (rfl)
@[simp] theorem State.updLock_pace (s : State) (l : LockId) (f : Lock → Lock) : (s.updLock l f).pace = s.pace := (rfl)
@[simp] theorem State.updLock_bridges (s : State) (l : LockId) (f : Lock → Lock) : (s.updLock l f).bridges = s.bridges := (rfl)
@[simp] theorem State.updLock_pwr (s : State) (l : LockId) (f : Lock → Lock) : (s.updLock l f).pwr = s.pwr := (rfl)
@[simp] theorem State.updLock_quill (s : State) (l : LockId) (f : Lock → Lock) : (s.updLock l f).quill = s.quill := (rfl)
@[simp] theorem State.updLock_vole (s : State) (l : LockId) (f : Lock → Lock) : (s.updLock l f).vole = s.vole := (rfl)
@[simp] theorem State.updLock_params (s : State) (l : LockId) (f : Lock → Lock) : (s.updLock l f).params = s.params := (rfl)

@[simp] theorem State.updPwr_pending (s : State) (f : Power → Power) : (s.updPwr f).pending = s.pending := (rfl)
@[simp] theorem State.updPwr_now (s : State) (f : Power → Power) : (s.updPwr f).now = s.now := (rfl)
@[simp] theorem State.updPwr_perstAt (s : State) (f : Power → Power) : (s.updPwr f).perstAt = s.perstAt := (rfl)
@[simp] theorem State.updPwr_host (s : State) (f : Power → Power) : (s.updPwr f).host = s.host := (rfl)
@[simp] theorem State.updPwr_rcd (s : State) (f : Power → Power) : (s.updPwr f).rcd = s.rcd := (rfl)
@[simp] theorem State.updPwr_mnt (s : State) (f : Power → Power) : (s.updPwr f).mnt = s.mnt := (rfl)
@[simp] theorem State.updPwr_vmap (s : State) (f : Power → Power) : (s.updPwr f).vmap = s.vmap := (rfl)
@[simp] theorem State.updPwr_rd (s : State) (f : Power → Power) : (s.updPwr f).rd = s.rd := (rfl)
@[simp] theorem State.updPwr_dram (s : State) (f : Power → Power) : (s.updPwr f).dram = s.dram := (rfl)
@[simp] theorem State.updPwr_loop (s : State) (f : Power → Power) : (s.updPwr f).loop = s.loop := (rfl)
@[simp] theorem State.updPwr_spin (s : State) (f : Power → Power) : (s.updPwr f).spin = s.spin := (rfl)
@[simp] theorem State.updPwr_hdA (s : State) (f : Power → Power) : (s.updPwr f).hdA = s.hdA := (rfl)
@[simp] theorem State.updPwr_hdB (s : State) (f : Power → Power) : (s.updPwr f).hdB = s.hdB := (rfl)
@[simp] theorem State.updPwr_cal (s : State) (f : Power → Power) : (s.updPwr f).cal = s.cal := (rfl)
@[simp] theorem State.updPwr_pins (s : State) (f : Power → Power) : (s.updPwr f).pins = s.pins := (rfl)
@[simp] theorem State.updPwr_sync (s : State) (f : Power → Power) : (s.updPwr f).sync = s.sync := (rfl)
@[simp] theorem State.updPwr_pace (s : State) (f : Power → Power) : (s.updPwr f).pace = s.pace := (rfl)
@[simp] theorem State.updPwr_bridges (s : State) (f : Power → Power) : (s.updPwr f).bridges = s.bridges := (rfl)
@[simp] theorem State.updPwr_quill (s : State) (f : Power → Power) : (s.updPwr f).quill = s.quill := (rfl)
@[simp] theorem State.updPwr_vole (s : State) (f : Power → Power) : (s.updPwr f).vole = s.vole := (rfl)
@[simp] theorem State.updPwr_params (s : State) (f : Power → Power) : (s.updPwr f).params = s.params := (rfl)
@[simp] theorem State.updPwr_pwr (s : State) (f : Power → Power) : (s.updPwr f).pwr = f s.pwr := (rfl)

@[simp] theorem State.updFrames_pending (s : State) (f : List Frame → List Frame) : (s.updFrames f).pending = s.pending := (rfl)
@[simp] theorem State.updFrames_now (s : State) (f : List Frame → List Frame) : (s.updFrames f).now = s.now := (rfl)
@[simp] theorem State.updFrames_perstAt (s : State) (f : List Frame → List Frame) : (s.updFrames f).perstAt = s.perstAt := (rfl)
@[simp] theorem State.updFrames_host (s : State) (f : List Frame → List Frame) : (s.updFrames f).host = s.host := (rfl)
@[simp] theorem State.updFrames_mnt (s : State) (f : List Frame → List Frame) : (s.updFrames f).mnt = s.mnt := (rfl)
@[simp] theorem State.updFrames_vmap (s : State) (f : List Frame → List Frame) : (s.updFrames f).vmap = s.vmap := (rfl)
@[simp] theorem State.updFrames_rd (s : State) (f : List Frame → List Frame) : (s.updFrames f).rd = s.rd := (rfl)
@[simp] theorem State.updFrames_dram (s : State) (f : List Frame → List Frame) : (s.updFrames f).dram = s.dram := (rfl)
@[simp] theorem State.updFrames_loop (s : State) (f : List Frame → List Frame) : (s.updFrames f).loop = s.loop := (rfl)
@[simp] theorem State.updFrames_spin (s : State) (f : List Frame → List Frame) : (s.updFrames f).spin = s.spin := (rfl)
@[simp] theorem State.updFrames_hdA (s : State) (f : List Frame → List Frame) : (s.updFrames f).hdA = s.hdA := (rfl)
@[simp] theorem State.updFrames_hdB (s : State) (f : List Frame → List Frame) : (s.updFrames f).hdB = s.hdB := (rfl)
@[simp] theorem State.updFrames_cal (s : State) (f : List Frame → List Frame) : (s.updFrames f).cal = s.cal := (rfl)
@[simp] theorem State.updFrames_pins (s : State) (f : List Frame → List Frame) : (s.updFrames f).pins = s.pins := (rfl)
@[simp] theorem State.updFrames_sync (s : State) (f : List Frame → List Frame) : (s.updFrames f).sync = s.sync := (rfl)
@[simp] theorem State.updFrames_pace (s : State) (f : List Frame → List Frame) : (s.updFrames f).pace = s.pace := (rfl)
@[simp] theorem State.updFrames_bridges (s : State) (f : List Frame → List Frame) : (s.updFrames f).bridges = s.bridges := (rfl)
@[simp] theorem State.updFrames_pwr (s : State) (f : List Frame → List Frame) : (s.updFrames f).pwr = s.pwr := (rfl)
@[simp] theorem State.updFrames_quill (s : State) (f : List Frame → List Frame) : (s.updFrames f).quill = s.quill := (rfl)
@[simp] theorem State.updFrames_vole (s : State) (f : List Frame → List Frame) : (s.updFrames f).vole = s.vole := (rfl)
@[simp] theorem State.updFrames_params (s : State) (f : List Frame → List Frame) : (s.updFrames f).params = s.params := (rfl)

@[simp] theorem State.updFrame_pending (s : State) (clip : Word) (number : Nat) (g : Frame → Frame) : (s.updFrame clip number g).pending = s.pending := (rfl)
@[simp] theorem State.updFrame_now (s : State) (clip : Word) (number : Nat) (g : Frame → Frame) : (s.updFrame clip number g).now = s.now := (rfl)
@[simp] theorem State.updFrame_perstAt (s : State) (clip : Word) (number : Nat) (g : Frame → Frame) : (s.updFrame clip number g).perstAt = s.perstAt := (rfl)
@[simp] theorem State.updFrame_host (s : State) (clip : Word) (number : Nat) (g : Frame → Frame) : (s.updFrame clip number g).host = s.host := (rfl)
@[simp] theorem State.updFrame_mnt (s : State) (clip : Word) (number : Nat) (g : Frame → Frame) : (s.updFrame clip number g).mnt = s.mnt := (rfl)
@[simp] theorem State.updFrame_vmap (s : State) (clip : Word) (number : Nat) (g : Frame → Frame) : (s.updFrame clip number g).vmap = s.vmap := (rfl)
@[simp] theorem State.updFrame_rd (s : State) (clip : Word) (number : Nat) (g : Frame → Frame) : (s.updFrame clip number g).rd = s.rd := (rfl)
@[simp] theorem State.updFrame_dram (s : State) (clip : Word) (number : Nat) (g : Frame → Frame) : (s.updFrame clip number g).dram = s.dram := (rfl)
@[simp] theorem State.updFrame_loop (s : State) (clip : Word) (number : Nat) (g : Frame → Frame) : (s.updFrame clip number g).loop = s.loop := (rfl)
@[simp] theorem State.updFrame_spin (s : State) (clip : Word) (number : Nat) (g : Frame → Frame) : (s.updFrame clip number g).spin = s.spin := (rfl)
@[simp] theorem State.updFrame_hdA (s : State) (clip : Word) (number : Nat) (g : Frame → Frame) : (s.updFrame clip number g).hdA = s.hdA := (rfl)
@[simp] theorem State.updFrame_hdB (s : State) (clip : Word) (number : Nat) (g : Frame → Frame) : (s.updFrame clip number g).hdB = s.hdB := (rfl)
@[simp] theorem State.updFrame_cal (s : State) (clip : Word) (number : Nat) (g : Frame → Frame) : (s.updFrame clip number g).cal = s.cal := (rfl)
@[simp] theorem State.updFrame_pins (s : State) (clip : Word) (number : Nat) (g : Frame → Frame) : (s.updFrame clip number g).pins = s.pins := (rfl)
@[simp] theorem State.updFrame_sync (s : State) (clip : Word) (number : Nat) (g : Frame → Frame) : (s.updFrame clip number g).sync = s.sync := (rfl)
@[simp] theorem State.updFrame_pace (s : State) (clip : Word) (number : Nat) (g : Frame → Frame) : (s.updFrame clip number g).pace = s.pace := (rfl)
@[simp] theorem State.updFrame_bridges (s : State) (clip : Word) (number : Nat) (g : Frame → Frame) : (s.updFrame clip number g).bridges = s.bridges := (rfl)
@[simp] theorem State.updFrame_pwr (s : State) (clip : Word) (number : Nat) (g : Frame → Frame) : (s.updFrame clip number g).pwr = s.pwr := (rfl)
@[simp] theorem State.updFrame_quill (s : State) (clip : Word) (number : Nat) (g : Frame → Frame) : (s.updFrame clip number g).quill = s.quill := (rfl)
@[simp] theorem State.updFrame_vole (s : State) (clip : Word) (number : Nat) (g : Frame → Frame) : (s.updFrame clip number g).vole = s.vole := (rfl)
@[simp] theorem State.updFrame_params (s : State) (clip : Word) (number : Nat) (g : Frame → Frame) : (s.updFrame clip number g).params = s.params := (rfl)

@[simp] theorem State.updChan_pending (s : State) (h : Head) (b : Beam) (f : ReadChannel → ReadChannel) : (s.updChan h b f).pending = s.pending := by cases h <;> rfl
@[simp] theorem State.updChan_now (s : State) (h : Head) (b : Beam) (f : ReadChannel → ReadChannel) : (s.updChan h b f).now = s.now := by cases h <;> rfl
@[simp] theorem State.updChan_perstAt (s : State) (h : Head) (b : Beam) (f : ReadChannel → ReadChannel) : (s.updChan h b f).perstAt = s.perstAt := by cases h <;> rfl
@[simp] theorem State.updChan_host (s : State) (h : Head) (b : Beam) (f : ReadChannel → ReadChannel) : (s.updChan h b f).host = s.host := by cases h <;> rfl
@[simp] theorem State.updChan_rcd (s : State) (h : Head) (b : Beam) (f : ReadChannel → ReadChannel) : (s.updChan h b f).rcd = s.rcd := by cases h <;> rfl
@[simp] theorem State.updChan_mnt (s : State) (h : Head) (b : Beam) (f : ReadChannel → ReadChannel) : (s.updChan h b f).mnt = s.mnt := by cases h <;> rfl
@[simp] theorem State.updChan_vmap (s : State) (h : Head) (b : Beam) (f : ReadChannel → ReadChannel) : (s.updChan h b f).vmap = s.vmap := by cases h <;> rfl
@[simp] theorem State.updChan_dram (s : State) (h : Head) (b : Beam) (f : ReadChannel → ReadChannel) : (s.updChan h b f).dram = s.dram := by cases h <;> rfl
@[simp] theorem State.updChan_loop (s : State) (h : Head) (b : Beam) (f : ReadChannel → ReadChannel) : (s.updChan h b f).loop = s.loop := by cases h <;> rfl
@[simp] theorem State.updChan_spin (s : State) (h : Head) (b : Beam) (f : ReadChannel → ReadChannel) : (s.updChan h b f).spin = s.spin := by cases h <;> rfl
@[simp] theorem State.updChan_hdA (s : State) (h : Head) (b : Beam) (f : ReadChannel → ReadChannel) : (s.updChan h b f).hdA = s.hdA := by cases h <;> rfl
@[simp] theorem State.updChan_hdB (s : State) (h : Head) (b : Beam) (f : ReadChannel → ReadChannel) : (s.updChan h b f).hdB = s.hdB := by cases h <;> rfl
@[simp] theorem State.updChan_cal (s : State) (h : Head) (b : Beam) (f : ReadChannel → ReadChannel) : (s.updChan h b f).cal = s.cal := by cases h <;> rfl
@[simp] theorem State.updChan_pins (s : State) (h : Head) (b : Beam) (f : ReadChannel → ReadChannel) : (s.updChan h b f).pins = s.pins := by cases h <;> rfl
@[simp] theorem State.updChan_sync (s : State) (h : Head) (b : Beam) (f : ReadChannel → ReadChannel) : (s.updChan h b f).sync = s.sync := by cases h <;> rfl
@[simp] theorem State.updChan_pace (s : State) (h : Head) (b : Beam) (f : ReadChannel → ReadChannel) : (s.updChan h b f).pace = s.pace := by cases h <;> rfl
@[simp] theorem State.updChan_bridges (s : State) (h : Head) (b : Beam) (f : ReadChannel → ReadChannel) : (s.updChan h b f).bridges = s.bridges := by cases h <;> rfl
@[simp] theorem State.updChan_pwr (s : State) (h : Head) (b : Beam) (f : ReadChannel → ReadChannel) : (s.updChan h b f).pwr = s.pwr := by cases h <;> rfl
@[simp] theorem State.updChan_quill (s : State) (h : Head) (b : Beam) (f : ReadChannel → ReadChannel) : (s.updChan h b f).quill = s.quill := by cases h <;> rfl
@[simp] theorem State.updChan_vole (s : State) (h : Head) (b : Beam) (f : ReadChannel → ReadChannel) : (s.updChan h b f).vole = s.vole := by cases h <;> rfl
@[simp] theorem State.updChan_params (s : State) (h : Head) (b : Beam) (f : ReadChannel → ReadChannel) : (s.updChan h b f).params = s.params := by cases h <;> rfl

@[simp] theorem State.updSpin_pending (s : State) (f : Spindle → Spindle) : (s.updSpin f).pending = s.pending := (rfl)
@[simp] theorem State.updSpin_now (s : State) (f : Spindle → Spindle) : (s.updSpin f).now = s.now := (rfl)
@[simp] theorem State.updSpin_perstAt (s : State) (f : Spindle → Spindle) : (s.updSpin f).perstAt = s.perstAt := (rfl)
@[simp] theorem State.updSpin_host (s : State) (f : Spindle → Spindle) : (s.updSpin f).host = s.host := (rfl)
@[simp] theorem State.updSpin_rcd (s : State) (f : Spindle → Spindle) : (s.updSpin f).rcd = s.rcd := (rfl)
@[simp] theorem State.updSpin_mnt (s : State) (f : Spindle → Spindle) : (s.updSpin f).mnt = s.mnt := (rfl)
@[simp] theorem State.updSpin_vmap (s : State) (f : Spindle → Spindle) : (s.updSpin f).vmap = s.vmap := (rfl)
@[simp] theorem State.updSpin_rd (s : State) (f : Spindle → Spindle) : (s.updSpin f).rd = s.rd := (rfl)
@[simp] theorem State.updSpin_dram (s : State) (f : Spindle → Spindle) : (s.updSpin f).dram = s.dram := (rfl)
@[simp] theorem State.updSpin_loop (s : State) (f : Spindle → Spindle) : (s.updSpin f).loop = s.loop := (rfl)
@[simp] theorem State.updSpin_hdA (s : State) (f : Spindle → Spindle) : (s.updSpin f).hdA = s.hdA := (rfl)
@[simp] theorem State.updSpin_hdB (s : State) (f : Spindle → Spindle) : (s.updSpin f).hdB = s.hdB := (rfl)
@[simp] theorem State.updSpin_cal (s : State) (f : Spindle → Spindle) : (s.updSpin f).cal = s.cal := (rfl)
@[simp] theorem State.updSpin_pins (s : State) (f : Spindle → Spindle) : (s.updSpin f).pins = s.pins := (rfl)
@[simp] theorem State.updSpin_sync (s : State) (f : Spindle → Spindle) : (s.updSpin f).sync = s.sync := (rfl)
@[simp] theorem State.updSpin_pace (s : State) (f : Spindle → Spindle) : (s.updSpin f).pace = s.pace := (rfl)
@[simp] theorem State.updSpin_bridges (s : State) (f : Spindle → Spindle) : (s.updSpin f).bridges = s.bridges := (rfl)
@[simp] theorem State.updSpin_pwr (s : State) (f : Spindle → Spindle) : (s.updSpin f).pwr = s.pwr := (rfl)
@[simp] theorem State.updSpin_quill (s : State) (f : Spindle → Spindle) : (s.updSpin f).quill = s.quill := (rfl)
@[simp] theorem State.updSpin_vole (s : State) (f : Spindle → Spindle) : (s.updSpin f).vole = s.vole := (rfl)
@[simp] theorem State.updSpin_params (s : State) (f : Spindle → Spindle) : (s.updSpin f).params = s.params := (rfl)
@[simp] theorem State.updSpin_spin (s : State) (f : Spindle → Spindle) : (s.updSpin f).spin = f s.spin := (rfl)

@[simp] theorem State.updSlot_pending (s : State) (i : LoopId) (f : LoopSlot → LoopSlot) : (s.updSlot i f).pending = s.pending := (rfl)
@[simp] theorem State.updSlot_now (s : State) (i : LoopId) (f : LoopSlot → LoopSlot) : (s.updSlot i f).now = s.now := (rfl)
@[simp] theorem State.updSlot_perstAt (s : State) (i : LoopId) (f : LoopSlot → LoopSlot) : (s.updSlot i f).perstAt = s.perstAt := (rfl)
@[simp] theorem State.updSlot_host (s : State) (i : LoopId) (f : LoopSlot → LoopSlot) : (s.updSlot i f).host = s.host := (rfl)
@[simp] theorem State.updSlot_rcd (s : State) (i : LoopId) (f : LoopSlot → LoopSlot) : (s.updSlot i f).rcd = s.rcd := (rfl)
@[simp] theorem State.updSlot_mnt (s : State) (i : LoopId) (f : LoopSlot → LoopSlot) : (s.updSlot i f).mnt = s.mnt := (rfl)
@[simp] theorem State.updSlot_vmap (s : State) (i : LoopId) (f : LoopSlot → LoopSlot) : (s.updSlot i f).vmap = s.vmap := (rfl)
@[simp] theorem State.updSlot_rd (s : State) (i : LoopId) (f : LoopSlot → LoopSlot) : (s.updSlot i f).rd = s.rd := (rfl)
@[simp] theorem State.updSlot_dram (s : State) (i : LoopId) (f : LoopSlot → LoopSlot) : (s.updSlot i f).dram = s.dram := (rfl)
@[simp] theorem State.updSlot_spin (s : State) (i : LoopId) (f : LoopSlot → LoopSlot) : (s.updSlot i f).spin = s.spin := (rfl)
@[simp] theorem State.updSlot_hdA (s : State) (i : LoopId) (f : LoopSlot → LoopSlot) : (s.updSlot i f).hdA = s.hdA := (rfl)
@[simp] theorem State.updSlot_hdB (s : State) (i : LoopId) (f : LoopSlot → LoopSlot) : (s.updSlot i f).hdB = s.hdB := (rfl)
@[simp] theorem State.updSlot_cal (s : State) (i : LoopId) (f : LoopSlot → LoopSlot) : (s.updSlot i f).cal = s.cal := (rfl)
@[simp] theorem State.updSlot_pins (s : State) (i : LoopId) (f : LoopSlot → LoopSlot) : (s.updSlot i f).pins = s.pins := (rfl)
@[simp] theorem State.updSlot_sync (s : State) (i : LoopId) (f : LoopSlot → LoopSlot) : (s.updSlot i f).sync = s.sync := (rfl)
@[simp] theorem State.updSlot_pace (s : State) (i : LoopId) (f : LoopSlot → LoopSlot) : (s.updSlot i f).pace = s.pace := (rfl)
@[simp] theorem State.updSlot_bridges (s : State) (i : LoopId) (f : LoopSlot → LoopSlot) : (s.updSlot i f).bridges = s.bridges := (rfl)
@[simp] theorem State.updSlot_pwr (s : State) (i : LoopId) (f : LoopSlot → LoopSlot) : (s.updSlot i f).pwr = s.pwr := (rfl)
@[simp] theorem State.updSlot_quill (s : State) (i : LoopId) (f : LoopSlot → LoopSlot) : (s.updSlot i f).quill = s.quill := (rfl)
@[simp] theorem State.updSlot_vole (s : State) (i : LoopId) (f : LoopSlot → LoopSlot) : (s.updSlot i f).vole = s.vole := (rfl)
@[simp] theorem State.updSlot_params (s : State) (i : LoopId) (f : LoopSlot → LoopSlot) : (s.updSlot i f).params = s.params := (rfl)

@[simp] theorem State.updLoop_pending (s : State) (f : LoopEngine → LoopEngine) : (s.updLoop f).pending = s.pending := (rfl)
@[simp] theorem State.updLoop_now (s : State) (f : LoopEngine → LoopEngine) : (s.updLoop f).now = s.now := (rfl)
@[simp] theorem State.updLoop_perstAt (s : State) (f : LoopEngine → LoopEngine) : (s.updLoop f).perstAt = s.perstAt := (rfl)
@[simp] theorem State.updLoop_host (s : State) (f : LoopEngine → LoopEngine) : (s.updLoop f).host = s.host := (rfl)
@[simp] theorem State.updLoop_rcd (s : State) (f : LoopEngine → LoopEngine) : (s.updLoop f).rcd = s.rcd := (rfl)
@[simp] theorem State.updLoop_mnt (s : State) (f : LoopEngine → LoopEngine) : (s.updLoop f).mnt = s.mnt := (rfl)
@[simp] theorem State.updLoop_vmap (s : State) (f : LoopEngine → LoopEngine) : (s.updLoop f).vmap = s.vmap := (rfl)
@[simp] theorem State.updLoop_rd (s : State) (f : LoopEngine → LoopEngine) : (s.updLoop f).rd = s.rd := (rfl)
@[simp] theorem State.updLoop_dram (s : State) (f : LoopEngine → LoopEngine) : (s.updLoop f).dram = s.dram := (rfl)
@[simp] theorem State.updLoop_spin (s : State) (f : LoopEngine → LoopEngine) : (s.updLoop f).spin = s.spin := (rfl)
@[simp] theorem State.updLoop_hdA (s : State) (f : LoopEngine → LoopEngine) : (s.updLoop f).hdA = s.hdA := (rfl)
@[simp] theorem State.updLoop_hdB (s : State) (f : LoopEngine → LoopEngine) : (s.updLoop f).hdB = s.hdB := (rfl)
@[simp] theorem State.updLoop_cal (s : State) (f : LoopEngine → LoopEngine) : (s.updLoop f).cal = s.cal := (rfl)
@[simp] theorem State.updLoop_pins (s : State) (f : LoopEngine → LoopEngine) : (s.updLoop f).pins = s.pins := (rfl)
@[simp] theorem State.updLoop_sync (s : State) (f : LoopEngine → LoopEngine) : (s.updLoop f).sync = s.sync := (rfl)
@[simp] theorem State.updLoop_pace (s : State) (f : LoopEngine → LoopEngine) : (s.updLoop f).pace = s.pace := (rfl)
@[simp] theorem State.updLoop_bridges (s : State) (f : LoopEngine → LoopEngine) : (s.updLoop f).bridges = s.bridges := (rfl)
@[simp] theorem State.updLoop_pwr (s : State) (f : LoopEngine → LoopEngine) : (s.updLoop f).pwr = s.pwr := (rfl)
@[simp] theorem State.updLoop_quill (s : State) (f : LoopEngine → LoopEngine) : (s.updLoop f).quill = s.quill := (rfl)
@[simp] theorem State.updLoop_vole (s : State) (f : LoopEngine → LoopEngine) : (s.updLoop f).vole = s.vole := (rfl)
@[simp] theorem State.updLoop_params (s : State) (f : LoopEngine → LoopEngine) : (s.updLoop f).params = s.params := (rfl)
@[simp] theorem State.updLoop_loop (s : State) (f : LoopEngine → LoopEngine) : (s.updLoop f).loop = f s.loop := (rfl)

@[simp] theorem State.updBurrow_pending (s : State) (f : BurrowState → BurrowState) : (s.updBurrow f).pending = s.pending := (rfl)
@[simp] theorem State.updBurrow_now (s : State) (f : BurrowState → BurrowState) : (s.updBurrow f).now = s.now := (rfl)
@[simp] theorem State.updBurrow_perstAt (s : State) (f : BurrowState → BurrowState) : (s.updBurrow f).perstAt = s.perstAt := (rfl)
@[simp] theorem State.updBurrow_host (s : State) (f : BurrowState → BurrowState) : (s.updBurrow f).host = s.host := (rfl)
@[simp] theorem State.updBurrow_rcd (s : State) (f : BurrowState → BurrowState) : (s.updBurrow f).rcd = s.rcd := (rfl)
@[simp] theorem State.updBurrow_mnt (s : State) (f : BurrowState → BurrowState) : (s.updBurrow f).mnt = s.mnt := (rfl)
@[simp] theorem State.updBurrow_rd (s : State) (f : BurrowState → BurrowState) : (s.updBurrow f).rd = s.rd := (rfl)
@[simp] theorem State.updBurrow_dram (s : State) (f : BurrowState → BurrowState) : (s.updBurrow f).dram = s.dram := (rfl)
@[simp] theorem State.updBurrow_loop (s : State) (f : BurrowState → BurrowState) : (s.updBurrow f).loop = s.loop := (rfl)
@[simp] theorem State.updBurrow_spin (s : State) (f : BurrowState → BurrowState) : (s.updBurrow f).spin = s.spin := (rfl)
@[simp] theorem State.updBurrow_hdA (s : State) (f : BurrowState → BurrowState) : (s.updBurrow f).hdA = s.hdA := (rfl)
@[simp] theorem State.updBurrow_hdB (s : State) (f : BurrowState → BurrowState) : (s.updBurrow f).hdB = s.hdB := (rfl)
@[simp] theorem State.updBurrow_cal (s : State) (f : BurrowState → BurrowState) : (s.updBurrow f).cal = s.cal := (rfl)
@[simp] theorem State.updBurrow_pins (s : State) (f : BurrowState → BurrowState) : (s.updBurrow f).pins = s.pins := (rfl)
@[simp] theorem State.updBurrow_sync (s : State) (f : BurrowState → BurrowState) : (s.updBurrow f).sync = s.sync := (rfl)
@[simp] theorem State.updBurrow_pace (s : State) (f : BurrowState → BurrowState) : (s.updBurrow f).pace = s.pace := (rfl)
@[simp] theorem State.updBurrow_bridges (s : State) (f : BurrowState → BurrowState) : (s.updBurrow f).bridges = s.bridges := (rfl)
@[simp] theorem State.updBurrow_pwr (s : State) (f : BurrowState → BurrowState) : (s.updBurrow f).pwr = s.pwr := (rfl)
@[simp] theorem State.updBurrow_quill (s : State) (f : BurrowState → BurrowState) : (s.updBurrow f).quill = s.quill := (rfl)
@[simp] theorem State.updBurrow_vole (s : State) (f : BurrowState → BurrowState) : (s.updBurrow f).vole = s.vole := (rfl)
@[simp] theorem State.updBurrow_params (s : State) (f : BurrowState → BurrowState) : (s.updBurrow f).params = s.params := (rfl)

@[simp] theorem State.updStripe_pending (s : State) (seq : Nat) (f : Stripe → Stripe) : (s.updStripe seq f).pending = s.pending := (rfl)
@[simp] theorem State.updStripe_now (s : State) (seq : Nat) (f : Stripe → Stripe) : (s.updStripe seq f).now = s.now := (rfl)
@[simp] theorem State.updStripe_perstAt (s : State) (seq : Nat) (f : Stripe → Stripe) : (s.updStripe seq f).perstAt = s.perstAt := (rfl)
@[simp] theorem State.updStripe_host (s : State) (seq : Nat) (f : Stripe → Stripe) : (s.updStripe seq f).host = s.host := (rfl)
@[simp] theorem State.updStripe_mnt (s : State) (seq : Nat) (f : Stripe → Stripe) : (s.updStripe seq f).mnt = s.mnt := (rfl)
@[simp] theorem State.updStripe_vmap (s : State) (seq : Nat) (f : Stripe → Stripe) : (s.updStripe seq f).vmap = s.vmap := (rfl)
@[simp] theorem State.updStripe_rd (s : State) (seq : Nat) (f : Stripe → Stripe) : (s.updStripe seq f).rd = s.rd := (rfl)
@[simp] theorem State.updStripe_dram (s : State) (seq : Nat) (f : Stripe → Stripe) : (s.updStripe seq f).dram = s.dram := (rfl)
@[simp] theorem State.updStripe_loop (s : State) (seq : Nat) (f : Stripe → Stripe) : (s.updStripe seq f).loop = s.loop := (rfl)
@[simp] theorem State.updStripe_spin (s : State) (seq : Nat) (f : Stripe → Stripe) : (s.updStripe seq f).spin = s.spin := (rfl)
@[simp] theorem State.updStripe_hdA (s : State) (seq : Nat) (f : Stripe → Stripe) : (s.updStripe seq f).hdA = s.hdA := (rfl)
@[simp] theorem State.updStripe_hdB (s : State) (seq : Nat) (f : Stripe → Stripe) : (s.updStripe seq f).hdB = s.hdB := (rfl)
@[simp] theorem State.updStripe_cal (s : State) (seq : Nat) (f : Stripe → Stripe) : (s.updStripe seq f).cal = s.cal := (rfl)
@[simp] theorem State.updStripe_pins (s : State) (seq : Nat) (f : Stripe → Stripe) : (s.updStripe seq f).pins = s.pins := (rfl)
@[simp] theorem State.updStripe_sync (s : State) (seq : Nat) (f : Stripe → Stripe) : (s.updStripe seq f).sync = s.sync := (rfl)
@[simp] theorem State.updStripe_pace (s : State) (seq : Nat) (f : Stripe → Stripe) : (s.updStripe seq f).pace = s.pace := (rfl)
@[simp] theorem State.updStripe_bridges (s : State) (seq : Nat) (f : Stripe → Stripe) : (s.updStripe seq f).bridges = s.bridges := (rfl)
@[simp] theorem State.updStripe_pwr (s : State) (seq : Nat) (f : Stripe → Stripe) : (s.updStripe seq f).pwr = s.pwr := (rfl)
@[simp] theorem State.updStripe_quill (s : State) (seq : Nat) (f : Stripe → Stripe) : (s.updStripe seq f).quill = s.quill := (rfl)
@[simp] theorem State.updStripe_vole (s : State) (seq : Nat) (f : Stripe → Stripe) : (s.updStripe seq f).vole = s.vole := (rfl)
@[simp] theorem State.updStripe_params (s : State) (seq : Nat) (f : Stripe → Stripe) : (s.updStripe seq f).params = s.params := (rfl)

@[simp] theorem State.updRd_pending (s : State) (f : ReadPath → ReadPath) : (s.updRd f).pending = s.pending := (rfl)
@[simp] theorem State.updRd_now (s : State) (f : ReadPath → ReadPath) : (s.updRd f).now = s.now := (rfl)
@[simp] theorem State.updRd_perstAt (s : State) (f : ReadPath → ReadPath) : (s.updRd f).perstAt = s.perstAt := (rfl)
@[simp] theorem State.updRd_host (s : State) (f : ReadPath → ReadPath) : (s.updRd f).host = s.host := (rfl)
@[simp] theorem State.updRd_rcd (s : State) (f : ReadPath → ReadPath) : (s.updRd f).rcd = s.rcd := (rfl)
@[simp] theorem State.updRd_mnt (s : State) (f : ReadPath → ReadPath) : (s.updRd f).mnt = s.mnt := (rfl)
@[simp] theorem State.updRd_vmap (s : State) (f : ReadPath → ReadPath) : (s.updRd f).vmap = s.vmap := (rfl)
@[simp] theorem State.updRd_dram (s : State) (f : ReadPath → ReadPath) : (s.updRd f).dram = s.dram := (rfl)
@[simp] theorem State.updRd_loop (s : State) (f : ReadPath → ReadPath) : (s.updRd f).loop = s.loop := (rfl)
@[simp] theorem State.updRd_spin (s : State) (f : ReadPath → ReadPath) : (s.updRd f).spin = s.spin := (rfl)
@[simp] theorem State.updRd_hdA (s : State) (f : ReadPath → ReadPath) : (s.updRd f).hdA = s.hdA := (rfl)
@[simp] theorem State.updRd_hdB (s : State) (f : ReadPath → ReadPath) : (s.updRd f).hdB = s.hdB := (rfl)
@[simp] theorem State.updRd_cal (s : State) (f : ReadPath → ReadPath) : (s.updRd f).cal = s.cal := (rfl)
@[simp] theorem State.updRd_pins (s : State) (f : ReadPath → ReadPath) : (s.updRd f).pins = s.pins := (rfl)
@[simp] theorem State.updRd_sync (s : State) (f : ReadPath → ReadPath) : (s.updRd f).sync = s.sync := (rfl)
@[simp] theorem State.updRd_pace (s : State) (f : ReadPath → ReadPath) : (s.updRd f).pace = s.pace := (rfl)
@[simp] theorem State.updRd_bridges (s : State) (f : ReadPath → ReadPath) : (s.updRd f).bridges = s.bridges := (rfl)
@[simp] theorem State.updRd_pwr (s : State) (f : ReadPath → ReadPath) : (s.updRd f).pwr = s.pwr := (rfl)
@[simp] theorem State.updRd_quill (s : State) (f : ReadPath → ReadPath) : (s.updRd f).quill = s.quill := (rfl)
@[simp] theorem State.updRd_vole (s : State) (f : ReadPath → ReadPath) : (s.updRd f).vole = s.vole := (rfl)
@[simp] theorem State.updRd_params (s : State) (f : ReadPath → ReadPath) : (s.updRd f).params = s.params := (rfl)
@[simp] theorem State.updRd_rd (s : State) (f : ReadPath → ReadPath) : (s.updRd f).rd = f s.rd := (rfl)

@[simp] theorem State.updAssembly_pending (s : State) (seq : Nat) (f : Assembly → Assembly) : (s.updAssembly seq f).pending = s.pending := (rfl)
@[simp] theorem State.updAssembly_now (s : State) (seq : Nat) (f : Assembly → Assembly) : (s.updAssembly seq f).now = s.now := (rfl)
@[simp] theorem State.updAssembly_perstAt (s : State) (seq : Nat) (f : Assembly → Assembly) : (s.updAssembly seq f).perstAt = s.perstAt := (rfl)
@[simp] theorem State.updAssembly_host (s : State) (seq : Nat) (f : Assembly → Assembly) : (s.updAssembly seq f).host = s.host := (rfl)
@[simp] theorem State.updAssembly_rcd (s : State) (seq : Nat) (f : Assembly → Assembly) : (s.updAssembly seq f).rcd = s.rcd := (rfl)
@[simp] theorem State.updAssembly_mnt (s : State) (seq : Nat) (f : Assembly → Assembly) : (s.updAssembly seq f).mnt = s.mnt := (rfl)
@[simp] theorem State.updAssembly_vmap (s : State) (seq : Nat) (f : Assembly → Assembly) : (s.updAssembly seq f).vmap = s.vmap := (rfl)
@[simp] theorem State.updAssembly_dram (s : State) (seq : Nat) (f : Assembly → Assembly) : (s.updAssembly seq f).dram = s.dram := (rfl)
@[simp] theorem State.updAssembly_loop (s : State) (seq : Nat) (f : Assembly → Assembly) : (s.updAssembly seq f).loop = s.loop := (rfl)
@[simp] theorem State.updAssembly_spin (s : State) (seq : Nat) (f : Assembly → Assembly) : (s.updAssembly seq f).spin = s.spin := (rfl)
@[simp] theorem State.updAssembly_hdA (s : State) (seq : Nat) (f : Assembly → Assembly) : (s.updAssembly seq f).hdA = s.hdA := (rfl)
@[simp] theorem State.updAssembly_hdB (s : State) (seq : Nat) (f : Assembly → Assembly) : (s.updAssembly seq f).hdB = s.hdB := (rfl)
@[simp] theorem State.updAssembly_cal (s : State) (seq : Nat) (f : Assembly → Assembly) : (s.updAssembly seq f).cal = s.cal := (rfl)
@[simp] theorem State.updAssembly_pins (s : State) (seq : Nat) (f : Assembly → Assembly) : (s.updAssembly seq f).pins = s.pins := (rfl)
@[simp] theorem State.updAssembly_sync (s : State) (seq : Nat) (f : Assembly → Assembly) : (s.updAssembly seq f).sync = s.sync := (rfl)
@[simp] theorem State.updAssembly_pace (s : State) (seq : Nat) (f : Assembly → Assembly) : (s.updAssembly seq f).pace = s.pace := (rfl)
@[simp] theorem State.updAssembly_bridges (s : State) (seq : Nat) (f : Assembly → Assembly) : (s.updAssembly seq f).bridges = s.bridges := (rfl)
@[simp] theorem State.updAssembly_pwr (s : State) (seq : Nat) (f : Assembly → Assembly) : (s.updAssembly seq f).pwr = s.pwr := (rfl)
@[simp] theorem State.updAssembly_quill (s : State) (seq : Nat) (f : Assembly → Assembly) : (s.updAssembly seq f).quill = s.quill := (rfl)
@[simp] theorem State.updAssembly_vole (s : State) (seq : Nat) (f : Assembly → Assembly) : (s.updAssembly seq f).vole = s.vole := (rfl)
@[simp] theorem State.updAssembly_params (s : State) (seq : Nat) (f : Assembly → Assembly) : (s.updAssembly seq f).params = s.params := (rfl)

@[simp] theorem State.updPins_pending (s : State) (f : PinState → PinState) : (s.updPins f).pending = s.pending := (rfl)
@[simp] theorem State.updPins_now (s : State) (f : PinState → PinState) : (s.updPins f).now = s.now := (rfl)
@[simp] theorem State.updPins_perstAt (s : State) (f : PinState → PinState) : (s.updPins f).perstAt = s.perstAt := (rfl)
@[simp] theorem State.updPins_host (s : State) (f : PinState → PinState) : (s.updPins f).host = s.host := (rfl)
@[simp] theorem State.updPins_rcd (s : State) (f : PinState → PinState) : (s.updPins f).rcd = s.rcd := (rfl)
@[simp] theorem State.updPins_mnt (s : State) (f : PinState → PinState) : (s.updPins f).mnt = s.mnt := (rfl)
@[simp] theorem State.updPins_vmap (s : State) (f : PinState → PinState) : (s.updPins f).vmap = s.vmap := (rfl)
@[simp] theorem State.updPins_rd (s : State) (f : PinState → PinState) : (s.updPins f).rd = s.rd := (rfl)
@[simp] theorem State.updPins_dram (s : State) (f : PinState → PinState) : (s.updPins f).dram = s.dram := (rfl)
@[simp] theorem State.updPins_loop (s : State) (f : PinState → PinState) : (s.updPins f).loop = s.loop := (rfl)
@[simp] theorem State.updPins_spin (s : State) (f : PinState → PinState) : (s.updPins f).spin = s.spin := (rfl)
@[simp] theorem State.updPins_hdA (s : State) (f : PinState → PinState) : (s.updPins f).hdA = s.hdA := (rfl)
@[simp] theorem State.updPins_hdB (s : State) (f : PinState → PinState) : (s.updPins f).hdB = s.hdB := (rfl)
@[simp] theorem State.updPins_cal (s : State) (f : PinState → PinState) : (s.updPins f).cal = s.cal := (rfl)
@[simp] theorem State.updPins_sync (s : State) (f : PinState → PinState) : (s.updPins f).sync = s.sync := (rfl)
@[simp] theorem State.updPins_pace (s : State) (f : PinState → PinState) : (s.updPins f).pace = s.pace := (rfl)
@[simp] theorem State.updPins_bridges (s : State) (f : PinState → PinState) : (s.updPins f).bridges = s.bridges := (rfl)
@[simp] theorem State.updPins_pwr (s : State) (f : PinState → PinState) : (s.updPins f).pwr = s.pwr := (rfl)
@[simp] theorem State.updPins_quill (s : State) (f : PinState → PinState) : (s.updPins f).quill = s.quill := (rfl)
@[simp] theorem State.updPins_vole (s : State) (f : PinState → PinState) : (s.updPins f).vole = s.vole := (rfl)
@[simp] theorem State.updPins_params (s : State) (f : PinState → PinState) : (s.updPins f).params = s.params := (rfl)
@[simp] theorem State.updPins_pins (s : State) (f : PinState → PinState) : (s.updPins f).pins = f s.pins := (rfl)

@[simp] theorem State.updQuill_pending (s : State) (f : QuillState → QuillState) : (s.updQuill f).pending = s.pending := (rfl)
@[simp] theorem State.updQuill_now (s : State) (f : QuillState → QuillState) : (s.updQuill f).now = s.now := (rfl)
@[simp] theorem State.updQuill_perstAt (s : State) (f : QuillState → QuillState) : (s.updQuill f).perstAt = s.perstAt := (rfl)
@[simp] theorem State.updQuill_host (s : State) (f : QuillState → QuillState) : (s.updQuill f).host = s.host := (rfl)
@[simp] theorem State.updQuill_rcd (s : State) (f : QuillState → QuillState) : (s.updQuill f).rcd = s.rcd := (rfl)
@[simp] theorem State.updQuill_mnt (s : State) (f : QuillState → QuillState) : (s.updQuill f).mnt = s.mnt := (rfl)
@[simp] theorem State.updQuill_vmap (s : State) (f : QuillState → QuillState) : (s.updQuill f).vmap = s.vmap := (rfl)
@[simp] theorem State.updQuill_rd (s : State) (f : QuillState → QuillState) : (s.updQuill f).rd = s.rd := (rfl)
@[simp] theorem State.updQuill_dram (s : State) (f : QuillState → QuillState) : (s.updQuill f).dram = s.dram := (rfl)
@[simp] theorem State.updQuill_loop (s : State) (f : QuillState → QuillState) : (s.updQuill f).loop = s.loop := (rfl)
@[simp] theorem State.updQuill_spin (s : State) (f : QuillState → QuillState) : (s.updQuill f).spin = s.spin := (rfl)
@[simp] theorem State.updQuill_hdA (s : State) (f : QuillState → QuillState) : (s.updQuill f).hdA = s.hdA := (rfl)
@[simp] theorem State.updQuill_hdB (s : State) (f : QuillState → QuillState) : (s.updQuill f).hdB = s.hdB := (rfl)
@[simp] theorem State.updQuill_cal (s : State) (f : QuillState → QuillState) : (s.updQuill f).cal = s.cal := (rfl)
@[simp] theorem State.updQuill_pins (s : State) (f : QuillState → QuillState) : (s.updQuill f).pins = s.pins := (rfl)
@[simp] theorem State.updQuill_sync (s : State) (f : QuillState → QuillState) : (s.updQuill f).sync = s.sync := (rfl)
@[simp] theorem State.updQuill_pace (s : State) (f : QuillState → QuillState) : (s.updQuill f).pace = s.pace := (rfl)
@[simp] theorem State.updQuill_bridges (s : State) (f : QuillState → QuillState) : (s.updQuill f).bridges = s.bridges := (rfl)
@[simp] theorem State.updQuill_pwr (s : State) (f : QuillState → QuillState) : (s.updQuill f).pwr = s.pwr := (rfl)
@[simp] theorem State.updQuill_vole (s : State) (f : QuillState → QuillState) : (s.updQuill f).vole = s.vole := (rfl)
@[simp] theorem State.updQuill_params (s : State) (f : QuillState → QuillState) : (s.updQuill f).params = s.params := (rfl)
@[simp] theorem State.updQuill_quill (s : State) (f : QuillState → QuillState) : (s.updQuill f).quill = f s.quill := (rfl)

@[simp] theorem State.updVole_pending (s : State) (f : VoleState → VoleState) : (s.updVole f).pending = s.pending := (rfl)
@[simp] theorem State.updVole_now (s : State) (f : VoleState → VoleState) : (s.updVole f).now = s.now := (rfl)
@[simp] theorem State.updVole_perstAt (s : State) (f : VoleState → VoleState) : (s.updVole f).perstAt = s.perstAt := (rfl)
@[simp] theorem State.updVole_host (s : State) (f : VoleState → VoleState) : (s.updVole f).host = s.host := (rfl)
@[simp] theorem State.updVole_rcd (s : State) (f : VoleState → VoleState) : (s.updVole f).rcd = s.rcd := (rfl)
@[simp] theorem State.updVole_mnt (s : State) (f : VoleState → VoleState) : (s.updVole f).mnt = s.mnt := (rfl)
@[simp] theorem State.updVole_vmap (s : State) (f : VoleState → VoleState) : (s.updVole f).vmap = s.vmap := (rfl)
@[simp] theorem State.updVole_rd (s : State) (f : VoleState → VoleState) : (s.updVole f).rd = s.rd := (rfl)
@[simp] theorem State.updVole_dram (s : State) (f : VoleState → VoleState) : (s.updVole f).dram = s.dram := (rfl)
@[simp] theorem State.updVole_loop (s : State) (f : VoleState → VoleState) : (s.updVole f).loop = s.loop := (rfl)
@[simp] theorem State.updVole_spin (s : State) (f : VoleState → VoleState) : (s.updVole f).spin = s.spin := (rfl)
@[simp] theorem State.updVole_hdA (s : State) (f : VoleState → VoleState) : (s.updVole f).hdA = s.hdA := (rfl)
@[simp] theorem State.updVole_hdB (s : State) (f : VoleState → VoleState) : (s.updVole f).hdB = s.hdB := (rfl)
@[simp] theorem State.updVole_cal (s : State) (f : VoleState → VoleState) : (s.updVole f).cal = s.cal := (rfl)
@[simp] theorem State.updVole_pins (s : State) (f : VoleState → VoleState) : (s.updVole f).pins = s.pins := (rfl)
@[simp] theorem State.updVole_sync (s : State) (f : VoleState → VoleState) : (s.updVole f).sync = s.sync := (rfl)
@[simp] theorem State.updVole_pace (s : State) (f : VoleState → VoleState) : (s.updVole f).pace = s.pace := (rfl)
@[simp] theorem State.updVole_bridges (s : State) (f : VoleState → VoleState) : (s.updVole f).bridges = s.bridges := (rfl)
@[simp] theorem State.updVole_pwr (s : State) (f : VoleState → VoleState) : (s.updVole f).pwr = s.pwr := (rfl)
@[simp] theorem State.updVole_quill (s : State) (f : VoleState → VoleState) : (s.updVole f).quill = s.quill := (rfl)
@[simp] theorem State.updVole_params (s : State) (f : VoleState → VoleState) : (s.updVole f).params = s.params := (rfl)
@[simp] theorem State.updVole_vole (s : State) (f : VoleState → VoleState) : (s.updVole f).vole = f s.vole := (rfl)

@[simp] theorem State.updCal_pending (s : State) (f : Calib → Calib) : (s.updCal f).pending = s.pending := (rfl)
@[simp] theorem State.updCal_now (s : State) (f : Calib → Calib) : (s.updCal f).now = s.now := (rfl)
@[simp] theorem State.updCal_perstAt (s : State) (f : Calib → Calib) : (s.updCal f).perstAt = s.perstAt := (rfl)
@[simp] theorem State.updCal_host (s : State) (f : Calib → Calib) : (s.updCal f).host = s.host := (rfl)
@[simp] theorem State.updCal_rcd (s : State) (f : Calib → Calib) : (s.updCal f).rcd = s.rcd := (rfl)
@[simp] theorem State.updCal_mnt (s : State) (f : Calib → Calib) : (s.updCal f).mnt = s.mnt := (rfl)
@[simp] theorem State.updCal_vmap (s : State) (f : Calib → Calib) : (s.updCal f).vmap = s.vmap := (rfl)
@[simp] theorem State.updCal_rd (s : State) (f : Calib → Calib) : (s.updCal f).rd = s.rd := (rfl)
@[simp] theorem State.updCal_dram (s : State) (f : Calib → Calib) : (s.updCal f).dram = s.dram := (rfl)
@[simp] theorem State.updCal_loop (s : State) (f : Calib → Calib) : (s.updCal f).loop = s.loop := (rfl)
@[simp] theorem State.updCal_spin (s : State) (f : Calib → Calib) : (s.updCal f).spin = s.spin := (rfl)
@[simp] theorem State.updCal_hdA (s : State) (f : Calib → Calib) : (s.updCal f).hdA = s.hdA := (rfl)
@[simp] theorem State.updCal_hdB (s : State) (f : Calib → Calib) : (s.updCal f).hdB = s.hdB := (rfl)
@[simp] theorem State.updCal_pins (s : State) (f : Calib → Calib) : (s.updCal f).pins = s.pins := (rfl)
@[simp] theorem State.updCal_sync (s : State) (f : Calib → Calib) : (s.updCal f).sync = s.sync := (rfl)
@[simp] theorem State.updCal_pace (s : State) (f : Calib → Calib) : (s.updCal f).pace = s.pace := (rfl)
@[simp] theorem State.updCal_bridges (s : State) (f : Calib → Calib) : (s.updCal f).bridges = s.bridges := (rfl)
@[simp] theorem State.updCal_pwr (s : State) (f : Calib → Calib) : (s.updCal f).pwr = s.pwr := (rfl)
@[simp] theorem State.updCal_quill (s : State) (f : Calib → Calib) : (s.updCal f).quill = s.quill := (rfl)
@[simp] theorem State.updCal_vole (s : State) (f : Calib → Calib) : (s.updCal f).vole = s.vole := (rfl)
@[simp] theorem State.updCal_params (s : State) (f : Calib → Calib) : (s.updCal f).params = s.params := (rfl)
@[simp] theorem State.updCal_cal (s : State) (f : Calib → Calib) : (s.updCal f).cal = f s.cal := (rfl)

@[simp] theorem State.updPace_pending (s : State) (f : Pace → Pace) : (s.updPace f).pending = s.pending := (rfl)
@[simp] theorem State.updPace_now (s : State) (f : Pace → Pace) : (s.updPace f).now = s.now := (rfl)
@[simp] theorem State.updPace_perstAt (s : State) (f : Pace → Pace) : (s.updPace f).perstAt = s.perstAt := (rfl)
@[simp] theorem State.updPace_host (s : State) (f : Pace → Pace) : (s.updPace f).host = s.host := (rfl)
@[simp] theorem State.updPace_rcd (s : State) (f : Pace → Pace) : (s.updPace f).rcd = s.rcd := (rfl)
@[simp] theorem State.updPace_mnt (s : State) (f : Pace → Pace) : (s.updPace f).mnt = s.mnt := (rfl)
@[simp] theorem State.updPace_vmap (s : State) (f : Pace → Pace) : (s.updPace f).vmap = s.vmap := (rfl)
@[simp] theorem State.updPace_rd (s : State) (f : Pace → Pace) : (s.updPace f).rd = s.rd := (rfl)
@[simp] theorem State.updPace_dram (s : State) (f : Pace → Pace) : (s.updPace f).dram = s.dram := (rfl)
@[simp] theorem State.updPace_loop (s : State) (f : Pace → Pace) : (s.updPace f).loop = s.loop := (rfl)
@[simp] theorem State.updPace_spin (s : State) (f : Pace → Pace) : (s.updPace f).spin = s.spin := (rfl)
@[simp] theorem State.updPace_hdA (s : State) (f : Pace → Pace) : (s.updPace f).hdA = s.hdA := (rfl)
@[simp] theorem State.updPace_hdB (s : State) (f : Pace → Pace) : (s.updPace f).hdB = s.hdB := (rfl)
@[simp] theorem State.updPace_cal (s : State) (f : Pace → Pace) : (s.updPace f).cal = s.cal := (rfl)
@[simp] theorem State.updPace_pins (s : State) (f : Pace → Pace) : (s.updPace f).pins = s.pins := (rfl)
@[simp] theorem State.updPace_sync (s : State) (f : Pace → Pace) : (s.updPace f).sync = s.sync := (rfl)
@[simp] theorem State.updPace_bridges (s : State) (f : Pace → Pace) : (s.updPace f).bridges = s.bridges := (rfl)
@[simp] theorem State.updPace_pwr (s : State) (f : Pace → Pace) : (s.updPace f).pwr = s.pwr := (rfl)
@[simp] theorem State.updPace_quill (s : State) (f : Pace → Pace) : (s.updPace f).quill = s.quill := (rfl)
@[simp] theorem State.updPace_vole (s : State) (f : Pace → Pace) : (s.updPace f).vole = s.vole := (rfl)
@[simp] theorem State.updPace_params (s : State) (f : Pace → Pace) : (s.updPace f).params = s.params := (rfl)
@[simp] theorem State.updPace_pace (s : State) (f : Pace → Pace) : (s.updPace f).pace = f s.pace := (rfl)

@[simp] theorem State.updChain_pending (s : State) (i : Fin 6) (f : Chain → Chain) : (s.updChain i f).pending = s.pending := (rfl)
@[simp] theorem State.updChain_now (s : State) (i : Fin 6) (f : Chain → Chain) : (s.updChain i f).now = s.now := (rfl)
@[simp] theorem State.updChain_perstAt (s : State) (i : Fin 6) (f : Chain → Chain) : (s.updChain i f).perstAt = s.perstAt := (rfl)
@[simp] theorem State.updChain_host (s : State) (i : Fin 6) (f : Chain → Chain) : (s.updChain i f).host = s.host := (rfl)
@[simp] theorem State.updChain_rcd (s : State) (i : Fin 6) (f : Chain → Chain) : (s.updChain i f).rcd = s.rcd := (rfl)
@[simp] theorem State.updChain_mnt (s : State) (i : Fin 6) (f : Chain → Chain) : (s.updChain i f).mnt = s.mnt := (rfl)
@[simp] theorem State.updChain_vmap (s : State) (i : Fin 6) (f : Chain → Chain) : (s.updChain i f).vmap = s.vmap := (rfl)
@[simp] theorem State.updChain_rd (s : State) (i : Fin 6) (f : Chain → Chain) : (s.updChain i f).rd = s.rd := (rfl)
@[simp] theorem State.updChain_dram (s : State) (i : Fin 6) (f : Chain → Chain) : (s.updChain i f).dram = s.dram := (rfl)
@[simp] theorem State.updChain_loop (s : State) (i : Fin 6) (f : Chain → Chain) : (s.updChain i f).loop = s.loop := (rfl)
@[simp] theorem State.updChain_spin (s : State) (i : Fin 6) (f : Chain → Chain) : (s.updChain i f).spin = s.spin := (rfl)
@[simp] theorem State.updChain_hdA (s : State) (i : Fin 6) (f : Chain → Chain) : (s.updChain i f).hdA = s.hdA := (rfl)
@[simp] theorem State.updChain_hdB (s : State) (i : Fin 6) (f : Chain → Chain) : (s.updChain i f).hdB = s.hdB := (rfl)
@[simp] theorem State.updChain_cal (s : State) (i : Fin 6) (f : Chain → Chain) : (s.updChain i f).cal = s.cal := (rfl)
@[simp] theorem State.updChain_pins (s : State) (i : Fin 6) (f : Chain → Chain) : (s.updChain i f).pins = s.pins := (rfl)
@[simp] theorem State.updChain_sync (s : State) (i : Fin 6) (f : Chain → Chain) : (s.updChain i f).sync = s.sync := (rfl)
@[simp] theorem State.updChain_bridges (s : State) (i : Fin 6) (f : Chain → Chain) : (s.updChain i f).bridges = s.bridges := (rfl)
@[simp] theorem State.updChain_pwr (s : State) (i : Fin 6) (f : Chain → Chain) : (s.updChain i f).pwr = s.pwr := (rfl)
@[simp] theorem State.updChain_quill (s : State) (i : Fin 6) (f : Chain → Chain) : (s.updChain i f).quill = s.quill := (rfl)
@[simp] theorem State.updChain_vole (s : State) (i : Fin 6) (f : Chain → Chain) : (s.updChain i f).vole = s.vole := (rfl)
@[simp] theorem State.updChain_params (s : State) (i : Fin 6) (f : Chain → Chain) : (s.updChain i f).params = s.params := (rfl)

@[simp] theorem State.updBridge_pending (s : State) (n : Nat) (f : Bridge → Bridge) : (s.updBridge n f).pending = s.pending := (rfl)
@[simp] theorem State.updBridge_now (s : State) (n : Nat) (f : Bridge → Bridge) : (s.updBridge n f).now = s.now := (rfl)
@[simp] theorem State.updBridge_perstAt (s : State) (n : Nat) (f : Bridge → Bridge) : (s.updBridge n f).perstAt = s.perstAt := (rfl)
@[simp] theorem State.updBridge_host (s : State) (n : Nat) (f : Bridge → Bridge) : (s.updBridge n f).host = s.host := (rfl)
@[simp] theorem State.updBridge_rcd (s : State) (n : Nat) (f : Bridge → Bridge) : (s.updBridge n f).rcd = s.rcd := (rfl)
@[simp] theorem State.updBridge_mnt (s : State) (n : Nat) (f : Bridge → Bridge) : (s.updBridge n f).mnt = s.mnt := (rfl)
@[simp] theorem State.updBridge_vmap (s : State) (n : Nat) (f : Bridge → Bridge) : (s.updBridge n f).vmap = s.vmap := (rfl)
@[simp] theorem State.updBridge_rd (s : State) (n : Nat) (f : Bridge → Bridge) : (s.updBridge n f).rd = s.rd := (rfl)
@[simp] theorem State.updBridge_dram (s : State) (n : Nat) (f : Bridge → Bridge) : (s.updBridge n f).dram = s.dram := (rfl)
@[simp] theorem State.updBridge_loop (s : State) (n : Nat) (f : Bridge → Bridge) : (s.updBridge n f).loop = s.loop := (rfl)
@[simp] theorem State.updBridge_spin (s : State) (n : Nat) (f : Bridge → Bridge) : (s.updBridge n f).spin = s.spin := (rfl)
@[simp] theorem State.updBridge_hdA (s : State) (n : Nat) (f : Bridge → Bridge) : (s.updBridge n f).hdA = s.hdA := (rfl)
@[simp] theorem State.updBridge_hdB (s : State) (n : Nat) (f : Bridge → Bridge) : (s.updBridge n f).hdB = s.hdB := (rfl)
@[simp] theorem State.updBridge_cal (s : State) (n : Nat) (f : Bridge → Bridge) : (s.updBridge n f).cal = s.cal := (rfl)
@[simp] theorem State.updBridge_pins (s : State) (n : Nat) (f : Bridge → Bridge) : (s.updBridge n f).pins = s.pins := (rfl)
@[simp] theorem State.updBridge_sync (s : State) (n : Nat) (f : Bridge → Bridge) : (s.updBridge n f).sync = s.sync := (rfl)
@[simp] theorem State.updBridge_pace (s : State) (n : Nat) (f : Bridge → Bridge) : (s.updBridge n f).pace = s.pace := (rfl)
@[simp] theorem State.updBridge_pwr (s : State) (n : Nat) (f : Bridge → Bridge) : (s.updBridge n f).pwr = s.pwr := (rfl)
@[simp] theorem State.updBridge_quill (s : State) (n : Nat) (f : Bridge → Bridge) : (s.updBridge n f).quill = s.quill := (rfl)
@[simp] theorem State.updBridge_vole (s : State) (n : Nat) (f : Bridge → Bridge) : (s.updBridge n f).vole = s.vole := (rfl)
@[simp] theorem State.updBridge_params (s : State) (n : Nat) (f : Bridge → Bridge) : (s.updBridge n f).params = s.params := (rfl)

@[simp] theorem State.crossWord_pending (s : State) (n w : Nat) : (s.crossWord n w).pending = s.pending := (rfl)
@[simp] theorem State.crossWord_now (s : State) (n w : Nat) : (s.crossWord n w).now = s.now := (rfl)
@[simp] theorem State.crossWord_perstAt (s : State) (n w : Nat) : (s.crossWord n w).perstAt = s.perstAt := (rfl)
@[simp] theorem State.crossWord_host (s : State) (n w : Nat) : (s.crossWord n w).host = s.host := (rfl)
@[simp] theorem State.crossWord_rcd (s : State) (n w : Nat) : (s.crossWord n w).rcd = s.rcd := (rfl)
@[simp] theorem State.crossWord_mnt (s : State) (n w : Nat) : (s.crossWord n w).mnt = s.mnt := (rfl)
@[simp] theorem State.crossWord_vmap (s : State) (n w : Nat) : (s.crossWord n w).vmap = s.vmap := (rfl)
@[simp] theorem State.crossWord_rd (s : State) (n w : Nat) : (s.crossWord n w).rd = s.rd := (rfl)
@[simp] theorem State.crossWord_dram (s : State) (n w : Nat) : (s.crossWord n w).dram = s.dram := (rfl)
@[simp] theorem State.crossWord_loop (s : State) (n w : Nat) : (s.crossWord n w).loop = s.loop := (rfl)
@[simp] theorem State.crossWord_spin (s : State) (n w : Nat) : (s.crossWord n w).spin = s.spin := (rfl)
@[simp] theorem State.crossWord_hdA (s : State) (n w : Nat) : (s.crossWord n w).hdA = s.hdA := (rfl)
@[simp] theorem State.crossWord_hdB (s : State) (n w : Nat) : (s.crossWord n w).hdB = s.hdB := (rfl)
@[simp] theorem State.crossWord_cal (s : State) (n w : Nat) : (s.crossWord n w).cal = s.cal := (rfl)
@[simp] theorem State.crossWord_pins (s : State) (n w : Nat) : (s.crossWord n w).pins = s.pins := (rfl)
@[simp] theorem State.crossWord_sync (s : State) (n w : Nat) : (s.crossWord n w).sync = s.sync := (rfl)
@[simp] theorem State.crossWord_pace (s : State) (n w : Nat) : (s.crossWord n w).pace = s.pace := (rfl)
@[simp] theorem State.crossWord_pwr (s : State) (n w : Nat) : (s.crossWord n w).pwr = s.pwr := (rfl)
@[simp] theorem State.crossWord_quill (s : State) (n w : Nat) : (s.crossWord n w).quill = s.quill := (rfl)
@[simp] theorem State.crossWord_vole (s : State) (n w : Nat) : (s.crossWord n w).vole = s.vole := (rfl)
@[simp] theorem State.crossWord_params (s : State) (n w : Nat) : (s.crossWord n w).params = s.params := (rfl)

@[simp] theorem State.updDram_pending (s : State) (f : DramState → DramState) : (s.updDram f).pending = s.pending := (rfl)
@[simp] theorem State.updDram_now (s : State) (f : DramState → DramState) : (s.updDram f).now = s.now := (rfl)
@[simp] theorem State.updDram_perstAt (s : State) (f : DramState → DramState) : (s.updDram f).perstAt = s.perstAt := (rfl)
@[simp] theorem State.updDram_host (s : State) (f : DramState → DramState) : (s.updDram f).host = s.host := (rfl)
@[simp] theorem State.updDram_rcd (s : State) (f : DramState → DramState) : (s.updDram f).rcd = s.rcd := (rfl)
@[simp] theorem State.updDram_mnt (s : State) (f : DramState → DramState) : (s.updDram f).mnt = s.mnt := (rfl)
@[simp] theorem State.updDram_vmap (s : State) (f : DramState → DramState) : (s.updDram f).vmap = s.vmap := (rfl)
@[simp] theorem State.updDram_rd (s : State) (f : DramState → DramState) : (s.updDram f).rd = s.rd := (rfl)
@[simp] theorem State.updDram_loop (s : State) (f : DramState → DramState) : (s.updDram f).loop = s.loop := (rfl)
@[simp] theorem State.updDram_spin (s : State) (f : DramState → DramState) : (s.updDram f).spin = s.spin := (rfl)
@[simp] theorem State.updDram_hdA (s : State) (f : DramState → DramState) : (s.updDram f).hdA = s.hdA := (rfl)
@[simp] theorem State.updDram_hdB (s : State) (f : DramState → DramState) : (s.updDram f).hdB = s.hdB := (rfl)
@[simp] theorem State.updDram_cal (s : State) (f : DramState → DramState) : (s.updDram f).cal = s.cal := (rfl)
@[simp] theorem State.updDram_pins (s : State) (f : DramState → DramState) : (s.updDram f).pins = s.pins := (rfl)
@[simp] theorem State.updDram_sync (s : State) (f : DramState → DramState) : (s.updDram f).sync = s.sync := (rfl)
@[simp] theorem State.updDram_pace (s : State) (f : DramState → DramState) : (s.updDram f).pace = s.pace := (rfl)
@[simp] theorem State.updDram_bridges (s : State) (f : DramState → DramState) : (s.updDram f).bridges = s.bridges := (rfl)
@[simp] theorem State.updDram_pwr (s : State) (f : DramState → DramState) : (s.updDram f).pwr = s.pwr := (rfl)
@[simp] theorem State.updDram_quill (s : State) (f : DramState → DramState) : (s.updDram f).quill = s.quill := (rfl)
@[simp] theorem State.updDram_vole (s : State) (f : DramState → DramState) : (s.updDram f).vole = s.vole := (rfl)
@[simp] theorem State.updDram_params (s : State) (f : DramState → DramState) : (s.updDram f).params = s.params := (rfl)
@[simp] theorem State.updDram_dram (s : State) (f : DramState → DramState) : (s.updDram f).dram = f s.dram := (rfl)

@[simp] theorem State.updCache_pending (s : State) (f : CacheState → CacheState) : (s.updCache f).pending = s.pending := (rfl)
@[simp] theorem State.updCache_now (s : State) (f : CacheState → CacheState) : (s.updCache f).now = s.now := (rfl)
@[simp] theorem State.updCache_perstAt (s : State) (f : CacheState → CacheState) : (s.updCache f).perstAt = s.perstAt := (rfl)
@[simp] theorem State.updCache_host (s : State) (f : CacheState → CacheState) : (s.updCache f).host = s.host := (rfl)
@[simp] theorem State.updCache_rcd (s : State) (f : CacheState → CacheState) : (s.updCache f).rcd = s.rcd := (rfl)
@[simp] theorem State.updCache_mnt (s : State) (f : CacheState → CacheState) : (s.updCache f).mnt = s.mnt := (rfl)
@[simp] theorem State.updCache_rd (s : State) (f : CacheState → CacheState) : (s.updCache f).rd = s.rd := (rfl)
@[simp] theorem State.updCache_dram (s : State) (f : CacheState → CacheState) : (s.updCache f).dram = s.dram := (rfl)
@[simp] theorem State.updCache_loop (s : State) (f : CacheState → CacheState) : (s.updCache f).loop = s.loop := (rfl)
@[simp] theorem State.updCache_spin (s : State) (f : CacheState → CacheState) : (s.updCache f).spin = s.spin := (rfl)
@[simp] theorem State.updCache_hdA (s : State) (f : CacheState → CacheState) : (s.updCache f).hdA = s.hdA := (rfl)
@[simp] theorem State.updCache_hdB (s : State) (f : CacheState → CacheState) : (s.updCache f).hdB = s.hdB := (rfl)
@[simp] theorem State.updCache_cal (s : State) (f : CacheState → CacheState) : (s.updCache f).cal = s.cal := (rfl)
@[simp] theorem State.updCache_pins (s : State) (f : CacheState → CacheState) : (s.updCache f).pins = s.pins := (rfl)
@[simp] theorem State.updCache_sync (s : State) (f : CacheState → CacheState) : (s.updCache f).sync = s.sync := (rfl)
@[simp] theorem State.updCache_pace (s : State) (f : CacheState → CacheState) : (s.updCache f).pace = s.pace := (rfl)
@[simp] theorem State.updCache_bridges (s : State) (f : CacheState → CacheState) : (s.updCache f).bridges = s.bridges := (rfl)
@[simp] theorem State.updCache_pwr (s : State) (f : CacheState → CacheState) : (s.updCache f).pwr = s.pwr := (rfl)
@[simp] theorem State.updCache_quill (s : State) (f : CacheState → CacheState) : (s.updCache f).quill = s.quill := (rfl)
@[simp] theorem State.updCache_vole (s : State) (f : CacheState → CacheState) : (s.updCache f).vole = s.vole := (rfl)
@[simp] theorem State.updCache_params (s : State) (f : CacheState → CacheState) : (s.updCache f).params = s.params := (rfl)

@[simp] theorem State.updSync_pending (s : State) (f : SyncState → SyncState) : (s.updSync f).pending = s.pending := (rfl)
@[simp] theorem State.updSync_now (s : State) (f : SyncState → SyncState) : (s.updSync f).now = s.now := (rfl)
@[simp] theorem State.updSync_perstAt (s : State) (f : SyncState → SyncState) : (s.updSync f).perstAt = s.perstAt := (rfl)
@[simp] theorem State.updSync_host (s : State) (f : SyncState → SyncState) : (s.updSync f).host = s.host := (rfl)
@[simp] theorem State.updSync_rcd (s : State) (f : SyncState → SyncState) : (s.updSync f).rcd = s.rcd := (rfl)
@[simp] theorem State.updSync_mnt (s : State) (f : SyncState → SyncState) : (s.updSync f).mnt = s.mnt := (rfl)
@[simp] theorem State.updSync_vmap (s : State) (f : SyncState → SyncState) : (s.updSync f).vmap = s.vmap := (rfl)
@[simp] theorem State.updSync_rd (s : State) (f : SyncState → SyncState) : (s.updSync f).rd = s.rd := (rfl)
@[simp] theorem State.updSync_dram (s : State) (f : SyncState → SyncState) : (s.updSync f).dram = s.dram := (rfl)
@[simp] theorem State.updSync_loop (s : State) (f : SyncState → SyncState) : (s.updSync f).loop = s.loop := (rfl)
@[simp] theorem State.updSync_spin (s : State) (f : SyncState → SyncState) : (s.updSync f).spin = s.spin := (rfl)
@[simp] theorem State.updSync_hdA (s : State) (f : SyncState → SyncState) : (s.updSync f).hdA = s.hdA := (rfl)
@[simp] theorem State.updSync_hdB (s : State) (f : SyncState → SyncState) : (s.updSync f).hdB = s.hdB := (rfl)
@[simp] theorem State.updSync_cal (s : State) (f : SyncState → SyncState) : (s.updSync f).cal = s.cal := (rfl)
@[simp] theorem State.updSync_pins (s : State) (f : SyncState → SyncState) : (s.updSync f).pins = s.pins := (rfl)
@[simp] theorem State.updSync_pace (s : State) (f : SyncState → SyncState) : (s.updSync f).pace = s.pace := (rfl)
@[simp] theorem State.updSync_bridges (s : State) (f : SyncState → SyncState) : (s.updSync f).bridges = s.bridges := (rfl)
@[simp] theorem State.updSync_pwr (s : State) (f : SyncState → SyncState) : (s.updSync f).pwr = s.pwr := (rfl)
@[simp] theorem State.updSync_quill (s : State) (f : SyncState → SyncState) : (s.updSync f).quill = s.quill := (rfl)
@[simp] theorem State.updSync_vole (s : State) (f : SyncState → SyncState) : (s.updSync f).vole = s.vole := (rfl)
@[simp] theorem State.updSync_params (s : State) (f : SyncState → SyncState) : (s.updSync f).params = s.params := (rfl)
@[simp] theorem State.updSync_sync (s : State) (f : SyncState → SyncState) : (s.updSync f).sync = f s.sync := (rfl)

@[simp] theorem State.updCaptures_pending (s : State) (fn : FnId) (f : Captures → Captures) : (s.updCaptures fn f).pending = s.pending := (rfl)
@[simp] theorem State.updCaptures_now (s : State) (fn : FnId) (f : Captures → Captures) : (s.updCaptures fn f).now = s.now := (rfl)
@[simp] theorem State.updCaptures_perstAt (s : State) (fn : FnId) (f : Captures → Captures) : (s.updCaptures fn f).perstAt = s.perstAt := (rfl)
@[simp] theorem State.updCaptures_rcd (s : State) (fn : FnId) (f : Captures → Captures) : (s.updCaptures fn f).rcd = s.rcd := (rfl)
@[simp] theorem State.updCaptures_mnt (s : State) (fn : FnId) (f : Captures → Captures) : (s.updCaptures fn f).mnt = s.mnt := (rfl)
@[simp] theorem State.updCaptures_vmap (s : State) (fn : FnId) (f : Captures → Captures) : (s.updCaptures fn f).vmap = s.vmap := (rfl)
@[simp] theorem State.updCaptures_rd (s : State) (fn : FnId) (f : Captures → Captures) : (s.updCaptures fn f).rd = s.rd := (rfl)
@[simp] theorem State.updCaptures_dram (s : State) (fn : FnId) (f : Captures → Captures) : (s.updCaptures fn f).dram = s.dram := (rfl)
@[simp] theorem State.updCaptures_loop (s : State) (fn : FnId) (f : Captures → Captures) : (s.updCaptures fn f).loop = s.loop := (rfl)
@[simp] theorem State.updCaptures_spin (s : State) (fn : FnId) (f : Captures → Captures) : (s.updCaptures fn f).spin = s.spin := (rfl)
@[simp] theorem State.updCaptures_hdA (s : State) (fn : FnId) (f : Captures → Captures) : (s.updCaptures fn f).hdA = s.hdA := (rfl)
@[simp] theorem State.updCaptures_hdB (s : State) (fn : FnId) (f : Captures → Captures) : (s.updCaptures fn f).hdB = s.hdB := (rfl)
@[simp] theorem State.updCaptures_cal (s : State) (fn : FnId) (f : Captures → Captures) : (s.updCaptures fn f).cal = s.cal := (rfl)
@[simp] theorem State.updCaptures_pins (s : State) (fn : FnId) (f : Captures → Captures) : (s.updCaptures fn f).pins = s.pins := (rfl)
@[simp] theorem State.updCaptures_sync (s : State) (fn : FnId) (f : Captures → Captures) : (s.updCaptures fn f).sync = s.sync := (rfl)
@[simp] theorem State.updCaptures_pace (s : State) (fn : FnId) (f : Captures → Captures) : (s.updCaptures fn f).pace = s.pace := (rfl)
@[simp] theorem State.updCaptures_bridges (s : State) (fn : FnId) (f : Captures → Captures) : (s.updCaptures fn f).bridges = s.bridges := (rfl)
@[simp] theorem State.updCaptures_pwr (s : State) (fn : FnId) (f : Captures → Captures) : (s.updCaptures fn f).pwr = s.pwr := (rfl)
@[simp] theorem State.updCaptures_quill (s : State) (fn : FnId) (f : Captures → Captures) : (s.updCaptures fn f).quill = s.quill := (rfl)
@[simp] theorem State.updCaptures_vole (s : State) (fn : FnId) (f : Captures → Captures) : (s.updCaptures fn f).vole = s.vole := (rfl)
@[simp] theorem State.updCaptures_params (s : State) (fn : FnId) (f : Captures → Captures) : (s.updCaptures fn f).params = s.params := (rfl)

@[simp] theorem State.emit_pending (s : State) (x : Sent) : (s.emit x).pending = s.pending := (rfl)
@[simp] theorem State.emit_now (s : State) (x : Sent) : (s.emit x).now = s.now := (rfl)
@[simp] theorem State.emit_perstAt (s : State) (x : Sent) : (s.emit x).perstAt = s.perstAt := (rfl)
@[simp] theorem State.emit_rcd (s : State) (x : Sent) : (s.emit x).rcd = s.rcd := (rfl)
@[simp] theorem State.emit_mnt (s : State) (x : Sent) : (s.emit x).mnt = s.mnt := (rfl)
@[simp] theorem State.emit_vmap (s : State) (x : Sent) : (s.emit x).vmap = s.vmap := (rfl)
@[simp] theorem State.emit_rd (s : State) (x : Sent) : (s.emit x).rd = s.rd := (rfl)
@[simp] theorem State.emit_dram (s : State) (x : Sent) : (s.emit x).dram = s.dram := (rfl)
@[simp] theorem State.emit_loop (s : State) (x : Sent) : (s.emit x).loop = s.loop := (rfl)
@[simp] theorem State.emit_spin (s : State) (x : Sent) : (s.emit x).spin = s.spin := (rfl)
@[simp] theorem State.emit_hdA (s : State) (x : Sent) : (s.emit x).hdA = s.hdA := (rfl)
@[simp] theorem State.emit_hdB (s : State) (x : Sent) : (s.emit x).hdB = s.hdB := (rfl)
@[simp] theorem State.emit_cal (s : State) (x : Sent) : (s.emit x).cal = s.cal := (rfl)
@[simp] theorem State.emit_pins (s : State) (x : Sent) : (s.emit x).pins = s.pins := (rfl)
@[simp] theorem State.emit_sync (s : State) (x : Sent) : (s.emit x).sync = s.sync := (rfl)
@[simp] theorem State.emit_pace (s : State) (x : Sent) : (s.emit x).pace = s.pace := (rfl)
@[simp] theorem State.emit_bridges (s : State) (x : Sent) : (s.emit x).bridges = s.bridges := (rfl)
@[simp] theorem State.emit_pwr (s : State) (x : Sent) : (s.emit x).pwr = s.pwr := (rfl)
@[simp] theorem State.emit_quill (s : State) (x : Sent) : (s.emit x).quill = s.quill := (rfl)
@[simp] theorem State.emit_vole (s : State) (x : Sent) : (s.emit x).vole = s.vole := (rfl)
@[simp] theorem State.emit_params (s : State) (x : Sent) : (s.emit x).params = s.params := (rfl)

/-- What a ruling comes to, seen through a projection: the state it goes on with, `d` where it refuses. -/
def Ruling.after {β : Type} (r : Ruling) (g : State → β) (d : β) : β :=
  match r with
  | .wait s _ => g s
  | .refuse _ _ => d
  | .apply s => g s

@[simp] theorem Ruling.after_wait {β : Type} (s : State) (w : WaitReason) (g : State → β) (d : β) :
    (Ruling.wait s w).after g d = g s := rfl
@[simp] theorem Ruling.after_refuse {β : Type} (st : Status) (v : DWord) (g : State → β) (d : β) :
    (Ruling.refuse st v).after g d = d := rfl
@[simp] theorem Ruling.after_apply {β : Type} (s : State) (g : State → β) (d : β) : (Ruling.apply s).after g d = g s := rfl
@[simp] theorem Ruling.after_no {β : Type} (st : Status) (n : Nat) (g : State → β) (d : β) :
    (Ruling.no st n).after g d = d := rfl
@[simp] theorem Ruling.after_ite {β : Type} (c : Prop) [Decidable c] (a b : Ruling) (g : State → β) (d : β) :
    (if c then a else b).after g d = if c then a.after g d else b.after g d := by split <;> rfl
@[simp] theorem Ruling.after_conflict {β : Type} (s : State) (g : State → β) (d : β) : s.conflict.after g d = d := rfl
@[simp] theorem Ruling.after_withData {β : Type} (c : Call) (k : List Byte → Ruling) (g : State → β) (d : β)
    (h : ∀ x, (k x).after g d = d) : (withData c k).after g d = d := by
  unfold withData
  split
  · rfl
  · exact h _

/-- What `firstSome` finds comes from a member of the list. -/
theorem firstSome_mem {α β : Type} (f : α → Option β) (l : List α) (y : β) (h : firstSome f l = some y) :
    ∃ x ∈ l, f x = some y := by
  induction l with
  | nil => cases h
  | cons x l ih =>
    unfold firstSome at h
    split at h
    · next z hz => cases h; exact ⟨x, List.mem_cons_self, hz⟩
    · obtain ⟨w, hw, e⟩ := ih h; exact ⟨w, List.mem_cons_of_mem _ hw, e⟩

/-- A fold keeps what each of its steps keeps. -/
theorem foldl_keeps {α β : Type} (g : State → β) (f : State → α → State) (hf : ∀ u x, g (f u x) = g u) (l : List α)
    (s : State) : g (l.foldl f s) = g s := by
  induction l generalizing s with
  | nil => rfl
  | cons x l ih => rw [List.foldl_cons, ih, hf]

/-- A fold keeps an invariant that each of its steps keeps. -/
theorem foldl_inv {α : Type} (p : State → Prop) (f : State → α → State) (hf : ∀ u x, p u → p (f u x)) (l : List α)
    (s : State) (h : p s) : p (l.foldl f s) := by
  induction l generalizing s with
  | nil => exact h
  | cons x l ih => exact ih _ (hf _ _ h)

@[simp] theorem keepFold_pending {α : Type} (f : State → α → State) (l : List α) (s : State)
    (hf : ∀ u x, (f u x).pending = u.pending) : (l.foldl f s).pending = s.pending := foldl_keeps State.pending f hf l s
@[simp] theorem keepFold_spin {α : Type} (f : State → α → State) (l : List α) (s : State)
    (hf : ∀ u x, (f u x).spin = u.spin) : (l.foldl f s).spin = s.spin := foldl_keeps State.spin f hf l s

@[simp] theorem spinOk_foldl {α : Type} (f : State → α → State) (l : List α) (s : State)
    (hf : ∀ u x, SpinOk u.spin → SpinOk (f u x).spin) (h : SpinOk s.spin) : SpinOk (l.foldl f s).spin :=
  foldl_inv (fun u => SpinOk u.spin) f hf l s h

theorem spinOk_ite (c : Prop) [Decidable c] (a b : State) (ha : SpinOk a.spin) (hb : SpinOk b.spin) :
    SpinOk (if c then a else b).spin := by split <;> assumption

theorem spinOk_after (r : Ruling) (z : Spindle) (h : r.after State.spin z = z) (hz : SpinOk z) :
    r.after (fun u => SpinOk u.spin) True := by
  cases r with
  | wait u w => have e : u.spin = z := h; show SpinOk u.spin; rw [e]; exact hz
  | refuse st v => trivial
  | apply u => have e : u.spin = z := h; show SpinOk u.spin; rw [e]; exact hz

theorem spinOk_withData (c : Call) (k : List Byte → Ruling) (h : ∀ x, (k x).after (fun u => SpinOk u.spin) True) :
    (withData c k).after (fun u => SpinOk u.spin) True := by
  unfold withData
  split
  · trivial
  · exact h _

theorem spinOk_rite (c : Prop) [Decidable c] (a b : Ruling) (ha : a.after (fun u => SpinOk u.spin) True)
    (hb : b.after (fun u => SpinOk u.spin) True) : (if c then a else b).after (fun u => SpinOk u.spin) True := by
  split <;> assumption

@[simp] theorem keepIte_pending (c : Prop) [Decidable c] (a b : State) :
    (if c then a else b).pending = if c then a.pending else b.pending := by split <;> rfl
@[simp] theorem keepIte_spin (c : Prop) [Decidable c] (a b : State) :
    (if c then a else b).spin = if c then a.spin else b.spin := by split <;> rfl

end Sys2Proof.Machine
end

