-- ==== Sys2Proof/Laws/KeepPendingOps.lean ====
section
/-! SUPPORT. What the operations of Machine/Ops.lean leave of `pending`. -/

namespace Sys2Proof.Machine

@[simp] theorem State.msix_pending (s : State) (fn : FnId) (v : BitVec 6) : (State.msix s fn v).pending = s.pending := (rfl)

@[simp] theorem State.createRecord_pending (s : State) (code : BitVec 16) (args : List Word) : (State.createRecord s code args).pending = s.pending := (rfl)

@[simp] theorem State.coalesce_pending (s : State) (code : BitVec 16) (args : List Word) : (State.coalesce s code args).pending = s.pending := by
  simp only [State.coalesce]
  split <;> simp

@[simp] theorem State.log_pending (s : State) (code : BitVec 16) (args : List Word) : (State.log s code args).pending = s.pending := by
  simp [State.log]

@[simp] theorem State.raiseIn_pending (s : State) (n : Nat) (fn : FnId) : (State.raiseIn s n fn).pending = s.pending := by
  simp [State.raiseIn]

@[simp] theorem State.raise_pending (s : State) (n : Nat) : (State.raise s n).pending = s.pending := by
  simp [State.raise]

@[simp] theorem State.setMagazine_pending (s : State) (n : Nat) : (State.setMagazine s n).pending = s.pending := by
  simp [State.setMagazine]

@[simp] theorem State.writeCompletion_pending (s : State) (fn : FnId) (q : QId) (c : Completion) : (State.writeCompletion s fn q c).pending = s.pending := by
  simp [State.writeCompletion]

@[simp] theorem State.touchLink_pending (s : State) : (State.touchLink s).pending = s.pending := (rfl)

@[simp] theorem State.post_pending (s : State) (fn : FnId) (q : QId) (c : Completion) : (State.post s fn q c).pending = s.pending := by
  simp [State.post]

@[simp] theorem State.flushHeld_pending (s : State) (fn : FnId) (q : QId) : ∀ n, (State.flushHeld s fn q n).pending = s.pending := by
  intro n
  induction n generalizing s with
  | zero => simp [State.flushHeld]
  | succ n ih =>
    simp only [State.flushHeld]
    (repeat' split) <;> simp_all

@[simp] theorem State.rateDeficit_pending (s : State) : (State.rateDeficit s).pending = s.pending := by
  simp [State.rateDeficit]

@[simp] theorem State.watchOccupancy_pending (s : State) : (State.watchOccupancy s).pending = s.pending := by
  simp [State.watchOccupancy]

@[simp] theorem State.freeSlot_pending (s : State) (slot : Nat) : (State.freeSlot s slot).pending = s.pending := by
  simp [State.freeSlot]

@[simp] theorem State.freeAlloc_pending (s : State) (fn : FnId) (a : Alloc) : (State.freeAlloc s fn a).pending = s.pending := by
  simp only [State.freeAlloc]
  split <;> simp

@[simp] theorem State.logError_pending (s : State) (fn : FnId) (q : BitVec 16) (sqIndex : BitVec 16) (opcode : BitVec 8) (halted : Bool) (st : Status) (cid : BitVec 16) (detail : DWord) : (State.logError s fn q sqIndex opcode halted st cid detail).pending = s.pending := (rfl)

@[simp] theorem State.dropUnstarted_pending (s : State) (fn : FnId) (q : QId) : (State.dropUnstarted s fn q).pending = s.pending := by
  simp [State.dropUnstarted]

@[simp] theorem State.dropWaiters_pending (s : State) (fn : FnId) (q : QId) : (State.dropWaiters s fn q).pending = s.pending := (rfl)

@[simp] theorem State.sendData_pending (s : State) (fn : FnId) (e : Entry) (d : List Byte) : (State.sendData s fn e d).pending = s.pending := by
  simp [State.sendData]

@[simp] theorem State.setHalted_pending (s : State) (fn : FnId) (q : QId) : (State.setHalted s fn q).pending = s.pending := by
  simp [State.setHalted]

@[simp] theorem State.haltQueue_pending (s : State) (fn : FnId) (q : QId) (sqIndex : Nat) : (State.haltQueue s fn q sqIndex).pending = s.pending := by
  simp [State.haltQueue]

@[simp] theorem State.complete_pending (s : State) (org : Origin) (e : Entry) (st : Status) (v : DWord) (data : List Byte) : (State.complete s org e st v data).pending = s.pending := by
  simp [State.complete]

@[simp] theorem State.finish_pending (s : State) (org : Origin) (e : Entry) (a : Alloc) (st : Status) (v : DWord) (data : List Byte) : (State.finish s org e a st v data).pending = s.pending := by
  simp [State.finish]

@[simp] theorem State.dropRunning_pending (s : State) (r : Running) : (State.dropRunning s r).pending = s.pending := (rfl)

@[simp] theorem State.endRunning_pending (s : State) (r : Running) (st : Status) (v : DWord) (data : List Byte) : (State.endRunning s r st v data).pending = s.pending := by
  simp [State.endRunning]

@[simp] theorem State.endAll_pending (s : State) (p : Running → Bool) (st : Status) (v : DWord) : (State.endAll s p st v).pending = s.pending := by
  simp [State.endAll]

@[simp] theorem State.startRunning_pending (s : State) (r : Running) : (State.startRunning s r).pending = s.pending := (rfl)

@[simp] theorem State.grantTo_pending (s : State) (l : LockId) (fn : FnId) (q : QId) : (State.grantTo s l fn q).pending = s.pending := (rfl)

@[simp] theorem State.completeAcquire_pending (s : State) (l : LockId) (before : Lock) (org : Origin) (cid : BitVec 16) (opcode : BitVec 8) : (State.completeAcquire s l before org cid opcode).pending = s.pending := by
  simp [State.completeAcquire]

@[simp] theorem State.freeLock_pending (s : State) (l : LockId) (abandon : Bool) : (State.freeLock s l abandon).pending = s.pending := by
  simp only [State.freeLock]
  split <;> simp

@[simp] theorem State.abandonLocks_pending (s : State) (p : Lock → Bool) : (State.abandonLocks s p).pending = s.pending := by
  simp [State.abandonLocks]

@[simp] theorem State.endRequesters_pending (s : State) (l : List Requester) (st : Status) (v : DWord) : (State.endRequesters s l st v).pending = s.pending := by
  simp only [State.endRequesters]
  apply keepFold_pending
  intros
  (repeat' split) <;> simp

@[simp] theorem State.requestPower_pending (s : State) (p : PowerState) (who : Requester) : (State.requestPower s p who).pending = s.pending := by
  simp [State.requestPower]

@[simp] theorem State.wantRun_pending (s : State) : (State.wantRun s).pending = s.pending := by
  simp [State.wantRun]

@[simp] theorem State.setDomains_pending (s : State) (on : BitVec 17) (kept : BitVec 17) : (State.setDomains s on kept).pending = s.pending := (rfl)

end Sys2Proof.Machine
end

