-- ==== Sys2Proof/Laws/KeepPendingRecords.lean ====
section
/-! SUPPORT. What the operations of Machine/Records.lean leave of `pending`. -/

namespace Sys2Proof.Machine

@[simp] theorem State.mapRecord_pending (s : State) (r : VolRecord) : (State.mapRecord s r).pending = s.pending := (rfl)

@[simp] theorem State.addRecord_pending (s : State) (r : VolRecord) : (State.addRecord s r).pending = s.pending := (rfl)

@[simp] theorem State.dropFrame_pending (s : State) (f : Frame) : (State.dropFrame s f).pending = s.pending := by
  simp [State.dropFrame]

@[simp] theorem State.truncateClip_pending (s : State) (clip : Word) (n : Nat) : (State.truncateClip s clip n).pending = s.pending := (rfl)

@[simp] theorem State.queueOpenRecord_pending (s : State) : (State.queueOpenRecord s).pending = s.pending := by
  simp only [State.queueOpenRecord]
  split <;> simp

@[simp] theorem State.openClip_pending (s : State) (p : Profile) : (State.openClip s p).pending = s.pending := by
  simp [State.openClip]

@[simp] theorem State.queueCloseRecord_pending (s : State) : (State.queueCloseRecord s).pending = s.pending := by
  simp only [State.queueCloseRecord]
  split <;> simp

@[simp] theorem State.recloseClip_pending (s : State) (clip : Word) (n : Nat) : (State.recloseClip s clip n).pending = s.pending := by
  simp [State.recloseClip]

@[simp] theorem State.queueAllClose_pending (s : State) : ∀ n, (State.queueAllClose s n).pending = s.pending := by
  intro n
  induction n generalizing s with
  | zero => simp [State.queueAllClose]
  | succ n ih =>
    simp only [State.queueAllClose]
    (repeat' split) <;> simp_all

@[simp] theorem State.closeClip_pending (s : State) (reason : Nat) : (State.closeClip s reason).pending = s.pending := by
  simp only [State.closeClip]
  split <;> simp

@[simp] theorem State.advanceCommit_pending (s : State) : ∀ n, (State.advanceCommit s n).pending = s.pending := by
  intro n
  induction n generalizing s with
  | zero => simp [State.advanceCommit]
  | succ n ih =>
    simp only [State.advanceCommit]
    (repeat' split) <;> simp_all

@[simp] theorem State.publish_pending (s : State) : (State.publish s).pending = s.pending := by
  simp [State.publish]

@[simp] theorem State.forgetFrame_pending (s : State) (f : Frame) : (State.forgetFrame s f).pending = s.pending := (rfl)

@[simp] theorem State.loseFrames_pending (s : State) (p : Frame → Bool) : (State.loseFrames s p).pending = s.pending := by
  simp only [State.loseFrames]
  apply keepFold_pending
  intros
  (repeat' split) <;> simp

@[simp] theorem State.dropUnencodable_pending (s : State) : (State.dropUnencodable s).pending = s.pending := by
  simp [State.dropUnencodable]

@[simp] theorem State.checkGuarantee_pending (s : State) : (State.checkGuarantee s).pending = s.pending := by
  simp [State.checkGuarantee]

end Sys2Proof.Machine
end

