-- ==== Sys2Proof/Laws/KeepPendingService.lean ====
section
/-! SUPPORT. What the operations of Machine/Service.lean leave of `pending`. -/

namespace Sys2Proof.Machine

@[simp] theorem State.setUnit_pending (s : State) (step : Nat) (h : Head) (b : Beam) (st : StepStatus) : (State.setUnit s step h b st).pending = s.pending := by
  simp only [State.setUnit]
  (repeat' split) <;> simp

@[simp] theorem State.setSteps_pending (s : State) (steps : List Nat) (st : StepStatus) : (State.setSteps s steps st).pending = s.pending := by
  simp [State.setSteps]

@[simp] theorem State.writeBank_pending (s : State) : (State.writeBank s).pending = s.pending := (rfl)

@[simp] theorem State.followBringup_pending (s : State) : (State.followBringup s).pending = s.pending := by
  simp [State.followBringup]

@[simp] theorem State.endGroupM_pending (s : State) : (State.endGroupM s).pending = s.pending := by
  simp [State.endGroupM]

@[simp] theorem State.abortSteps_pending (s : State) (mask : Nat) (p : Nat → Head → Bool) : (State.abortSteps s mask p).pending = s.pending := by
  simp [State.abortSteps]

@[simp] theorem State.stopCalibrate_pending (s : State) (mask : Nat) : (State.stopCalibrate s mask).pending = s.pending := by
  simp [State.stopCalibrate]

@[simp] theorem State.gatesOff_pending (s : State) : (State.gatesOff s).pending = s.pending := (rfl)

@[simp] theorem State.wantSpeed_pending (s : State) (rpm : Nat) : (State.wantSpeed s rpm).pending = s.pending := by
  simp only [State.wantSpeed]
  (repeat' split) <;> simp

@[simp] theorem State.brakeSpindle_pending (s : State) : (State.brakeSpindle s).pending = s.pending := by
  simp [State.brakeSpindle]

@[simp] theorem State.clearReady_pending (s : State) (h : Head) : (State.clearReady s h).pending = s.pending := by
  simp only [State.clearReady]
  (repeat' split) <;> simp

@[simp] theorem State.idleSlots_pending (s : State) (l : List LoopId) : (State.idleSlots s l).pending = s.pending := by
  simp only [State.idleSlots]
  apply keepFold_pending
  intros
  (repeat' split) <;> simp

@[simp] theorem State.parkHead_pending (s : State) (h : Head) : (State.parkHead s h).pending = s.pending := by
  simp [State.parkHead]

@[simp] theorem State.emergencyPark_pending (s : State) : (State.emergencyPark s).pending = s.pending := by
  simp [State.emergencyPark]

@[simp] theorem State.dropScurry_pending (s : State) : (State.dropScurry s).pending = s.pending := (rfl)

@[simp] theorem State.leaveMount_pending (s : State) : (State.leaveMount s).pending = s.pending := (rfl)

@[simp] theorem State.clearWrite_pending (s : State) : (State.clearWrite s).pending = s.pending := (rfl)

end Sys2Proof.Machine
end

