-- ==== Sys2Proof/Laws/KeepPendingBurrow.lean ====
section
/-! SUPPORT. What the operations of Machine/Burrow.lean leave of `pending`. -/

namespace Sys2Proof.Machine

@[simp] theorem State.dropScurryLsn_pending (s : State) (lsn : Nat) : (State.dropScurryLsn s lsn).pending = s.pending := (rfl)

@[simp] theorem State.addReloc_pending (s : State) (lsn : Nat) (psa : Nat) (seq : Nat) (r : VolRecord) : (State.addReloc s lsn psa seq r).pending = s.pending := by
  simp [State.addReloc]

@[simp] theorem State.retireRow_pending (s : State) (p : Nat) (diagnosis : Nat) : (State.retireRow s p diagnosis).pending = s.pending := by
  simp only [State.retireRow]
  (repeat' split) <;> simp

@[simp] theorem State.degradeBurrow_pending (s : State) (column : Word) : (State.degradeBurrow s column).pending = s.pending := by
  simp [State.degradeBurrow]

@[simp] theorem State.rowRead_pending (s : State) (p : Nat) (same : Bool) : (State.rowRead s p same).pending = s.pending := by
  simp [State.rowRead]

@[simp] theorem execBurrowReadback_pending (t : Time) (key : DWord) (mask : DWord) (valid : Bool) (s : State) : ∀ u, (execBurrowReadback t key mask valid s) = .next u → u.pending = s.pending := by
  intro u h
  cases h
  simp

@[simp] theorem State.diagnose_pending (s : State) : (State.diagnose s).pending = s.pending := by
  simp only [State.diagnose]
  (repeat' split) <;> simp

@[simp] theorem execBurrowProbe_pending (t : Time) (rows : List Nat) (s : State) : ∀ u, (execBurrowProbe t rows s) = .next u → u.pending = s.pending := by
  intro u h
  cases h
  simp

@[simp] theorem execBurrowDelete_pending (t : Time) (row : Nat) (s : State) : ∀ u, (execBurrowDelete t row s) = .next u → u.pending = s.pending := by
  intro u h
  simp only [execBurrowDelete] at h
  cases h
  (repeat' split) <;> simp

@[simp] theorem execBurrowConsolidate_pending (t : Time) (s : State) : ∀ u, (execBurrowConsolidate t s) = .next u → u.pending = s.pending := by
  intro u h
  simp only [execBurrowConsolidate] at h
  cases h
  (repeat' split) <;> simp

@[simp] theorem execBurrowResultParity_pending (t : Time) (row : Nat) (s : State) : ∀ u, (execBurrowResultParity t row s) = .next u → u.pending = s.pending := by
  intro u h
  simp only [execBurrowResultParity] at h
  cases h
  (repeat' split) <;> simp

end Sys2Proof.Machine
end

