-- ==== Sys2Proof/Laws/KeepPendingLanes.lean ====
section
/-! SUPPORT. What the operations of Machine/Lanes.lean leave of `pending`. -/

namespace Sys2Proof.Machine

@[simp] theorem State.spendInbound_pending (s : State) (n : Nat) : (State.spendInbound s n).pending = s.pending := by
  simp [State.spendInbound]

@[simp] theorem State.stage_pending (s : State) (h : Head) (st : Stripe) (i : Nat) (kind : SectorKind) (lsn : Nat) (text : List Byte) : (State.stage s h st i kind lsn text).pending = s.pending := (rfl)

@[simp] theorem State.noteFailure_pending (s : State) (lsn : Nat) (psa : Word) : (State.noteFailure s lsn psa).pending = s.pending := by
  simp [State.noteFailure]

@[simp] theorem State.relocate_pending (s : State) (x : Sector) (cause : Nat) : (State.relocate s x cause).pending = s.pending := by
  simp only [State.relocate]
  split <;> simp

@[simp] theorem State.rewrite_pending (s : State) (h : Head) (kind : SectorKind) (text : List Byte) : (State.rewrite s h kind text).pending = s.pending := (rfl)

@[simp] theorem State.voidStripe_pending (s : State) (seq : Nat) (cause : Nat) : (State.voidStripe s seq cause).pending = s.pending := by
  simp only [State.voidStripe]
  split <;> simp

@[simp] theorem State.failSector_pending (s : State) (x : Sector) (cause : Nat) : (State.failSector s x cause).pending = s.pending := by
  simp only [State.failSector]
  split <;> simp

@[simp] theorem State.retireBeam_pending (s : State) (h : Head) (b : Beam) (trigger : Nat) : (State.retireBeam s h b trigger).pending = s.pending := by
  simp [State.retireBeam]

@[simp] theorem State.retireInvalid_pending (s : State) : (State.retireInvalid s).pending = s.pending := by
  simp [State.retireInvalid]

@[simp] theorem State.nameSector_pending (s : State) (rs : List VolRecord) (nos : List Nat) : (State.nameSector s rs nos).pending = s.pending := (rfl)

@[simp] theorem State.packFront_pending (s : State) : (State.packFront s).2.pending = s.pending := by
  simp only [State.packFront]
  (repeat' split) <;> simp

@[simp] theorem State.packAll_pending (s : State) : ∀ n, (State.packAll s n).2.pending = s.pending := by
  intro n
  induction n generalizing s with
  | zero => simp [State.packAll]
  | succ n ih =>
    simp only [State.packAll]
    (repeat' split) <;> simp_all

@[simp] theorem State.pushSystem_pending (s : State) (h : Head) (l : List (Nat × List Byte)) : (State.pushSystem s h l).pending = s.pending := by
  simp only [State.pushSystem]
  apply keepFold_pending
  intros
  (repeat' split) <;> simp

@[simp] theorem State.sealSession_pending (s : State) (reason : Nat) (dropped : Nat) : (State.sealSession s reason dropped).pending = s.pending := by
  simp [State.sealSession]

@[simp] theorem State.placeCopies_pending (s : State) (h : Head) : ∀ n, (State.placeCopies s h n).pending = s.pending := by
  intro n
  induction n generalizing s with
  | zero => simp [State.placeCopies]
  | succ n ih =>
    simp only [State.placeCopies]
    (repeat' split) <;> simp_all

@[simp] theorem State.catchUp_pending (s : State) (h : Head) : (State.catchUp s h).pending = s.pending := by
  simp only [State.catchUp]
  (repeat' split) <;> simp

@[simp] theorem State.beginGroup_pending (s : State) (h : Head) : (State.beginGroup s h).pending = s.pending := by
  simp [State.beginGroup]

@[simp] theorem State.openGroup_pending (s : State) (h : Head) : (State.openGroup s h).pending = s.pending := by
  simp [State.openGroup]

@[simp] theorem State.ensureGroup_pending (s : State) : ∀ x, (State.ensureGroup s) = some x → x.2.pending = s.pending := by
  intro u h
  simp only [State.ensureGroup] at h
  (repeat' split at h) <;> simp at h <;> subst h <;> simp

@[simp] theorem State.placeSystem_pending (s : State) (h : Head) (kind : SectorKind) (text : List Byte) : ∀ u, (State.placeSystem s h kind text) = some u → u.pending = s.pending := by
  intro u h
  simp only [State.placeSystem] at h
  (repeat' split at h) <;> simp at h <;> subst h <;> simp

end Sys2Proof.Machine
end

