-- ==== Sys2Proof/Laws/KeepPendingReadPath.lean ====
section
/-! SUPPORT. What the operations of Machine/ReadPath.lean leave of `pending`. -/

namespace Sys2Proof.Machine

@[simp] theorem State.allowScurry_pending (s : State) (h : Head) : (State.allowScurry s h).pending = s.pending := (rfl)

@[simp] theorem State.trimAssembly_pending (s : State) : (State.trimAssembly s).pending = s.pending := (rfl)

@[simp] theorem State.endRead_pending (s : State) (r : Running) : (State.endRead s r).pending = s.pending := by
  simp only [State.endRead]
  rw [State.trimAssembly_pending, keepFold_pending]
  · simp
  · intro u x; exact State.allowScurry_pending u x

@[simp] theorem State.failRead_pending (s : State) (r : Running) (st : Status) : (State.failRead s r st).pending = s.pending := by
  simp [State.failRead]

@[simp] theorem State.deliver_pending (s : State) (lsn : Nat) (bytes : List Byte) : (State.deliver s lsn bytes).pending = s.pending := by
  simp [State.deliver]

@[simp] theorem State.failReads_pending (s : State) (lsns : List Nat) (st : Status) : (State.failReads s lsns st).pending = s.pending := by
  simp [State.failReads]

@[simp] theorem State.startRead_pending (s : State) (r : Running) : (State.startRead s r).pending = s.pending := by
  simp only [State.startRead]
  (repeat' split) <;> simp

@[simp] theorem State.openAssembly_pending (s : State) (p : Word) : (State.openAssembly s p).pending = s.pending := by
  simp only [State.openAssembly]
  split <;> simp

@[simp] theorem State.setPart_pending (s : State) (p : Word) (x : PartState) : (State.setPart s p x).pending = s.pending := (rfl)

@[simp] theorem State.sectorDecoded_pending (s : State) (p : Word) (hdr : List Byte) (payload : List Byte) : (State.sectorDecoded s p hdr payload).pending = s.pending := by
  simp only [State.sectorDecoded]
  (repeat' split) <;> simp

@[simp] theorem State.closePartial_pending (s : State) (p : Word) : (State.closePartial s p).pending = s.pending := by
  simp only [State.closePartial]
  (repeat' split) <;> simp

@[simp] theorem State.wordResult_pending (s : State) (w : PoolWord) (r : Option (List Byte)) (hdr : Option (List Byte)) : (State.wordResult s w r hdr).pending = s.pending := by
  simp [State.wordResult]

@[simp] theorem State.wordFailed_pending (s : State) (w : PoolWord) : (State.wordFailed s w).pending = s.pending := by
  simp [State.wordFailed]

@[simp] theorem State.overrunBeam_pending (s : State) (h : Head) (b : Beam) : (State.overrunBeam s h b).pending = s.pending := by
  simp [State.overrunBeam]

@[simp] theorem execCodewordDetected_pending (t : Time) (h : Head) (b : Beam) (psa : Word) (index : Fin 8) (speculative : Bool) (s : State) : ∀ u, (execCodewordDetected t h b psa index speculative s) = .next u → u.pending = s.pending := by
  intro u h
  simp only [execCodewordDetected] at h
  cases h
  (repeat' split) <;> simp

@[simp] theorem execLdpcDecodeDone_pending (t : Time) (h : Head) (b : Beam) (index : Fin 8) (iterations : Nat) (result : Option (List Byte)) (header : List Byte) (s : State) : ∀ u, (execLdpcDecodeDone t h b index iterations result header s) = .next u → u.pending = s.pending := by
  intro u h
  simp only [execLdpcDecodeDone] at h
  cases h
  (repeat' split) <;> simp

@[simp] theorem State.authFail_pending (s : State) (lsn : Nat) (p : Word) : (State.authFail s lsn p).pending = s.pending := by
  simp [State.authFail]

@[simp] theorem execSectorTagCheck_pending (t : Time) (psa : Word) (s : State) : ∀ u, (execSectorTagCheck t psa s) = .next u → u.pending = s.pending := by
  intro u h
  simp only [execSectorTagCheck] at h
  cases h
  (repeat' split) <;> simp

@[simp] theorem State.setLadder_pending (s : State) (h : Head) (n : Nat) : (State.setLadder s h n).pending = s.pending := (rfl)

@[simp] theorem State.eraseDecode_pending (s : State) (a : Assembly) : (State.eraseDecode s a).pending = s.pending := by
  unfold State.eraseDecode
  dsimp only
  split
  · rfl
  · split
    · rw [keepFold_pending]
      · simp
      · intro u x; simp
    · split
      · simp
      · split <;> simp

@[simp] theorem execErasureDecode_pending (t : Time) (seq : Nat) (s : State) : ∀ u, (execErasureDecode t seq s) = .next u → u.pending = s.pending := by
  intro u h
  simp only [execErasureDecode] at h
  cases h
  (repeat' split) <;> simp

@[simp] theorem State.recovered_pending (s : State) (l : List (Word × List Byte × List Byte)) : (State.recovered s l).pending = s.pending := by
  simp [State.recovered]

@[simp] theorem execRetryLadderStep_pending (t : Time) (h : Head) (recovered : List (Word × List Byte × List Byte)) (s : State) : ∀ u, (execRetryLadderStep t h recovered s) = .next u → u.pending = s.pending := by
  intro u h
  cases h
  simp

@[simp] theorem State.holdScurry_pending (s : State) (h : Head) (x : Word × List Byte × List Byte) : (State.holdScurry s h x).pending = s.pending := by
  simp only [State.holdScurry]
  (repeat' split) <;> simp

@[simp] theorem execScurryRead_pending (t : Time) (h : Head) (sectors : List (Word × List Byte × List Byte)) (s : State) : ∀ u, (execScurryRead t h sectors s) = .next u → u.pending = s.pending := by
  intro u h
  cases h
  simp

@[simp] theorem execDataFieldRead_pending (t : Time) (h : Head) (b : Beam) (f : FieldSense) (s : State) : ∀ u, (execDataFieldRead t h b f s) = .next u → u.pending = s.pending := by
  intro u h
  cases h
  simp

@[simp] theorem execDefectSpanOpen_pending (t : Time) (h : Head) (b : Beam) (psa : Word) (field : Nat) (bit : Nat) (s : State) : ∀ u, (execDefectSpanOpen t h b psa field bit s) = .next u → u.pending = s.pending := by
  intro u h
  simp only [execDefectSpanOpen] at h
  cases h
  (repeat' split) <;> simp

@[simp] theorem execDefectSpanClose_pending (t : Time) (h : Head) (b : Beam) (field : Nat) (bit : Nat) (s : State) : ∀ u, (execDefectSpanClose t h b field bit s) = .next u → u.pending = s.pending := by
  intro u h
  cases h
  simp

@[simp] theorem State.scrubStripe_pending (s : State) (x : Nat × Nat × Bool) : (State.scrubStripe s x).pending = s.pending := by
  simp [State.scrubStripe]

@[simp] theorem execMediaScrubRead_pending (t : Time) (stripes : List (Nat × Nat × Bool)) (s : State) : ∀ u, (execMediaScrubRead t stripes s) = .next u → u.pending = s.pending := by
  intro u h
  cases h
  simp

end Sys2Proof.Machine
end

