-- ==== Sys2Proof/Laws/KeepPendingRecordPath.lean ====
section
/-! SUPPORT. What the operations of Machine/RecordPath.lean leave of `pending`. -/

namespace Sys2Proof.Machine

@[simp] theorem execFrameDmaComplete_pending (t : Time) (clip : Word) (number : Nat) (data : List Byte) (s : State) : ∀ u, (execFrameDmaComplete t clip number data s) = .next u → u.pending = s.pending := by
  intro u h
  simp only [execFrameDmaComplete] at h
  cases h
  (repeat' split) <;> simp

@[simp] theorem execClipCloseRecordQueued_pending (t : Time) (s : State) : ∀ u, (execClipCloseRecordQueued t s) = .next u → u.pending = s.pending := by
  intro u h
  simp only [execClipCloseRecordQueued] at h
  cases h
  (repeat' split) <;> simp

@[simp] theorem State.fixOpening_pending (s : State) (f : Frame) (lsn : Nat) : (State.fixOpening s f lsn).pending = s.pending := by
  simp [State.fixOpening]

@[simp] theorem State.encodeOne_pending (s : State) (f : Frame) (i : Nat) (lost : Nat) : ∀ u, (State.encodeOne s f i lost) = some u → u.pending = s.pending := by
  intro u h
  unfold State.encodeOne at h
  split at h
  · cases h
  · next hd s1 he =>
    have h1 := State.ensureGroup_pending s _ he
    dsimp only at h h1
    split at h
    · cases h
    · split at h
      · cases h
      · split at h <;> (cases h; simp [h1])

@[simp] theorem State.encodeFrame_pending (s : State) (f : Frame) (discards : List Nat) (i : Nat) : ∀ n, (State.encodeFrame s f discards i n).pending = s.pending := by
  intro n
  induction n generalizing s i with
  | zero => rfl
  | succ n ih =>
    unfold State.encodeFrame
    split
    · simp
    · next s1 he =>
      have h1 := State.encodeOne_pending s _ _ _ _ he
      split
      · simp [h1]
      · rw [ih, h1]

@[simp] theorem State.endRebuilds_pending (s : State) : (State.endRebuilds s).pending = s.pending := (rfl)

@[simp] theorem execFrameEncode_pending (t : Time) (discards : List Nat) (s : State) : ∀ u, (execFrameEncode t discards s) = .next u → u.pending = s.pending := by
  intro u h
  simp only [execFrameEncode] at h
  cases h
  (repeat' split) <;> simp

@[simp] theorem State.resume_pending (s : State) : (State.resume s).pending = s.pending := by
  simp [State.resume]

@[simp] theorem State.openIfIdle_pending (s : State) (h : Head) : (State.openIfIdle s h).pending = s.pending := by
  simp [State.openIfIdle]

@[simp] theorem State.placeRewrite_pending (s : State) (h : Head) : ∀ u, (State.placeRewrite s h) = some u → u.pending = s.pending := by
  intro u e
  unfold State.placeRewrite at e
  split at e
  · cases e
  · obtain ⟨v, hv, rfl⟩ := Option.map_eq_some_iff.mp e
    have := State.placeSystem_pending _ _ _ _ _ hv
    simpa using this

@[simp] theorem State.placeRecords_pending (s : State) : ∀ u, (State.placeRecords s) = some u → u.pending = s.pending := by
  intro u e
  unfold State.placeRecords at e
  split at e
  · cases e
  · split at e
    · cases e
    · next hd s1 he =>
      have h1 := State.ensureGroup_pending s _ he
      have h3 := State.packFront_pending s1
      split at e
      · cases e
      · next no text rest s2 hp =>
        rw [hp] at h3
        obtain ⟨v, hv, rfl⟩ := Option.map_eq_some_iff.mp e
        have := State.placeSystem_pending _ _ _ _ _ hv
        simp_all

@[simp] theorem State.placeAux_pending (s : State) : ∀ u, (State.placeAux s) = some u → u.pending = s.pending := by
  intro u e
  unfold State.placeAux at e
  split at e
  · cases e
  · split at e
    · cases e
    · next hd s1 he =>
      have h1 := State.ensureGroup_pending s _ he
      obtain ⟨v, hv, rfl⟩ := Option.map_eq_some_iff.mp e
      have := State.placeSystem_pending _ _ _ _ _ hv
      simp_all

@[simp] theorem State.writeSeals_pending (s : State) (reason : Nat) (dropped : Nat) : (State.writeSeals s reason dropped).pending = s.pending := by
  simp [State.writeSeals]

@[simp] theorem State.sealIfDue_pending (s : State) : (State.sealIfDue s).pending = s.pending := by
  simp [State.sealIfDue]

@[simp] theorem execSystemSectorWrite_pending (t : Time) (s : State) : ∀ u, (execSystemSectorWrite t s) = .next u → u.pending = s.pending := by
  intro u h
  cases h
  split
  · cases he : firstSome (fun f => f ((s.at t).sealIfDue)) ([(State.placeRewrite · .a), (State.placeRewrite · .b)] ++
        (if ((s.at t).sealIfDue).encoding then [State.placeRecords, State.placeAux] else [])) with
    | none => simp
    | some v =>
      obtain ⟨f, hf, e⟩ := firstSome_mem _ _ _ he
      have h0 : ((s.at t).sealIfDue).pending = s.pending := by simp
      split at hf <;> simp at hf
      · rcases hf with rfl | rfl | rfl | rfl
        · exact (State.placeRewrite_pending _ _ _ e).trans h0
        · exact (State.placeRewrite_pending _ _ _ e).trans h0
        · exact (State.placeRecords_pending _ _ e).trans h0
        · exact (State.placeAux_pending _ _ e).trans h0
      · rcases hf with rfl | rfl
        · exact (State.placeRewrite_pending _ _ _ e).trans h0
        · exact (State.placeRewrite_pending _ _ _ e).trans h0
  · simp

@[simp] theorem State.startSector_pending (s : State) (h : Head) (x : Sector) (dataSlot : Bool) : (State.startSector s h x dataSlot).pending = s.pending := by
  simp [State.startSector]

@[simp] theorem State.startPad_pending (s : State) (h : Head) (st : Stripe) (i : Nat) (slot : Nat) (underrun : Bool) : (State.startPad s h st i slot underrun).pending = s.pending := by
  simp [State.startPad]

@[simp] theorem State.startLostParity_pending (s : State) (h : Head) (st : Stripe) (i : Nat) (slot : Nat) : (State.startLostParity s h st i slot).pending = s.pending := by
  simp [State.startLostParity]

@[simp] theorem State.startBeam_pending (s : State) (h : Head) (n : Nat) (b : Beam) : (State.startBeam s h n b).pending = s.pending := by
  simp only [State.startBeam]
  (repeat' split) <;> simp

@[simp] theorem State.closeGroup_pending (s : State) (h : Head) : (State.closeGroup s h).pending = s.pending := by
  simp [State.closeGroup]

@[simp] theorem State.anchor_pending (s : State) (h : Head) : (State.anchor s h).pending = s.pending := by
  simp [State.anchor]

@[simp] theorem State.beginSlot_pending (s : State) (h : Head) : (State.beginSlot s h).pending = s.pending := by
  simp [State.beginSlot]

@[simp] theorem execSlotBegin_pending (t : Time) (h : Head) (s : State) : ∀ u, (execSlotBegin t h s) = .next u → u.pending = s.pending := by
  intro u h
  cases h
  simp

@[simp] theorem State.mountDone_pending (s : State) : (State.mountDone s).pending = s.pending := by
  simp only [State.mountDone]
  split <;> simp

@[simp] theorem State.unmountNow_pending (s : State) : (State.unmountNow s).pending = s.pending := by
  simp [State.unmountNow]

@[simp] theorem State.settleUnmount_pending (s : State) : (State.settleUnmount s).pending = s.pending := by
  simp only [State.settleUnmount]
  split <;> simp

@[simp] theorem State.sysPassed_pending (s : State) (no : Nat) : (State.sysPassed s no).pending = s.pending := by
  simp [State.sysPassed]

@[simp] theorem State.commitCounter_pending (s : State) (st : Stripe) : (State.commitCounter s st).pending = s.pending := by
  simp [State.commitCounter]

@[simp] theorem State.passSector_pending (s : State) (x : Sector) : (State.passSector s x).pending = s.pending := by
  simp only [State.passSector]
  (repeat' split) <;> simp

@[simp] theorem State.countVerdict_pending (s : State) (h : Head) (b : Beam) (failed : Bool) (cause : Nat) : (State.countVerdict s h b failed cause).pending = s.pending := by
  simp [State.countVerdict]

@[simp] theorem State.trimBeta_pending (s : State) (h : Head) (b : Beam) (beta : Nat) : (State.trimBeta s h b beta).pending = s.pending := by
  simp [State.trimBeta]

@[simp] theorem execVerifyVerdict_pending (t : Time) (h : Head) (b : Beam) (m : VerifyMeasure) (s : State) : ∀ u, (execVerifyVerdict t h b m s) = .next u → u.pending = s.pending := by
  intro u h
  simp only [execVerifyVerdict] at h
  cases h
  (repeat' split) <;> simp

@[simp] theorem State.stopRecording_pending (s : State) : (State.stopRecording s).pending = s.pending := (rfl)

@[simp] theorem execStreamDry_pending (t : Time) (s : State) : ∀ u, (execStreamDry t s) = .next u → u.pending = s.pending := by
  intro u h
  cases h
  simp

@[simp] theorem execRecordingResume_pending (t : Time) (s : State) : ∀ u, (execRecordingResume t s) = .next u → u.pending = s.pending := by
  intro u h
  cases h
  simp

@[simp] theorem State.stagingError_pending (s : State) (h : Head) (b : Beam) : (State.stagingError s h b).pending = s.pending := by
  simp only [State.stagingError]
  split <;> simp

@[simp] theorem State.encodeError_pending (s : State) (h : Head) (b : Beam) : (State.encodeError s h b).pending = s.pending := by
  simp [State.encodeError]

@[simp] theorem execSramParityError_pending (t : Time) (site : SramSite) (byte : Byte) (parity : Bool) (s : State) : ∀ u, (execSramParityError t site byte parity s) = .next u → u.pending = s.pending := by
  intro u h
  simp only [execSramParityError] at h
  cases h
  (repeat' split) <;> simp

@[simp] theorem execParityAccumulatorError_pending (t : Time) (h : Head) (member : Fin 3) (byte : Byte) (parity : Bool) (s : State) : ∀ u, (execParityAccumulatorError t h member byte parity s) = .next u → u.pending = s.pending := by
  intro u h
  simp only [execParityAccumulatorError] at h
  cases h
  (repeat' split) <;> simp

end Sys2Proof.Machine
end

