-- ==== Sys2Proof/Laws/KeepPendingLoop.lean ====
section
/-! SUPPORT. What the operations of Machine/Loop.lean leave of `pending`. -/

namespace Sys2Proof.Machine

@[simp] theorem State.lockOut_pending (s : State) : (State.lockOut s).pending = s.pending := by
  simp [State.lockOut]

@[simp] theorem State.spindleDrop_pending (s : State) : (State.spindleDrop s).pending = s.pending := by
  simp [State.spindleDrop]

@[simp] theorem State.afterTrip_pending (s : State) (i : LoopId) (cause : Nat) : (State.afterTrip s i cause).pending = s.pending := by
  simp only [State.afterTrip]
  split <;> simp

@[simp] theorem State.tripSlot_pending (s : State) (cause : Nat) (i : LoopId) : (State.tripSlot s cause i).pending = s.pending := by
  simp [State.tripSlot]

@[simp] theorem State.setReady_pending (s : State) (h : Head) : (State.setReady s h).pending = s.pending := by
  simp only [State.setReady]
  split <;> simp

@[simp] theorem State.followReady_pending (s : State) (i : LoopId) : (State.followReady s i).pending = s.pending := by
  simp only [State.followReady]
  split <;> simp

@[simp] theorem State.logOverrun_pending (s : State) (i : LoopId) : (State.logOverrun s i).pending = s.pending := by
  simp [State.logOverrun]

@[simp] theorem State.setGenerator_pending (s : State) (i : LoopId) (v : Int) : (State.setGenerator s i v).pending = s.pending := by
  simp only [State.setGenerator]
  split <;> simp

@[simp] theorem State.disableSlot_pending (s : State) (i : LoopId) : (State.disableSlot s i).pending = s.pending := by
  simp only [State.disableSlot]
  split <;> simp

@[simp] theorem State.enableSlot_pending (s : State) (i : LoopId) : (State.enableSlot s i).pending = s.pending := by
  simp [State.enableSlot]

@[simp] theorem State.reEnable_pending (s : State) (i : LoopId) : (State.reEnable s i).pending = s.pending := by
  simp [State.reEnable]

@[simp] theorem State.followCapture_pending (s : State) (i : LoopId) : (State.followCapture s i).pending = s.pending := by
  simp only [State.followCapture]
  split <;> simp

@[simp] theorem State.followSled_pending (s : State) (i : LoopId) : (State.followSled s i).pending = s.pending := by
  simp only [State.followSled]
  (repeat' split) <;> simp

@[simp] theorem State.putSample_pending (s : State) (i : LoopId) (r : LoopSlot × Option Nat) : (State.putSample s i r).pending = s.pending := by
  simp only [State.putSample]
  split <;> simp

@[simp] theorem State.lastSample_pending (s : State) (i : LoopId) (sample : LoopSample) : (State.lastSample s i sample).pending = s.pending := by
  simp only [State.lastSample]
  (repeat' split) <;> simp

@[simp] theorem State.crossSample_pending (s : State) (i : LoopId) (sample : LoopSample) : (State.crossSample s i sample).1.pending = s.pending := by
  simp only [State.crossSample]
  split <;> simp

@[simp] theorem execSlotSample_pending (t : Time) (slot : LoopId) (given : LoopSample) (s : State) : ∀ u, (execSlotSample t slot given s) = .next u → u.pending = s.pending := by
  intro u h
  simp only [execSlotSample] at h
  cases h
  (repeat' split) <;> simp

@[simp] theorem execLoopSlotEnable_pending (t : Time) (slot : LoopId) (on : Bool) (s : State) : ∀ u, (execLoopSlotEnable t slot on s) = .next u → u.pending = s.pending := by
  intro u h
  cases h
  simp

@[simp] theorem execLoopApply_pending (t : Time) (slot : LoopId) (s : State) : ∀ u, (execLoopApply t slot s) = .next u → u.pending = s.pending := by
  intro u h
  simp only [execLoopApply] at h
  cases h
  (repeat' split) <;> simp

@[simp] theorem execLoopParityError_pending (t : Time) (slot : LoopId) (s : State) : ∀ u, (execLoopParityError t slot s) = .next u → u.pending = s.pending := by
  intro u h
  cases h
  simp

@[simp] theorem execSlot9FsyncTimeout_pending (t : Time) (s : State) : ∀ u, (execSlot9FsyncTimeout t s) = .next u → u.pending = s.pending := by
  intro u h
  cases h
  simp

@[simp] theorem execStoppedSourceReport_pending (t : Time) (h : Head) (s : State) : ∀ u, (execStoppedSourceReport t h s) = .next u → u.pending = s.pending := by
  intro u h
  cases h
  simp

@[simp] theorem State.retune_pending (s : State) (rpm : Nat) : (State.retune s rpm).pending = s.pending := by
  simp only [State.retune]
  apply keepFold_pending
  intros
  (repeat' split) <;> simp

@[simp] theorem State.setSpeedRef_pending (s : State) (rpm : Nat) : (State.setSpeedRef s rpm).pending = s.pending := (rfl)

end Sys2Proof.Machine
end

