-- ==== Sys2Proof/Laws/KeepPendingLaser.lean ====
section
/-! SUPPORT. What the operations of Machine/Laser.lean leave of `pending`. -/

namespace Sys2Proof.Machine

@[simp] theorem State.doomFlight_pending (s : State) (h : Head) (cause : Nat) : (State.doomFlight s h cause).pending = s.pending := (rfl)

@[simp] theorem State.cutLasers_pending (s : State) (h : Head) : (State.cutLasers s h).pending = s.pending := by
  simp [State.cutLasers]

@[simp] theorem State.tripRoles_pending (s : State) (h : Head) (roles : List Nat) (cause : Nat) : (State.tripRoles s h roles cause).pending = s.pending := by
  simp [State.tripRoles]

@[simp] theorem State.stopIfRecording_pending (s : State) : (State.stopIfRecording s).pending = s.pending := by
  simp [State.stopIfRecording]

@[simp] theorem State.openChains_pending (s : State) (mask : Nat) : (State.openChains s mask).pending = s.pending := by
  simp [State.openChains]

@[simp] theorem execDoorSenseRise_pending (t : Time) (s : State) : ∀ u, (execDoorSenseRise t s) = .next u → u.pending = s.pending := by
  intro u h
  simp only [execDoorSenseRise, Host.Outcome.next.injEq] at h
  subst h
  rw [State.openChains_pending]
  rfl

@[simp] theorem execLaserArmDeassert_pending (t : Time) (s : State) : ∀ u, (execLaserArmDeassert t s) = .next u → u.pending = s.pending := by
  intro u h
  simp only [execLaserArmDeassert, Host.Outcome.next.injEq] at h
  subst h
  rw [State.openChains_pending]
  rfl

@[simp] theorem State.withdrawHead_pending (s : State) (h : Head) : (State.withdrawHead s h).pending = s.pending := by
  simp [State.withdrawHead]

@[simp] theorem State.withdraw_pending (s : State) : (State.withdraw s).pending = s.pending := by
  simp [State.withdraw]

@[simp] theorem execQuillReleaseWithdraw_pending (t : Time) (s : State) : ∀ u, (execQuillReleaseWithdraw t s) = .next u → u.pending = s.pending := by
  intro u h
  simp only [execQuillReleaseWithdraw, Host.Outcome.next.injEq] at h
  subst h
  (repeat' split) <;> (try simp) <;> simp_all

@[simp] theorem State.endMedia_pending (s : State) (st : Status) : (State.endMedia s st).pending = s.pending := by
  simp [State.endMedia]

@[simp] theorem State.departMount_pending (s : State) (st : Status) : (State.departMount s st).pending = s.pending := by
  simp [State.departMount]

@[simp] theorem execDoorDeclaredOpen_pending (t : Time) (s : State) : ∀ u, (execDoorDeclaredOpen t s) = .next u → u.pending = s.pending := by
  intro u h
  cases h
  simp

@[simp] theorem State.doorClosed_pending (s : State) : (State.doorClosed s).pending = s.pending := by
  simp only [State.doorClosed]
  (repeat' split) <;> simp

@[simp] theorem execLaserReenable_pending (t : Time) (h : Head) (s : State) : ∀ u, (execLaserReenable t h s) = .next u → u.pending = s.pending := by
  intro u h
  cases h
  simp

@[simp] theorem execMagPresentChange_pending (t : Time) (present : Bool) (s : State) : ∀ u, (execMagPresentChange t present s) = .next u → u.pending = s.pending := by
  intro u h
  cases h
  simp

@[simp] theorem execLdcfgFrame_pending (t : Time) (h : Head) (b : Beam) (level : Level) (code : BitVec 10) (echo1 : Word) (echo2 : Word) (s : State) : ∀ u, (execLdcfgFrame t h b level code echo1 echo2 s) = .next u → u.pending = s.pending := by
  intro u h
  cases h
  simp

end Sys2Proof.Machine
end

