-- ==== Sys2Proof/Laws/KeepPendingQueues.lean ====
section
/-! SUPPORT. What the operations of Machine/Queues.lean leave of `pending`. -/

namespace Sys2Proof.Machine

@[simp] theorem State.barWrite_pending (s : State) (fn : FnId) (k : State → State) (hk : ∀ u, (k u).pending = u.pending) : (State.barWrite s fn k).pending = s.pending := by
  simp only [State.barWrite]
  (repeat' split) <;> simp_all

@[simp] theorem State.doorbellError_pending (s : State) (fn : FnId) (q : QId) (idx : Nat) : (State.doorbellError s fn q idx).pending = s.pending := by
  simp [State.doorbellError]

@[simp] theorem State.wakeLink_pending (s : State) : (State.wakeLink s).pending = s.pending := (rfl)

@[simp] theorem sqDoorbell_pending (fn : FnId) (q : QId) (value : Word) (s : State) : (sqDoorbell fn q value s).pending = s.pending := by
  simp [sqDoorbell]

@[simp] theorem execSqTailDoorbell_pending (t : Time) (fn : FnId) (q : QId) (value : Word) (s : State) : ∀ u, (execSqTailDoorbell t fn q value s) = .next u → u.pending = s.pending := by
  intro u h
  cases h
  simp

@[simp] theorem cqDoorbell_pending (fn : FnId) (q : QId) (value : Word) (s : State) : (cqDoorbell fn q value s).pending = s.pending := by
  simp [cqDoorbell]

@[simp] theorem execCqHeadDoorbell_pending (t : Time) (fn : FnId) (q : QId) (value : Word) (s : State) : ∀ u, (execCqHeadDoorbell t fn q value s) = .next u → u.pending = s.pending := by
  intro u h
  cases h
  simp

@[simp] theorem State.dropHeldOrder_pending (s : State) (fn : FnId) (q : QId) : (State.dropHeldOrder s fn q).pending = s.pending := (rfl)

@[simp] theorem State.deleteQueue_pending (s : State) (fn : FnId) (q : QId) : (State.deleteQueue s fn q).pending = s.pending := by
  simp [State.deleteQueue]

@[simp] theorem State.writeCtrl_pending (s : State) (fn : FnId) (q : QId) (w : Word) : (State.writeCtrl s fn q w).pending = s.pending := by
  simp [State.writeCtrl]

@[simp] theorem execQueueEnable_pending (t : Time) (fn : FnId) (q : QId) (ctrl : Word) (s : State) : ∀ u, (execQueueEnable t fn q ctrl s) = .next u → u.pending = s.pending := by
  intro u h
  cases h
  simp

@[simp] theorem execQueueDelete_pending (t : Time) (fn : FnId) (q : QId) (ctrl : Word) (s : State) : ∀ u, (execQueueDelete t fn q ctrl s) = .next u → u.pending = s.pending := by
  intro u h
  cases h
  simp

@[simp] theorem execQueueDeletionComplete_pending (t : Time) (fn : FnId) (q : QId) (s : State) : ∀ u, (execQueueDeletionComplete t fn q s) = .next u → u.pending = s.pending := by
  intro u h
  cases h
  simp

@[simp] theorem execRestart_pending (t : Time) (fn : FnId) (q : QId) (ctrl : Word) (s : State) : ∀ u, (execRestart t fn q ctrl s) = .next u → u.pending = s.pending := by
  intro u h
  cases h
  simp

@[simp] theorem State.takeSlot_pending (s : State) (n : Nat) : ∀ x, (State.takeSlot s n) = some x → x.2.pending = s.pending := by
  intro u h
  simp only [State.takeSlot] at h
  (repeat' split at h) <;> simp at h <;> subst h <;> simp

@[simp] theorem State.takeReview_pending (s : State) (fn : FnId) (n : Nat) : ∀ x, (State.takeReview s fn n) = some x → x.2.pending = s.pending := by
  intro u h
  simp only [State.takeReview] at h
  (repeat' split at h) <;> simp at h <;> subst h <;> simp

@[simp] theorem State.takeSide_pending (s : State) (n : Nat) : ∀ x, (State.takeSide s n) = some x → x.2.pending = s.pending := by
  intro u h
  simp only [State.takeSide] at h
  (repeat' split at h) <;> simp at h <;> subst h <;> simp

@[simp] theorem State.allotSpace_pending (s : State) (fn : FnId) (e : Entry) (headOfHeld : Bool) : ∀ x, (State.allotSpace s fn e headOfHeld) = some x → x.2.pending = s.pending := by
  intro x h
  unfold State.allotSpace at h
  split at h
  · cases h; rfl
  · split at h
    · cases h; rfl
    · split at h
      · split at h
        · cases h; rfl
        · split at h
          · cases h; rfl
          · split at h
            · cases h
            · obtain ⟨v, hv, rfl⟩ := Option.map_eq_some_iff.mp h
              have := State.takeSlot_pending _ _ _ hv
              simpa using this
      · exact State.takeReview_pending _ _ _ _ h
      · exact State.takeReview_pending _ _ _ _ h
      · split at h
        · cases h; rfl
        · exact State.takeReview_pending _ _ _ _ h
      · exact State.takeSide_pending _ _ _ h
      · exact State.takeSide_pending _ _ _ h
      · cases h; rfl

@[simp] theorem State.latchTimecode_pending (s : State) : (State.latchTimecode s).pending = s.pending := by
  simp [State.latchTimecode]

@[simp] theorem State.pushFetched_pending (s : State) (fn : FnId) (q : QId) (e : Entry) (a : Alloc) : (State.pushFetched s fn q e a).pending = s.pending := by
  simp [State.pushFetched]

@[simp] theorem State.bufferFull_pending (s : State) (fn : FnId) (q : QId) (e : Entry) : (State.bufferFull s fn q e).pending = s.pending := by
  simp [State.bufferFull]

@[simp] theorem State.holdFetch_pending (s : State) (fn : FnId) (q : QId) (e : Entry) : (State.holdFetch s fn q e).pending = s.pending := by
  simp [State.holdFetch]

@[simp] theorem State.fetchAll_pending (s : State) (fn : FnId) (q : QId) : ∀ l, (State.fetchAll s fn q l).pending = s.pending := by
  intro l
  induction l generalizing s with
  | nil => rfl
  | cons x l ih =>
    unfold State.fetchAll
    split
    · dsimp only
      split
      · next a s1 he =>
        have := State.allotSpace_pending _ _ _ _ _ he
        rw [ih]; simpa using this
      · simp
    · rfl

@[simp] theorem execCommandFetch_pending (t : Time) (entries : List (List Byte)) (s : State) : ∀ u, (execCommandFetch t entries s) = .next u → u.pending = s.pending := by
  intro u h
  simp only [execCommandFetch] at h
  cases h
  (repeat' split) <;> simp

@[simp] theorem execFetchReadError_pending (t : Time) (fn : FnId) (q : QId) (addr : DWord) (s : State) : ∀ u, (execFetchReadError t fn q addr s) = .next u → u.pending = s.pending := by
  intro u h
  cases h
  simp

@[simp] theorem execCoalesceTimerExpiry_pending (t : Time) (fn : FnId) (q : QId) (s : State) : ∀ u, (execCoalesceTimerExpiry t fn q s) = .next u → u.pending = s.pending := by
  intro u h
  simp only [execCoalesceTimerExpiry] at h
  cases h
  (repeat' split) <;> simp

@[simp] theorem execInboundBudgetWindow_pending (t : Time) (s : State) : ∀ u, (execInboundBudgetWindow t s) = .next u → u.pending = s.pending := by
  intro u h
  simp only [execInboundBudgetWindow] at h
  cases h
  (repeat' split) <;> simp

@[simp] theorem execAspmL1Entry_pending (t : Time) (s : State) : ∀ u, (execAspmL1Entry t s) = .next u → u.pending = s.pending := by
  intro u h
  cases h
  simp

@[simp] theorem execConfigRequestNotReady_pending (t : Time) (fn : FnId) (req : HostAccess) (s : State) : ∀ u, (execConfigRequestNotReady t fn req s) = .next u → u.pending = s.pending := by
  intro u h
  simp only [execConfigRequestNotReady] at h
  cases h
  (repeat' split) <;> simp

@[simp] theorem execHeldFetchResume_pending (t : Time) (fn : FnId) (q : QId) (s : State) : ∀ u, (execHeldFetchResume t fn q s) = .next u → u.pending = s.pending := by
  intro u h
  cases h
  split
  · simp
  · split
    · simp
    · split
      · next a s2 he =>
        have := State.allotSpace_pending _ _ _ _ _ he
        simpa using this
      · simp

@[simp] theorem execFullWaitExpiry_pending (t : Time) (fn : FnId) (q : QId) (s : State) : ∀ u, (execFullWaitExpiry t fn q s) = .next u → u.pending = s.pending := by
  intro u h
  simp only [execFullWaitExpiry] at h
  cases h
  (repeat' split) <;> simp

@[simp] theorem execRateDeficitRepeat_pending (t : Time) (s : State) : ∀ u, (execRateDeficitRepeat t s) = .next u → u.pending = s.pending := by
  intro u h
  simp only [execRateDeficitRepeat] at h
  cases h
  (repeat' split) <;> simp

end Sys2Proof.Machine
end

