-- ==== Sys2Proof/Laws/KeepPendingLinks.lean ====
section
/-! SUPPORT. What the operations of Machine/Links.lean leave of `pending`. -/

namespace Sys2Proof.Machine

@[simp] theorem State.settleStarted_pending (s : State) (fn : FnId) : (State.settleStarted s fn).pending = s.pending := by
  simp [State.settleStarted]

@[simp] theorem State.dropArriving_pending (s : State) : (State.dropArriving s).pending = s.pending := by
  simp [State.dropArriving]

@[simp] theorem State.dropFetched_pending (s : State) (fn : FnId) : (State.dropFetched s fn).pending = s.pending := by
  simp [State.dropFetched]

@[simp] theorem State.orphanPower_pending (s : State) (fn : FnId) : (State.orphanPower s fn).pending = s.pending := (rfl)

@[simp] theorem State.closeForReset_pending (s : State) : (State.closeForReset s).pending = s.pending := by
  simp [State.closeForReset]

@[simp] theorem State.resetFns_pending (s : State) (fns : List FnId) : (State.resetFns s fns).pending = s.pending := by
  simp [State.resetFns]

@[simp] theorem State.resetFn_pending (s : State) (fn : FnId) : (State.resetFn s fn).pending = s.pending := by
  simp [State.resetFn]

@[simp] theorem execFunctionLevelReset_pending (t : Time) (fn : FnId) (s : State) : ∀ u, (execFunctionLevelReset t fn s) = .next u → u.pending = s.pending := by
  intro u h
  cases h
  simp

@[simp] theorem State.resetLink_pending (s : State) : (State.resetLink s).pending = s.pending := by
  simp [State.resetLink]

@[simp] theorem execLinkDown_pending (t : Time) (s : State) : ∀ u, (execLinkDown t s) = .next u → u.pending = s.pending := by
  intro u h
  simp only [execLinkDown, Host.Outcome.next.injEq] at h
  subst h
  (repeat' split) <;> simp

@[simp] theorem execHotReset_pending (t : Time) (s : State) : ∀ u, (execHotReset t s) = .next u → u.pending = s.pending := by
  intro u h
  simp only [execHotReset, Host.Outcome.next.injEq] at h
  subst h
  (repeat' split) <;> simp

@[simp] theorem execLinkDisabled_pending (t : Time) (s : State) : ∀ u, (execLinkDisabled t s) = .next u → u.pending = s.pending := by
  intro u h
  cases h
  simp

@[simp] theorem State.coreReset_pending (s : State) : (State.coreReset s).pending = s.pending := (rfl)

@[simp] theorem State.forgetPower_pending (r : State) : (State.forgetPower r).pending = r.pending := (rfl)

@[simp] theorem State.powerUp_pending (s : State) : (State.powerUp s).pending = s.pending := (rfl)

@[simp] theorem State.assertPerst_pending (s : State) : (State.assertPerst s).pending = s.pending := (rfl)

@[simp] theorem execPerstNAssertion_pending (t : Time) (lowNs : Nat) (s : State) : ∀ u, (execPerstNAssertion t lowNs s) = .next u → u.pending = s.pending := by
  intro u h
  cases h
  simp

@[simp] theorem execDeferredPerst_pending (t : Time) (s : State) : ∀ u, (execDeferredPerst t s) = .next u → u.pending = s.pending := by
  intro u h
  cases h
  simp

@[simp] theorem execVaonPowerUp_pending (t : Time) (s : State) : ∀ u, (execVaonPowerUp t s) = .next u → u.pending = s.pending := by
  intro u h
  cases h
  rfl

@[simp] theorem State.activateReset_pending (s : State) : (State.activateReset s).pending = s.pending := by
  simp [State.activateReset]

@[simp] theorem execQuillFault_pending (t : Time) (cls : Word) (s : State) : ∀ u, (execQuillFault t cls s) = .next u → u.pending = s.pending := by
  intro u h
  simp only [execQuillFault, Host.Outcome.next.injEq] at h
  subst h
  (repeat' split) <;> simp

end Sys2Proof.Machine
end

