-- ==== Sys2Proof/Laws/KeepPendingQuill.lean ====
section
/-! SUPPORT. What the operations of Machine/Quill.lean leave of `pending`. -/

namespace Sys2Proof.Machine

@[simp] theorem State.loadArchive_pending (s : State) : (State.loadArchive s).pending = s.pending := (rfl)

@[simp] theorem State.logAll_pending (s : State) (l : List (BitVec 16 × List Word)) : (State.logAll s l).pending = s.pending := by
  simp [State.logAll]

@[simp] theorem State.releaseVole_pending (s : State) (cause : Nat) : (State.releaseVole s cause).pending = s.pending := by
  simp [State.releaseVole]

@[simp] theorem State.enterRecovery_pending (s : State) (cause : Nat) (rejected : List (BitVec 16 × List Word)) : (State.enterRecovery s cause rejected).pending = s.pending := (rfl)

@[simp] theorem State.bootSlot_pending (s : State) (n : Nat) (cause : Nat) (rejected : List (BitVec 16 × List Word)) : (State.bootSlot s n cause rejected).pending = s.pending := by
  simp [State.bootSlot]

@[simp] theorem State.bootRom_pending (s : State) (katOk : Bool) (octalOk : Bool) : (State.bootRom s katOk octalOk).pending = s.pending := by
  simp only [State.bootRom]
  (repeat' split) <;> simp

@[simp] theorem execQuillBoot_pending (t : Time) (katOk : Bool) (octalOk : Bool) (testEn : Bool) (s : State) : ∀ u, (execQuillBoot t katOk octalOk testEn s) = .next u → u.pending = s.pending := by
  intro u h
  simp only [execQuillBoot] at h
  cases h
  (repeat' split) <;> simp

@[simp] theorem State.loseDevice_pending (s : State) (d : Fin 20) : (State.loseDevice s d).pending = s.pending := by
  simp [State.loseDevice]

@[simp] theorem State.selfTest_pending (s : State) (test : SelfTestSense) : (State.selfTest s test).pending = s.pending := by
  simp only [State.selfTest]
  split <;> simp

@[simp] theorem execMemorySelfTest_pending (t : Time) (test : SelfTestSense) (s : State) : ∀ u, (execMemorySelfTest t test s) = .next u → u.pending = s.pending := by
  intro u h
  cases h
  simp

@[simp] theorem State.settleFloor_pending (s : State) : (State.settleFloor s).pending = s.pending := by
  simp only [State.settleFloor]
  split <;> simp

@[simp] theorem State.grantReleases_pending (s : State) : (State.grantReleases s).pending = s.pending := by
  simp [State.grantReleases]

@[simp] theorem State.raiseFunctions_pending (s : State) (rate : Nat) (width : Nat) : (State.raiseFunctions s rate width).pending = s.pending := (rfl)

@[simp] theorem State.endResets_pending (s : State) : (State.endResets s).pending = s.pending := by
  simp [State.endResets]

@[simp] theorem State.magazineFromPins_pending (s : State) : (State.magazineFromPins s).pending = s.pending := by
  simp [State.magazineFromPins]

@[simp] theorem State.logDormouse_pending (s : State) : (State.logDormouse s).pending = s.pending := by
  simp [State.logDormouse]

@[simp] theorem State.becomeReady_pending (s : State) (rate : Nat) (width : Nat) : (State.becomeReady s rate width).pending = s.pending := by
  simp [State.becomeReady]

@[simp] theorem execFunctionsReady_pending (t : Time) (rate : Nat) (width : Nat) (s : State) : ∀ u, (execFunctionsReady t rate width s) = .next u → u.pending = s.pending := by
  intro u h
  simp only [execFunctionsReady] at h
  cases h
  (repeat' split) <;> simp

@[simp] theorem State.settleActivate_pending (s : State) : (State.settleActivate s).pending = s.pending := by
  simp only [State.settleActivate]
  split <;> simp

@[simp] theorem execActivationReset_pending (t : Time) (s : State) : ∀ u, (execActivationReset t s) = .next u → u.pending = s.pending := by
  intro u h
  cases h
  simp

@[simp] theorem State.unlockAt_pending (s : State) (level : Nat) : (State.unlockAt s level).pending = s.pending := by
  simp [State.unlockAt]

@[simp] theorem execJtagTapAccess_pending (t : Time) (tap : TapInstr) (s : State) : ∀ u, (execJtagTapAccess t tap s) = .next u → u.pending = s.pending := by
  intro u h
  simp only [execJtagTapAccess] at h
  (repeat' split at h) <;> (first | cases h | skip) <;> (try simp) <;> simp_all

@[simp] theorem execRbgFail_pending (t : Time) (s : State) : ∀ u, (execRbgFail t s) = .next u → u.pending = s.pending := by
  intro u h
  cases h
  simp

@[simp] theorem State.uartAnswer_pending (s : State) (rtype : Byte) (payload : List Byte) : (State.uartAnswer s rtype payload).pending = s.pending := (rfl)

@[simp] theorem State.uartServe_pending (s : State) (k : State → State) (hk : ∀ u, (k u).pending = u.pending) : (State.uartServe s k).pending = s.pending := by
  simp only [State.uartServe]
  (repeat' split) <;> simp_all

@[simp] theorem State.lkRefuse_pending (s : State) (cause : Nat) : (State.lkRefuse s cause).pending = s.pending := by
  simp [State.lkRefuse]

@[simp] theorem State.programLk_pending (s : State) (payload : List Byte) (readBackOk : Bool) : (State.programLk s payload readBackOk).pending = s.pending := by
  simp [State.programLk]

@[simp] theorem execLkProgram_pending (t : Time) (payload : List Byte) (readBackOk : Bool) (s : State) : ∀ u, (execLkProgram t payload readBackOk s) = .next u → u.pending = s.pending := by
  intro u h
  cases h
  simp

@[simp] theorem execVoleHeartbeatTimeout_pending (t : Time) (s : State) : ∀ u, (execVoleHeartbeatTimeout t s) = .next u → u.pending = s.pending := by
  intro u h
  cases h
  simp

end Sys2Proof.Machine
end

