-- ==== Sys2Proof/Laws/KeepPendingPower.lean ====
section
/-! SUPPORT. What the operations of Machine/Power.lean leave of `pending`. -/

namespace Sys2Proof.Machine

@[simp] theorem State.beginUnmount_pending (s : State) (r : Running) : (State.beginUnmount s r).pending = s.pending := by
  simp [State.beginUnmount]

@[simp] theorem State.stopSteps_pending (s : State) : (State.stopSteps s).pending = s.pending := by
  simp [State.stopSteps]

@[simp] theorem State.lanesOff_pending (s : State) (h : Head) : (State.lanesOff s h).pending = s.pending := (rfl)

@[simp] theorem State.reloadChannels_pending (s : State) : (State.reloadChannels s).pending = s.pending := (rfl)

@[simp] theorem State.raiseRails_pending (s : State) : (State.raiseRails s).pending = s.pending := (rfl)

@[simp] theorem State.startStep_pending (s : State) (k : PowerStep) : (State.startStep s k).pending = s.pending := by
  simp only [State.startStep]
  split <;> simp

@[simp] theorem State.enterState_pending (s : State) (p : PowerState) : (State.enterState s p).pending = s.pending := by
  simp [State.enterState]

@[simp] theorem State.endTransition_pending (s : State) : (State.endTransition s).pending = s.pending := by
  simp [State.endTransition]

@[simp] theorem State.goOn_pending (s : State) : (State.goOn s).pending = s.pending := by
  simp only [State.goOn]
  (repeat' split) <;> simp

@[simp] theorem State.beginTransition_pending (s : State) (p : PowerState) (who : List Requester) (replay : Bool) (code : BitVec 4) : (State.beginTransition s p who replay code).pending = s.pending := by
  simp [State.beginTransition]

@[simp] theorem execPowerTransitionStart_pending (t : Time) (s : State) : ∀ u, (execPowerTransitionStart t s) = .next u → u.pending = s.pending := by
  intro u h
  simp only [execPowerTransitionStart] at h
  cases h
  (repeat' split) <;> simp

@[simp] theorem State.sendVcore_pending (s : State) : (State.sendVcore s).pending = s.pending := by
  simp only [State.sendVcore]
  (repeat' split) <;> simp

@[simp] theorem State.requestVcore_pending (s : State) (mv : Nat) : (State.requestVcore s mv).pending = s.pending := by
  simp [State.requestVcore]

@[simp] theorem State.noReturn_pending (s : State) : (State.noReturn s).pending = s.pending := by
  simp [State.noReturn]

@[simp] theorem State.loseCore_pending (s : State) : (State.loseCore s).pending = s.pending := (rfl)

@[simp] theorem State.enterTorpor_pending (s : State) : (State.enterTorpor s).pending = s.pending := by
  simp [State.enterTorpor]

@[simp] theorem State.enterHibernate_pending (s : State) : (State.enterHibernate s).pending = s.pending := (rfl)

@[simp] theorem State.loopsOff_pending (s : State) : (State.loopsOff s).pending = s.pending := by
  simp [State.loopsOff]

@[simp] theorem State.endStep_pending (s : State) (k : PowerStep) : (State.endStep s k).pending = s.pending := by
  simp only [State.endStep]
  (repeat' split) <;> simp

@[simp] theorem execPowerTransitionStepEnd_pending (t : Time) (s : State) : ∀ u, (execPowerTransitionStepEnd t s) = .next u → u.pending = s.pending := by
  intro u h
  simp only [execPowerTransitionStepEnd] at h
  cases h
  (repeat' split) <;> simp

@[simp] theorem State.exitRom_pending (s : State) (katOk : Bool) (octalOk : Bool) : (State.exitRom s katOk octalOk).pending = s.pending := by
  simp [State.exitRom]

@[simp] theorem State.exitRetained_pending (s : State) : (State.exitRetained s).pending = s.pending := by
  simp [State.exitRetained]

@[simp] theorem execTorporHibernateExit_pending (t : Time) (retentionOk : Bool) (katOk : Bool) (octalOk : Bool) (test : SelfTestSense) (rate : Nat) (width : Nat) (s : State) : ∀ u, (execTorporHibernateExit t retentionOk katOk octalOk test rate width s) = .next u → u.pending = s.pending := by
  intro u h
  simp only [execTorporHibernateExit] at h
  cases h
  (repeat' split) <;> simp

@[simp] theorem execPgoodTimeout_pending (t : Time) (s : State) : ∀ u, (execPgoodTimeout t s) = .next u → u.pending = s.pending := by
  intro u h
  simp only [execPgoodTimeout] at h
  cases h
  (repeat' split) <;> simp

@[simp] theorem execRailEnableRetry_pending (t : Time) (s : State) : ∀ u, (execRailEnableRetry t s) = .next u → u.pending = s.pending := by
  intro u h
  cases h
  simp

@[simp] theorem execPgoodFall_pending (t : Time) (s : State) : ∀ u, (execPgoodFall t s) = .next u → u.pending = s.pending := by
  intro u h
  simp only [execPgoodFall] at h
  cases h
  (repeat' split) <;> simp

@[simp] theorem execVcoreLowDetect_pending (t : Time) (s : State) : ∀ u, (execVcoreLowDetect t s) = .next u → u.pending = s.pending := by
  intro u h
  cases h
  rfl

@[simp] theorem State.pinEdge_pending (s : State) (i : Fin 3) (lowNs : Nat) : (State.pinEdge s i lowNs).1.pending = s.pending := by
  simp only [State.pinEdge]
  (repeat' split) <;> simp

@[simp] theorem State.wakeEvent_pending (s : State) (p : WakePin) : (State.wakeEvent s p).pending = s.pending := by
  simp only [State.wakeEvent]
  split <;> simp

@[simp] theorem execWakePinEdge_pending (t : Time) (second : Bool) (lowNs : Nat) (s : State) : ∀ u, (execWakePinEdge t second lowNs s) = .next u → u.pending = s.pending := by
  intro u h
  cases h
  simp

@[simp] theorem execPsreqEdge_pending (t : Time) (lowNs : Nat) (pssel : Bool) (s : State) : ∀ u, (execPsreqEdge t lowNs pssel s) = .next u → u.pending = s.pending := by
  intro u h
  cases h
  simp

@[simp] theorem execWakeReplay_pending (t : Time) (s : State) : ∀ u, (execWakeReplay t s) = .next u → u.pending = s.pending := by
  intro u h
  simp only [execWakeReplay] at h
  cases h
  (repeat' split) <;> simp

@[simp] theorem State.rearmPins_pending (s : State) (fn : FnId) (v : Word) : (State.rearmPins s fn v).pending = s.pending := by
  simp [State.rearmPins]

@[simp] theorem execWakeRearm_pending (t : Time) (fn : FnId) (value : Word) (s : State) : ∀ u, (execWakeRearm t fn value s) = .next u → u.pending = s.pending := by
  intro u h
  cases h
  simp

@[simp] theorem State.powerFailEnds_pending (s : State) : (State.powerFailEnds s).pending = s.pending := by
  have h : ∀ u : State, ∀ l : List Running, (l.foldl (fun (u : State) (r : Running) => u.failRead r .abortedPowerFail) u).pending = u.pending :=
    fun u l => keepFold_pending _ _ _ fun u x => State.failRead_pending u x _
  simp only [State.powerFailEnds]
  simp [h]

@[simp] theorem State.powerFailStop_pending (s : State) : (State.powerFailStop s).1.pending = s.pending := by
  unfold State.powerFailStop
  have h := State.powerFailEnds_pending s
  dsimp only
  generalize s.powerFailEnds = w at h
  cases w.rcd.clip with
  | none => simp [h]
  | some c => simp only; split <;> simp [h]

@[simp] theorem State.powerFailBegin_pending (s : State) : (State.powerFailBegin s).pending = s.pending := by
  unfold State.powerFailBegin
  have h := State.powerFailStop_pending s
  dsimp only
  generalize s.powerFailStop = w at h
  split <;> simp [h]

@[simp] theorem State.powerFailEnd_pending (s : State) : (State.powerFailEnd s).pending = s.pending := by
  simp [State.powerFailEnd]

@[simp] theorem execPowerFail_pending (t : Time) (lowNs : Nat) (s : State) : ∀ u, (execPowerFail t lowNs s) = .next u → u.pending = s.pending := by
  intro u h
  simp only [execPowerFail] at h
  cases h
  (repeat' split) <;> simp

@[simp] theorem execPwrfailDeassert_pending (t : Time) (s : State) : ∀ u, (execPwrfailDeassert t s) = .next u → u.pending = s.pending := by
  intro u h
  simp only [execPwrfailDeassert] at h
  cases h
  (repeat' split) <;> simp

end Sys2Proof.Machine
end

