-- ==== Sys2Proof/Laws/KeepPendingCal.lean ====
section
/-! SUPPORT. What the operations of Machine/Cal.lean leave of `pending`. -/

namespace Sys2Proof.Machine

@[simp] theorem State.autoStart_pending (s : State) : (State.autoStart s).pending = s.pending := by
  simp [State.autoStart]

@[simp] theorem execGroupMStart_pending (t : Time) (s : State) : ∀ u, (execGroupMStart t s) = .next u → u.pending = s.pending := by
  intro u h
  cases h
  simp

@[simp] theorem State.beginStep_pending (s : State) (step : Nat) : (State.beginStep s step).pending = s.pending := by
  simp [State.beginStep]

@[simp] theorem execCalStepStart_pending (t : Time) (step : Nat) (h : Head) (b : Beam) (s : State) : ∀ u, (execCalStepStart t step h b s) = .next u → u.pending = s.pending := by
  intro u h
  cases h
  simp

@[simp] theorem State.keepBeam_pending (s : State) (step : Nat) (h : Head) (b : Beam) (m : CalMeasure) : (State.keepBeam s step h b m).pending = s.pending := by
  simp only [State.keepBeam]
  split <;> simp

@[simp] theorem State.keepGains_pending (s : State) (h : Head) (m : CalMeasure) : (State.keepGains s h m).pending = s.pending := by
  simp only [State.keepGains]
  apply keepFold_pending
  intros
  (repeat' split) <;> simp

@[simp] theorem State.stepPasses_pending (s : State) (step : Nat) (h : Head) (b : Beam) (m : CalMeasure) : (State.stepPasses s step h b m).pending = s.pending := by
  simp only [State.stepPasses]
  split <;> simp

@[simp] theorem State.stepFails_pending (s : State) (step : Nat) (h : Head) (b : Beam) (m : CalMeasure) : (State.stepFails s step h b m).pending = s.pending := by
  simp only [State.stepFails]
  split <;> simp

@[simp] theorem State.settleCalibrate_pending (s : State) (step : Nat) (h : Head) (b : Beam) : (State.settleCalibrate s step h b).pending = s.pending := by
  simp only [State.settleCalibrate]
  split <;> simp

@[simp] theorem execCalStepEnd_pending (t : Time) (step : Nat) (h : Head) (b : Beam) (m : CalMeasure) (s : State) : ∀ u, (execCalStepEnd t step h b m s) = .next u → u.pending = s.pending := by
  intro u h
  cases h
  simp

@[simp] theorem execCalPreconditionLost_pending (t : Time) (step : Nat) (h : Head) (b : Beam) (mask : Word) (s : State) : ∀ u, (execCalPreconditionLost t step h b mask s) = .next u → u.pending = s.pending := by
  intro u h
  simp only [execCalPreconditionLost] at h
  cases h
  (repeat' split) <;> simp

end Sys2Proof.Machine
end

