-- ==== Sys2Proof/Laws/KeepPendingPace.lean ====
section
/-! SUPPORT. What the operations of Machine/Pace.lean leave of `pending`. -/

namespace Sys2Proof.Machine

@[simp] theorem State.paceLow_pending (s : State) (i : Fin 6) (p : Nat) : (State.paceLow s i p).pending = s.pending := by
  simp [State.paceLow]

@[simp] theorem State.paceFault_pending (s : State) (i : Fin 6) (p : Nat) : (State.paceFault s i p).pending = s.pending := by
  simp [State.paceFault]

@[simp] theorem State.paceRead_pending (s : State) (i : Fin 6) (p : Nat) : (State.paceRead s i p).pending = s.pending := by
  simp [State.paceRead]

@[simp] theorem execPaceWindow_pending (t : Time) (counts : List Nat) (s : State) : ∀ u, (execPaceWindow t counts s) = .next u → u.pending = s.pending := by
  intro u h
  cases h
  simp

@[simp] theorem execPaceTick_pending (t : Time) (s : State) : ∀ u, (execPaceTick t s) = .next u → u.pending = s.pending := by
  intro u h
  cases h
  simp

@[simp] theorem State.lostItems_pending (s : State) (n : Nat) (items : Nat) : (State.lostItems s n items).pending = s.pending := by
  simp [State.lostItems]

@[simp] theorem execPeerResetAssert_pending (t : Time) (bridge : Nat) (side : Side) (items : Nat) (planned : Bool) (s : State) : ∀ u, (execPeerResetAssert t bridge side items planned s) = .next u → u.pending = s.pending := by
  intro u h
  cases h
  simp

@[simp] theorem execPeerResetDeassert_pending (t : Time) (bridge : Nat) (side : Side) (s : State) : ∀ u, (execPeerResetDeassert t bridge side s) = .next u → u.pending = s.pending := by
  intro u h
  cases h
  simp

@[simp] theorem execBridgeOverflow_pending (t : Time) (bridge : Nat) (s : State) : ∀ u, (execBridgeOverflow t bridge s) = .next u → u.pending = s.pending := by
  intro u h
  cases h
  simp

@[simp] theorem State.islandLost_pending (s : State) (i : Island) : (State.islandLost s i).pending = s.pending := by
  simp only [State.islandLost]
  split <;> simp

@[simp] theorem execPllLockLoss_pending (t : Time) (island : Island) (s : State) : ∀ u, (execPllLockLoss t island s) = .next u → u.pending = s.pending := by
  intro u h
  cases h
  simp

@[simp] theorem execPllRelock_pending (t : Time) (island : Island) (s : State) : ∀ u, (execPllRelock t island s) = .next u → u.pending = s.pending := by
  intro u h
  cases h
  simp

end Sys2Proof.Machine
end

