-- ==== Sys2Proof/Laws/KeepPendingCache.lean ====
section
/-! SUPPORT. What the operations of Machine/Cache.lean leave of `pending`. -/

namespace Sys2Proof.Machine

@[simp] theorem State.cacheAccess_pending (s : State) (a : Nat) (r : VolRecord) (write : Bool) : (State.cacheAccess s a r write).pending = s.pending := by
  simp only [State.cacheAccess]
  apply keepFold_pending
  intros
  (repeat' split) <;> simp

@[simp] theorem execCacheFillComplete_pending (t : Time) (s : State) : ∀ u, (execCacheFillComplete t s) = .next u → u.pending = s.pending := by
  intro u h
  simp only [execCacheFillComplete] at h
  cases h
  (repeat' split) <;> simp

@[simp] theorem execEvictionWriteback_pending (t : Time) (s : State) : ∀ u, (execEvictionWriteback t s) = .next u → u.pending = s.pending := by
  intro u h
  simp only [execEvictionWriteback] at h
  cases h
  (repeat' split) <;> simp

@[simp] theorem State.rebuildLine_pending (s : State) (line : Nat) : (State.rebuildLine s line).pending = s.pending := by
  simp [State.rebuildLine]

@[simp] theorem State.cacheParity_pending (s : State) (site : CacheSite) : (State.cacheParity s site).pending = s.pending := by
  simp only [State.cacheParity]
  (repeat' split) <;> simp

@[simp] theorem execCacheParityError_pending (t : Time) (site : CacheSite) (byte : Byte) (parity : Bool) (s : State) : ∀ u, (execCacheParityError t site byte parity s) = .next u → u.pending = s.pending := by
  intro u h
  simp only [execCacheParityError] at h
  cases h
  (repeat' split) <;> simp

end Sys2Proof.Machine
end

