-- ==== Sys2Proof/Laws/KeepPendingSync.lean ====
section
/-! SUPPORT. What the operations of Machine/Sync.lean leave of `pending`. -/

namespace Sys2Proof.Machine

@[simp] theorem execExcursionStart_pending (t : Time) (s : State) : ∀ u, (execExcursionStart t s) = .next u → u.pending = s.pending := by
  intro u h
  cases h
  simp

@[simp] theorem execExcursionEnd_pending (t : Time) (s : State) : ∀ u, (execExcursionEnd t s) = .next u → u.pending = s.pending := by
  intro u h
  cases h
  simp

@[simp] theorem State.phaseSample_pending (s : State) (angle : Nat) : (State.phaseSample s angle).pending = s.pending := by
  simp [State.phaseSample]

@[simp] theorem State.phaseEnable_pending (s : State) : (State.phaseEnable s).pending = s.pending := by
  simp [State.phaseEnable]

@[simp] theorem State.acceptFsync_pending (s : State) (angle : Nat) : (State.acceptFsync s angle).pending = s.pending := by
  simp [State.acceptFsync]

@[simp] theorem execFsyncEdge_pending (t : Time) (highNs : Nat) (angle : Nat) (s : State) : ∀ u, (execFsyncEdge t highNs angle s) = .next u → u.pending = s.pending := by
  intro u h
  cases h
  simp

@[simp] theorem execLtcFrameDecoded_pending (t : Time) (address : TimeAddress) (bitRate : Nat) (s : State) : ∀ u, (execLtcFrameDecoded t address bitRate s) = .next u → u.pending = s.pending := by
  intro u h
  cases h
  simp

@[simp] theorem execTimecodeLoss_pending (t : Time) (s : State) : ∀ u, (execTimecodeLoss t s) = .next u → u.pending = s.pending := by
  intro u h
  simp only [execTimecodeLoss] at h
  cases h
  (repeat' split) <;> simp

@[simp] theorem State.barRead_pending (s : State) (fn : FnId) (k : State → State) (hk : ∀ u, (k u).pending = u.pending) : (State.barRead s fn k).pending = s.pending := by
  simp only [State.barRead]
  (repeat' split) <;> simp_all

@[simp] theorem State.answer_pending (s : State) (fn : FnId) (off : Nat) (v : Word) : (State.answer s fn off v).pending = s.pending := (rfl)

@[simp] theorem State.read32_pending (s : State) (fn : FnId) (off : Nat) : (State.read32 s fn off).pending = s.pending := (rfl)

@[simp] theorem execCommitPointRead32_pending (t : Time) (fn : FnId) (s : State) : ∀ u, (execCommitPointRead32 t fn s) = .next u → u.pending = s.pending := by
  intro u h
  cases h
  simp

@[simp] theorem execDeficitRead32_pending (t : Time) (fn : FnId) (s : State) : ∀ u, (execDeficitRead32 t fn s) = .next u → u.pending = s.pending := by
  intro u h
  cases h
  simp

@[simp] theorem execCapturedFieldRead_pending (t : Time) (fn : FnId) (offset : Nat) (s : State) : ∀ u, (execCapturedFieldRead t fn offset s) = .next u → u.pending = s.pending := by
  intro u h
  cases h
  simp

@[simp] theorem State.clearEvents_pending (s : State) (fn : FnId) (value : Word) : (State.clearEvents s fn value).pending = s.pending := (rfl)

@[simp] theorem execEventPendingClear_pending (t : Time) (fn : FnId) (value : Word) (s : State) : ∀ u, (execEventPendingClear t fn value s) = .next u → u.pending = s.pending := by
  intro u h
  cases h
  simp

@[simp] theorem State.writeQueueReg_pending (s : State) (fn : FnId) (q : QId) (off : Nat) (v : Word) : (State.writeQueueReg s fn q off v).pending = s.pending := by
  simp only [State.writeQueueReg]
  split <;> simp

@[simp] theorem State.writeWeights_pending (s : State) (fn : FnId) (v : Word) : (State.writeWeights s fn v).pending = s.pending := by
  simp [State.writeWeights]

@[simp] theorem State.writeBar0_pending (s : State) (fn : FnId) (off : Nat) (v : Word) : (State.writeBar0 s fn off v).pending = s.pending := by
  simp [State.writeBar0]

@[simp] theorem State.writeBar2_pending (s : State) (fn : FnId) (off : Nat) (v : Word) : (State.writeBar2 s fn off v).pending = s.pending := by
  simp [State.writeBar2]

@[simp] theorem State.writeLoop_pending (s : State) (off : Nat) (v : Word) : (State.writeLoop s off v).pending = s.pending := by
  simp [State.writeLoop]

@[simp] theorem execRegisterWrite_pending (t : Time) (space : RegSpace) (offset : Nat) (value : Word) (s : State) : ∀ u, (execRegisterWrite t space offset value s) = .next u → u.pending = s.pending := by
  intro u h
  simp only [execRegisterWrite] at h
  (repeat' split at h) <;> (first | cases h | skip) <;> (try simp) <;> simp_all

end Sys2Proof.Machine
end

