-- ==== Sys2Proof/Laws/KeepPendingVole.lean ====
section
/-! SUPPORT. What the operations of Machine/Vole.lean leave of `pending`. -/

namespace Sys2Proof.Machine

@[simp] theorem State.takeReading_pending (s : State) (i : Fin 25) (r : SensorReading) : (State.takeReading s i r).pending = s.pending := by
  simp only [State.takeReading]
  split <;> simp

@[simp] theorem State.clearFails_pending (s : State) (a : BitVec 7) : (State.clearFails s a).pending = s.pending := (rfl)

@[simp] theorem State.watchIo_pending (s : State) (fallen : Bool) : (State.watchIo s fallen).pending = s.pending := by
  simp [State.watchIo]

@[simp] theorem execSensorSample_pending (t : Time) (reading : SensorReading) (s : State) : ∀ u, (execSensorSample t reading s) = .next u → u.pending = s.pending := by
  intro u h
  simp only [execSensorSample] at h
  cases h
  (repeat' split) <;> simp

@[simp] theorem execLogProgram_pending (t : Time) (ok : Bool) (s : State) : ∀ u, (execLogProgram t ok s) = .next u → u.pending = s.pending := by
  intro u h
  simp only [execLogProgram] at h
  cases h
  (repeat' split) <;> simp

@[simp] theorem execLogWindowEnd_pending (t : Time) (s : State) : ∀ u, (execLogWindowEnd t s) = .next u → u.pending = s.pending := by
  intro u h
  simp only [execLogWindowEnd] at h
  cases h
  (repeat' split) <;> simp

@[simp] theorem State.i2cWrite_pending (s : State) (off : Nat) : ∀ l, (State.i2cWrite s off l).pending = s.pending := by
  intro l
  induction l generalizing s off with
  | nil => rfl
  | cons x l ih =>
    unfold State.i2cWrite
    split
    · rw [ih]; simp
    · rfl

@[simp] theorem execI2cPointerWrite_pending (t : Time) (data : List Byte) (s : State) : ∀ u, (execI2cPointerWrite t data s) = .next u → u.pending = s.pending := by
  intro u h
  simp only [execI2cPointerWrite] at h
  cases h
  (repeat' split) <;> simp

@[simp] theorem execLogPtrWrite_pending (t : Time) (value : DWord) (s : State) : ∀ u, (execLogPtrWrite t value s) = .next u → u.pending = s.pending := by
  intro u h
  cases h
  simp

@[simp] theorem execLogRecordReadEnd_pending (t : Time) (s : State) : ∀ u, (execLogRecordReadEnd t s) = .next u → u.pending = s.pending := by
  intro u h
  cases h
  simp

@[simp] theorem State.countI2cFail_pending (s : State) (a : BitVec 7) : (State.countI2cFail s a).pending = s.pending := by
  simp [State.countI2cFail]

@[simp] theorem execI2cTransactionTimeout_pending (t : Time) (address : BitVec 7) (s : State) : ∀ u, (execI2cTransactionTimeout t address s) = .next u → u.pending = s.pending := by
  intro u h
  simp only [execI2cTransactionTimeout] at h
  cases h
  (repeat' split) <;> simp

@[simp] theorem execI2cAddressRetry_pending (t : Time) (address : BitVec 7) (ok : Bool) (s : State) : ∀ u, (execI2cAddressRetry t address ok s) = .next u → u.pending = s.pending := by
  intro u h
  cases h
  simp

@[simp] theorem State.setBaud_pending (s : State) (payload : List Byte) : (State.setBaud s payload).pending = s.pending := by
  simp [State.setBaud]

@[simp] theorem execUartBaud_pending (t : Time) (payload : List Byte) (s : State) : ∀ u, (execUartBaud t payload s) = .next u → u.pending = s.pending := by
  intro u h
  cases h
  simp

@[simp] theorem State.collectArchive_pending (s : State) (payload : List Byte) : (State.collectArchive s payload).pending = s.pending := by
  simp [State.collectArchive]

@[simp] theorem execArchiveWrite_pending (t : Time) (payload : List Byte) (s : State) : ∀ u, (execArchiveWrite t payload s) = .next u → u.pending = s.pending := by
  intro u h
  cases h
  simp

@[simp] theorem State.commitArchive_pending (s : State) (flashOk : Bool) : (State.commitArchive s flashOk).pending = s.pending := by
  simp [State.commitArchive]

@[simp] theorem execArchiveCommit_pending (t : Time) (flashOk : Bool) (s : State) : ∀ u, (execArchiveCommit t flashOk s) = .next u → u.pending = s.pending := by
  intro u h
  cases h
  simp

@[simp] theorem execLogRead_pending (t : Time) (payload : List Byte) (s : State) : ∀ u, (execLogRead t payload s) = .next u → u.pending = s.pending := by
  intro u h
  cases h
  simp

@[simp] theorem execUartBadFrame_pending (t : Time) (crcFailed : Bool) (s : State) : ∀ u, (execUartBadFrame t crcFailed s) = .next u → u.pending = s.pending := by
  intro u h
  cases h
  simp

@[simp] theorem execUartFrameGap_pending (t : Time) (s : State) : ∀ u, (execUartFrameGap t s) = .next u → u.pending = s.pending := by
  intro u h
  cases h
  simp

end Sys2Proof.Machine
end

