-- ==== Sys2Proof/Laws/KeepPendingMounting.lean ====
section
/-! SUPPORT. What the operations of Machine/Mounting.lean leave of `pending`. -/

namespace Sys2Proof.Machine

@[simp] theorem State.runAt_pending (s : State) (rpm : Nat) : (State.runAt s rpm).pending = s.pending := by
  simp [State.runAt]

@[simp] theorem State.wakeSpindle_pending (s : State) : (State.wakeSpindle s).pending = s.pending := by
  simp [State.wakeSpindle]

@[simp] theorem State.closeAtMount_pending (s : State) (m : MountScan) (i : Nat) (rw : Bool) : (State.closeAtMount s m i rw).pending = s.pending := by
  simp only [State.closeAtMount]
  split <;> simp

@[simp] theorem State.logCutClips_pending (s : State) (m : MountScan) : (State.logCutClips s m).pending = s.pending := by
  simp only [State.logCutClips]
  split
  · rfl
  · split
    · rfl
    · rw [keepFold_pending]
      · split <;> simp
      · intro u x
        split
        · split
          · split <;> simp
          · rfl
        · rfl

@[simp] theorem State.loadMagazine_pending (s : State) (m : MountScan) (mode : MountMode) (slot : Nat) (keys : Nat) (session : Nat) (counter : Nat) (identity : List Byte) (key : List Byte) : (State.loadMagazine s m mode slot keys session counter identity key).pending = s.pending := by
  simp [State.loadMagazine]

@[simp] theorem State.startSession_pending (s : State) : (State.startSession s).pending = s.pending := by
  simp only [State.startSession, State.stopRecording_pending]
  generalize hw : (State.updMnt _ _) = w
  have h1 : w.pending = s.pending := by subst hw; simp
  cases hp : w.placeSystem ((s.resume).firstHead.getD .a) (.sessionStart s.mnt.nextSys) (sectorPad (le 4 s.mnt.session ++ le 8 s.mnt.counter ++ s.mnt.identity)) with
  | none => simp [h1]
  | some v => simpa [h1] using State.placeSystem_pending _ _ _ _ _ hp

@[simp] theorem State.mountRW_pending (s : State) (m : MountScan) (r : Running) (slot : Nat) (keys : Nat) (identity : List Byte) (key : List Byte) : (State.mountRW s m r slot keys identity key).pending = s.pending := by
  simp [State.mountRW]

@[simp] theorem State.mountRO_pending (s : State) (m : MountScan) (r : Running) (slot : Nat) (keys : Nat) (identity : List Byte) (key : List Byte) (st : Status) : (State.mountRO s m r slot keys identity key st).pending = s.pending := by
  simp [State.mountRO]

@[simp] theorem State.ruleBlank_pending (s : State) (r : Running) : ∀ z, s.pending = z → (State.ruleBlank s r).after State.pending z = z := by
  intro z h
  simp only [State.ruleBlank]
  (repeat' split) <;> simp_all

@[simp] theorem State.ruleWritten_pending (s : State) (m : MountScan) (r : Running) (band : List Byte) : ∀ z, s.pending = z → (State.ruleWritten s m r band).after State.pending z = z := by
  intro z h
  simp only [State.ruleWritten]
  (repeat' split) <;> simp_all

@[simp] theorem State.ruleMount_pending (s : State) (m : MountScan) (r : Running) : ∀ z, s.pending = z → (State.ruleMount s m r).after State.pending z = z := by
  intro z h
  simp only [State.ruleMount]
  (repeat' split) <;> simp_all

end Sys2Proof.Machine
end

