-- ==== Sys2Proof/Laws/KeepPendingOwn.lean ====
section
/-! SUPPORT. What the operations of Machine/Own.lean leave of `pending`. -/

namespace Sys2Proof.Machine

@[simp] theorem State.done_pending (s : State) (f : Fetched) (v : Nat) : ∀ z, s.pending = z → (State.done s f v).after State.pending z = z := by
  intro z h
  simp [State.done, h]

@[simp] theorem State.doneWith_pending (s : State) (f : Fetched) (v : Nat) (data : List Byte) : ∀ z, s.pending = z → (State.doneWith s f v data).after State.pending z = z := by
  intro z h
  simp [State.doneWith, h]

@[simp] theorem State.conflict_pending (s : State) : ∀ z, s.pending = z → (State.conflict s).after State.pending z = z := by
  intro z h
  simp [State.conflict, h]

@[simp] theorem State.ruleIdentify_pending (s : State) (f : Fetched) : ∀ z, s.pending = z → (State.ruleIdentify s f).after State.pending z = z := by
  intro z h
  simp [State.ruleIdentify, h]

@[simp] theorem State.ruleGetPage_pending (s : State) (f : Fetched) : ∀ z, s.pending = z → (State.ruleGetPage s f).after State.pending z = z := by
  intro z h
  simp [State.ruleGetPage, h]

@[simp] theorem State.ruleGetParam_pending (s : State) (f : Fetched) : ∀ z, s.pending = z → (State.ruleGetParam s f).after State.pending z = z := by
  intro z h
  simp [State.ruleGetParam, h]

@[simp] theorem State.ruleSetParam_pending (s : State) (f : Fetched) : ∀ z, s.pending = z → (State.ruleSetParam s f).after State.pending z = z := by
  intro z h
  simp [State.ruleSetParam, h]

@[simp] theorem State.ruleKeyLoad_pending (s : State) (f : Fetched) (c : Call) : ∀ z, s.pending = z → (State.ruleKeyLoad s f c).after State.pending z = z := by
  intro z h
  unfold State.ruleKeyLoad
  refine Ruling.after_withData _ _ _ _ fun x => ?_
  split
  · rfl
  · simp [State.done, h]

@[simp] theorem State.ruleKeyPurge_pending (s : State) (f : Fetched) : ∀ z, s.pending = z → (State.ruleKeyPurge s f).after State.pending z = z := by
  intro z h
  simp [State.ruleKeyPurge, h]

@[simp] theorem State.ruleMountOp_pending (s : State) (f : Fetched) (c : Call) : ∀ z, s.pending = z → (State.ruleMountOp s f c).after State.pending z = z := by
  intro z h
  simp [State.ruleMountOp, h]

@[simp] theorem State.ruleUnmount_pending (s : State) (f : Fetched) : ∀ z, s.pending = z → (State.ruleUnmount s f).after State.pending z = z := by
  intro z h
  simp [State.ruleUnmount, h]

@[simp] theorem State.unsustainable_pending (s : State) (p : Profile) : ∀ z, s.pending = z → (State.unsustainable s p).after State.pending z = z := by
  intro z h
  simp [State.unsustainable, h]

@[simp] theorem State.dropDeepPending_pending (s : State) : (State.dropDeepPending s).pending = s.pending := by
  simp only [State.dropDeepPending]
  split <;> simp

@[simp] theorem State.openProfile_pending (s : State) (p : Profile) : (State.openProfile s p).pending = s.pending := by
  simp [State.openProfile]

@[simp] theorem State.ruleClipOpen_pending (s : State) (f : Fetched) (c : Call) : ∀ z, s.pending = z → (State.ruleClipOpen s f c).after State.pending z = z := by
  intro z h
  simp [State.ruleClipOpen, h]

@[simp] theorem State.ruleClipClose_pending (s : State) (f : Fetched) (c : Call) : ∀ z, s.pending = z → (State.ruleClipClose s f c).after State.pending z = z := by
  intro z h
  simp only [State.ruleClipClose]
  (repeat' split) <;> simp_all

@[simp] theorem State.slotFor_pending (s : State) (f : Fetched) (bytes : Nat) : ∀ x, (State.slotFor s f bytes) = some x → x.2.pending = s.pending := by
  intro u h
  simp only [State.slotFor] at h
  (repeat' split at h) <;> (try simp at h) <;> grind [State.freeSlot_pending, State.takeSlot_pending]

@[simp] theorem State.startFrame_pending (s : State) (f : Fetched) (k : OpenClip) (slot : Nat) : (State.startFrame s f k slot).pending = s.pending := by
  simp [State.startFrame]

@[simp] theorem State.ruleFrameAppend_pending (s : State) (f : Fetched) (c : Call) : ∀ z, s.pending = z → (State.ruleFrameAppend s f c).after State.pending z = z := by
  intro z h
  unfold State.ruleFrameAppend
  split
  · simp
  · repeat' split
    all_goals first
      | rfl
      | simp [h]
    next slot s1 he =>
      have := State.slotFor_pending _ _ _ _ he
      simp_all

@[simp] theorem State.ruleAuxAppend_pending (s : State) (f : Fetched) (c : Call) : ∀ z, s.pending = z → (State.ruleAuxAppend s f c).after State.pending z = z := by
  intro z h
  simp [State.ruleAuxAppend, h]

@[simp] theorem State.ruleLsns_pending (s : State) (r : Running) : ∀ z, s.pending = z → (State.ruleLsns s r).after State.pending z = z := by
  intro z h
  simp [State.ruleLsns, h]

@[simp] theorem State.ruleRead_pending (s : State) (f : Fetched) : ∀ z, s.pending = z → (State.ruleRead s f).after State.pending z = z := by
  intro z h
  simp only [State.ruleRead]
  (repeat' split) <;> simp_all

@[simp] theorem State.readSlot_pending (s : State) (f : Fetched) (fr : Frame) : ∀ z, s.pending = z → (State.readSlot s f fr).after State.pending z = z := by
  intro z h
  simp [State.readSlot, h]

@[simp] theorem State.reviewFor_pending (s : State) (f : Fetched) : (State.reviewFor s f).2.pending = s.pending := by
  unfold State.reviewFor
  split
  · rfl
  · cases he : s.takeReview f.org.fn ((f.entry.length.toNat + 32767) / 32768) with
    | none => rfl
    | some x => exact State.takeReview_pending _ _ _ _ he

@[simp] theorem State.readFrame_pending (s : State) (f : Fetched) (bytes : Nat) (first : Nat) : ∀ z, s.pending = z → (State.readFrame s f bytes first).after State.pending z = z := by
  intro z h
  simp only [State.readFrame]
  (repeat' split) <;> simp_all

@[simp] theorem State.ruleFrameRead_pending (s : State) (f : Fetched) : ∀ z, s.pending = z → (State.ruleFrameRead s f).after State.pending z = z := by
  intro z h
  simp only [State.ruleFrameRead]
  (repeat' split) <;> simp_all

@[simp] theorem State.metaReadFails_pending (s : State) (f : Fetched) (good : List Byte) (x : Status × Nat × Nat) : ∀ z, s.pending = z → (State.metaReadFails s f good x).after State.pending z = z := by
  intro z h
  unfold State.metaReadFails
  show (State.finish _ _ _ _ _ _ _).pending = z
  rw [State.finish_pending]
  split <;> simp [h]

@[simp] theorem State.ruleMetaRead_pending (s : State) (f : Fetched) (c : Call) : ∀ z, s.pending = z → (State.ruleMetaRead s f c).after State.pending z = z := by
  intro z h
  simp only [State.ruleMetaRead]
  (repeat' split) <;> simp_all

@[simp] theorem State.writeRange_pending (s : State) (f : Fetched) (c : Call) (d : List Byte) : ∀ z, s.pending = z → (State.writeRange s f c d).after State.pending z = z := by
  intro z h
  simp only [State.writeRange]
  (repeat' split) <;> simp_all

@[simp] theorem State.ruleMetaWrite_pending (s : State) (f : Fetched) (c : Call) : ∀ z, s.pending = z → (State.ruleMetaWrite s f c).after State.pending z = z := by
  intro z h
  simp [State.ruleMetaWrite, h]

@[simp] theorem State.lockBusy_pending (s : State) (l : LockId) : ∀ z, s.pending = z → (State.lockBusy s l).after State.pending z = z := by
  intro z h
  simp [State.lockBusy, h]

@[simp] theorem State.ruleLockAcquire_pending (s : State) (f : Fetched) : ∀ z, s.pending = z → (State.ruleLockAcquire s f).after State.pending z = z := by
  intro z h
  simp [State.ruleLockAcquire, h]

@[simp] theorem State.ruleLockRelease_pending (s : State) (f : Fetched) : ∀ z, s.pending = z → (State.ruleLockRelease s f).after State.pending z = z := by
  intro z h
  simp [State.ruleLockRelease, h]

@[simp] theorem State.ruleLockClear_pending (s : State) (f : Fetched) : ∀ z, s.pending = z → (State.ruleLockClear s f).after State.pending z = z := by
  intro z h
  simp [State.ruleLockClear, h]

@[simp] theorem State.rulePowerState_pending (s : State) (f : Fetched) : ∀ z, s.pending = z → (State.rulePowerState s f).after State.pending z = z := by
  intro z h
  simp only [State.rulePowerState]
  (repeat' split) <;> simp_all

@[simp] theorem State.spindleStopBy_pending (s : State) (f : Fetched) : ∀ z, s.pending = z → (State.spindleStopBy s f).after State.pending z = z := by
  intro z h
  simp [State.spindleStopBy, h]

@[simp] theorem State.parkForReverse_pending (s : State) : (State.parkForReverse s).pending = s.pending := by
  simp [State.parkForReverse]

@[simp] theorem State.spindleReverse_pending (s : State) (f : Fetched) (rpm : Nat) : ∀ z, s.pending = z → (State.spindleReverse s f rpm).after State.pending z = z := by
  intro z h
  simp [State.spindleReverse, h]

@[simp] theorem State.spindleForward_pending (s : State) (f : Fetched) (rpm : Nat) : ∀ z, s.pending = z → (State.spindleForward s f rpm).after State.pending z = z := by
  intro z h
  simp [State.spindleForward, h]

@[simp] theorem State.ruleSpindle_pending (s : State) (f : Fetched) : ∀ z, s.pending = z → (State.ruleSpindle s f).after State.pending z = z := by
  intro z h
  simp [State.ruleSpindle, h]

@[simp] theorem State.ruleCalibrate_pending (s : State) (f : Fetched) : ∀ z, s.pending = z → (State.ruleCalibrate s f).after State.pending z = z := by
  intro z h
  simp [State.ruleCalibrate, h]

@[simp] theorem State.ruleVerifyCtl_pending (s : State) (f : Fetched) : ∀ z, s.pending = z → (State.ruleVerifyCtl s f).after State.pending z = z := by
  intro z h
  simp [State.ruleVerifyCtl, h]

@[simp] theorem State.ruleFwStage_pending (s : State) (f : Fetched) (c : Call) : ∀ z, s.pending = z → (State.ruleFwStage s f c).after State.pending z = z := by
  intro z h
  simp [State.ruleFwStage, h]

@[simp] theorem State.ruleFwActivate_pending (s : State) (f : Fetched) : ∀ z, s.pending = z → (State.ruleFwActivate s f).after State.pending z = z := by
  intro z h
  simp [State.ruleFwActivate, h]

@[simp] theorem State.ruleAttest_pending (s : State) (f : Fetched) : ∀ z, s.pending = z → (State.ruleAttest s f).after State.pending z = z := by
  intro z h
  simp only [State.ruleAttest]
  (repeat' split) <;> simp_all

@[simp] theorem State.ruleJtagUnlock_pending (s : State) (f : Fetched) (c : Call) : ∀ z, s.pending = z → (State.ruleJtagUnlock s f c).after State.pending z = z := by
  intro z h
  simp [State.ruleJtagUnlock, h]

end Sys2Proof.Machine
end

