-- ==== Sys2Proof/Laws/KeepPendingCommands.lean ====
section
/-! SUPPORT. What the operations of Machine/Commands.lean leave of `pending`. -/

namespace Sys2Proof.Machine

@[simp] theorem State.ownRule_pending (s : State) (d : Deferred) : ∀ z, s.pending = z → (State.ownRule s d).after State.pending z = z := by
  intro z h
  simp only [State.ownRule]
  (repeat' split) <;> simp_all

@[simp] theorem State.rule_pending (s : State) (d : Deferred) : ∀ z, s.pending = z → (State.rule s d).after State.pending z = z := by
  intro z h
  simp only [State.rule]
  (repeat' split) <;> simp_all

@[simp] theorem State.defer_pending (s : State) (d : Deferred) : (State.defer s d).pending = s.pending := (rfl)

@[simp] theorem State.undefer_pending (s : State) (d : Deferred) : (State.undefer s d).pending = s.pending := (rfl)

@[simp] theorem State.settle_pending (s : State) (d : Deferred) : (State.settle s d).pending = s.pending := by
  have h := State.rule_pending s d _ rfl
  unfold State.settle
  revert h
  cases s.rule d <;> simp

@[simp] theorem State.recheck_pending (s : State) (p : Deferred → Bool) : (State.recheck s p).pending = s.pending := by
  simp [State.recheck]

@[simp] theorem State.drain_pending (s : State) : (State.drain s).pending = s.pending := by
  simp [State.drain]

@[simp] theorem State.popFront_pending (s : State) (c : Call) (rest : List Fetched) : (State.popFront s c rest).pending = s.pending := (rfl)

@[simp] theorem State.serve_pending (s : State) (o : Opcode) (c : Call) : (State.serve s o c).pending = s.pending := by
  simp only [State.serve]
  split <;> simp

@[simp] theorem State.serveAny_pending (s : State) (c : Call) : (State.serveAny s c).pending = s.pending := by
  simp only [State.serveAny]
  (repeat' split) <;> simp

@[simp] theorem execIdentify_pending (t : Time) (c : Call) (s : State) : ∀ u, (execIdentify t c s) = .next u → u.pending = s.pending := by
  intro u h
  cases h
  simp

@[simp] theorem execGetPage_pending (t : Time) (c : Call) (s : State) : ∀ u, (execGetPage t c s) = .next u → u.pending = s.pending := by
  intro u h
  cases h
  simp

@[simp] theorem execGetParam_pending (t : Time) (c : Call) (s : State) : ∀ u, (execGetParam t c s) = .next u → u.pending = s.pending := by
  intro u h
  cases h
  simp

@[simp] theorem execSetParam_pending (t : Time) (c : Call) (s : State) : ∀ u, (execSetParam t c s) = .next u → u.pending = s.pending := by
  intro u h
  cases h
  simp

@[simp] theorem execKeyLoad_pending (t : Time) (c : Call) (s : State) : ∀ u, (execKeyLoad t c s) = .next u → u.pending = s.pending := by
  intro u h
  cases h
  simp

@[simp] theorem execKeyPurge_pending (t : Time) (c : Call) (s : State) : ∀ u, (execKeyPurge t c s) = .next u → u.pending = s.pending := by
  intro u h
  cases h
  simp

@[simp] theorem execMount_pending (t : Time) (c : Call) (s : State) : ∀ u, (execMount t c s) = .next u → u.pending = s.pending := by
  intro u h
  cases h
  simp

@[simp] theorem execUnmount_pending (t : Time) (c : Call) (s : State) : ∀ u, (execUnmount t c s) = .next u → u.pending = s.pending := by
  intro u h
  cases h
  simp

@[simp] theorem execClipOpen_pending (t : Time) (c : Call) (s : State) : ∀ u, (execClipOpen t c s) = .next u → u.pending = s.pending := by
  intro u h
  cases h
  simp

@[simp] theorem execClipClose_pending (t : Time) (c : Call) (s : State) : ∀ u, (execClipClose t c s) = .next u → u.pending = s.pending := by
  intro u h
  cases h
  simp

@[simp] theorem execFrameAppend_pending (t : Time) (c : Call) (s : State) : ∀ u, (execFrameAppend t c s) = .next u → u.pending = s.pending := by
  intro u h
  cases h
  simp

@[simp] theorem execAuxAppend_pending (t : Time) (c : Call) (s : State) : ∀ u, (execAuxAppend t c s) = .next u → u.pending = s.pending := by
  intro u h
  cases h
  simp

@[simp] theorem execRead_pending (t : Time) (c : Call) (s : State) : ∀ u, (execRead t c s) = .next u → u.pending = s.pending := by
  intro u h
  cases h
  simp

@[simp] theorem execFrameRead_pending (t : Time) (c : Call) (s : State) : ∀ u, (execFrameRead t c s) = .next u → u.pending = s.pending := by
  intro u h
  cases h
  simp

@[simp] theorem execMetaRead_pending (t : Time) (c : Call) (s : State) : ∀ u, (execMetaRead t c s) = .next u → u.pending = s.pending := by
  intro u h
  cases h
  simp

@[simp] theorem execMetaWrite_pending (t : Time) (c : Call) (s : State) : ∀ u, (execMetaWrite t c s) = .next u → u.pending = s.pending := by
  intro u h
  cases h
  simp

@[simp] theorem execLockAcquire_pending (t : Time) (c : Call) (s : State) : ∀ u, (execLockAcquire t c s) = .next u → u.pending = s.pending := by
  intro u h
  cases h
  simp

@[simp] theorem execLockRelease_pending (t : Time) (c : Call) (s : State) : ∀ u, (execLockRelease t c s) = .next u → u.pending = s.pending := by
  intro u h
  cases h
  simp

@[simp] theorem execLockClearAbandoned_pending (t : Time) (c : Call) (s : State) : ∀ u, (execLockClearAbandoned t c s) = .next u → u.pending = s.pending := by
  intro u h
  cases h
  simp

@[simp] theorem execPowerState_pending (t : Time) (c : Call) (s : State) : ∀ u, (execPowerState t c s) = .next u → u.pending = s.pending := by
  intro u h
  cases h
  simp

@[simp] theorem execSpindle_pending (t : Time) (c : Call) (s : State) : ∀ u, (execSpindle t c s) = .next u → u.pending = s.pending := by
  intro u h
  cases h
  simp

@[simp] theorem execCalibrate_pending (t : Time) (c : Call) (s : State) : ∀ u, (execCalibrate t c s) = .next u → u.pending = s.pending := by
  intro u h
  cases h
  simp

@[simp] theorem execVerifyCtl_pending (t : Time) (c : Call) (s : State) : ∀ u, (execVerifyCtl t c s) = .next u → u.pending = s.pending := by
  intro u h
  cases h
  simp

@[simp] theorem execFwStage_pending (t : Time) (c : Call) (s : State) : ∀ u, (execFwStage t c s) = .next u → u.pending = s.pending := by
  intro u h
  cases h
  simp

@[simp] theorem execFwActivate_pending (t : Time) (c : Call) (s : State) : ∀ u, (execFwActivate t c s) = .next u → u.pending = s.pending := by
  intro u h
  cases h
  simp

@[simp] theorem execAttest_pending (t : Time) (c : Call) (s : State) : ∀ u, (execAttest t c s) = .next u → u.pending = s.pending := by
  intro u h
  cases h
  simp

@[simp] theorem execJtagUnlock_pending (t : Time) (c : Call) (s : State) : ∀ u, (execJtagUnlock t c s) = .next u → u.pending = s.pending := by
  intro u h
  cases h
  simp

@[simp] theorem execUndefinedOpcode_pending (t : Time) (c : Call) (s : State) : ∀ u, (execUndefinedOpcode t c s) = .next u → u.pending = s.pending := by
  intro u h
  cases h
  simp

@[simp] theorem execFenceCommandStart_pending (t : Time) (c : Call) (s : State) : ∀ u, (execFenceCommandStart t c s) = .next u → u.pending = s.pending := by
  intro u h
  cases h
  simp

@[simp] theorem State.failAppend_pending (s : State) (r : Running) (st : Status) (v : DWord) : (State.failAppend s r st v).pending = s.pending := by
  simp [State.failAppend]

@[simp] theorem execDmaReadError_pending (t : Time) (c : Call) (s : State) : ∀ u, (execDmaReadError t c s) = .next u → u.pending = s.pending := by
  intro u h
  simp only [execDmaReadError] at h
  cases h
  (repeat' split) <;> simp

@[simp] theorem State.resumeOne_pending (s : State) (fn : FnId) (q : QId) (cid : BitVec 16) (why : WaitReason) : (State.resumeOne s fn q cid why).pending = s.pending := by
  simp only [State.resumeOne]
  split <;> simp

@[simp] theorem execOverlapReadResume_pending (t : Time) (fn : FnId) (q : QId) (cid : BitVec 16) (s : State) : ∀ u, (execOverlapReadResume t fn q cid s) = .next u → u.pending = s.pending := by
  intro u h
  cases h
  simp

@[simp] theorem execMountWaitRelease_pending (t : Time) (s : State) : ∀ u, (execMountWaitRelease t s) = .next u → u.pending = s.pending := by
  intro u h
  cases h
  simp

@[simp] theorem execBringupDeferredStart_pending (t : Time) (fn : FnId) (q : QId) (cid : BitVec 16) (s : State) : ∀ u, (execBringupDeferredStart t fn q cid s) = .next u → u.pending = s.pending := by
  intro u h
  cases h
  simp

@[simp] theorem execMediaCommandRunStart_pending (t : Time) (fn : FnId) (q : QId) (cid : BitVec 16) (s : State) : ∀ u, (execMediaCommandRunStart t fn q cid s) = .next u → u.pending = s.pending := by
  intro u h
  cases h
  simp

@[simp] theorem execClipOpenDeferredStart_pending (t : Time) (fn : FnId) (q : QId) (cid : BitVec 16) (s : State) : ∀ u, (execClipOpenDeferredStart t fn q cid s) = .next u → u.pending = s.pending := by
  intro u h
  cases h
  simp

@[simp] theorem execLockWaitTimeout_pending (t : Time) (lock : LockId) (s : State) : ∀ u, (execLockWaitTimeout t lock s) = .next u → u.pending = s.pending := by
  intro u h
  cases h
  simp

@[simp] theorem State.uartCommand_pending (s : State) (payload : List Byte) (scan : MountScan) (mapAddr : BitVec 31) : (State.uartCommand s payload scan mapAddr).pending = s.pending := by
  have h : ((s.allotSpace 3 (entryOf (payload.take 64)) false).getD (.none, s)).2.pending = s.pending := by
    cases he : s.allotSpace 3 (entryOf (payload.take 64)) false with
    | none => rfl
    | some x => exact State.allotSpace_pending _ _ _ _ _ he
  unfold State.uartCommand
  dsimp only
  split <;> simp [h]

@[simp] theorem execUartCommand_pending (t : Time) (payload : List Byte) (scan : MountScan) (mapAddr : BitVec 31) (s : State) : ∀ u, (execUartCommand t payload scan mapAddr s) = .next u → u.pending = s.pending := by
  intro u h
  simp only [execUartCommand] at h
  cases h
  (repeat' split) <;> simp

end Sys2Proof.Machine
end

