-- ==== Sys2Proof/Laws/KeepPendingSpindle.lean ====
section
/-! SUPPORT. What the operations of Machine/Spindle.lean leave of `pending`. -/

namespace Sys2Proof.Machine

@[simp] theorem State.spindleDone_pending (s : State) (rpm : Nat) : (State.spindleDone s rpm).pending = s.pending := by
  simp [State.spindleDone]

@[simp] theorem State.lockOutAll_pending (s : State) : (State.lockOutAll s).pending = s.pending := by
  simp [State.lockOutAll]

@[simp] theorem State.runUp_pending (s : State) (rpm : Nat) : (State.runUp s rpm).pending = s.pending := by
  simp [State.runUp]

@[simp] theorem State.checkKe_pending (s : State) (meas : Nat) : (State.checkKe s meas).pending = s.pending := by
  simp only [State.checkKe]
  (repeat' split) <;> simp

@[simp] theorem State.startFailed_pending (s : State) : (State.startFailed s).pending = s.pending := by
  simp [State.startFailed]

@[simp] theorem State.startFromRest_pending (s : State) (g : StartSense) : (State.startFromRest s g).pending = s.pending := by
  simp [State.startFromRest]

@[simp] theorem State.brakeFirst_pending (s : State) (rpm : Nat) : (State.brakeFirst s rpm).pending = s.pending := by
  simp [State.brakeFirst]

@[simp] theorem State.startSpindle_pending (s : State) (g : StartSense) : (State.startSpindle s g).pending = s.pending := by
  simp only [State.startSpindle]
  split <;> simp

@[simp] theorem execSpindleStart_pending (t : Time) (sense : StartSense) (s : State) : ∀ u, (execSpindleStart t sense s) = .next u → u.pending = s.pending := by
  intro u h
  cases h
  simp

@[simp] theorem execSpindleStartRetry_pending (t : Time) (sense : StartSense) (s : State) : ∀ u, (execSpindleStartRetry t sense s) = .next u → u.pending = s.pending := by
  intro u h
  cases h
  simp

@[simp] theorem execSpindleRestart_pending (t : Time) (sense : StartSense) (s : State) : ∀ u, (execSpindleRestart t sense s) = .next u → u.pending = s.pending := by
  intro u h
  cases h
  simp

@[simp] theorem execSpeedTargetReached_pending (t : Time) (s : State) : ∀ u, (execSpeedTargetReached t s) = .next u → u.pending = s.pending := by
  intro u h
  cases h
  simp

@[simp] theorem execComparatorTrip_pending (t : Time) (blanked : Bool) (s : State) : ∀ u, (execComparatorTrip t blanked s) = .next u → u.pending = s.pending := by
  intro u h
  cases h
  simp

@[simp] theorem execSpindleStall_pending (t : Time) (rpm : Nat) (s : State) : ∀ u, (execSpindleStall t rpm s) = .next u → u.pending = s.pending := by
  intro u h
  cases h
  simp

@[simp] theorem execSpindleStop_pending (t : Time) (s : State) : ∀ u, (execSpindleStop t s) = .next u → u.pending = s.pending := by
  intro u h
  cases h
  simp

@[simp] theorem execBrakeBelowThreshold_pending (t : Time) (s : State) : ∀ u, (execBrakeBelowThreshold t s) = .next u → u.pending = s.pending := by
  intro u h
  simp only [execBrakeBelowThreshold] at h
  cases h
  (repeat' split) <;> simp

@[simp] theorem State.rest_pending (s : State) : (State.rest s).pending = s.pending := by
  simp [State.rest]

@[simp] theorem execBrakeHoldEnd_pending (t : Time) (s : State) : ∀ u, (execBrakeHoldEnd t s) = .next u → u.pending = s.pending := by
  intro u h
  cases h
  simp

@[simp] theorem execSpindleBrakeTimeout_pending (t : Time) (rpm : Nat) (s : State) : ∀ u, (execSpindleBrakeTimeout t rpm s) = .next u → u.pending = s.pending := by
  intro u h
  cases h
  simp

@[simp] theorem execCoastStopped_pending (t : Time) (s : State) : ∀ u, (execCoastStopped t s) = .next u → u.pending = s.pending := by
  intro u h
  cases h
  simp

@[simp] theorem execWedgeLockGained_pending (t : Time) (offset : Int) (s : State) : ∀ u, (execWedgeLockGained t offset s) = .next u → u.pending = s.pending := by
  intro u h
  cases h
  simp

@[simp] theorem execWedgeLockLost_pending (t : Time) (s : State) : ∀ u, (execWedgeLockLost t s) = .next u → u.pending = s.pending := by
  intro u h
  cases h
  simp

end Sys2Proof.Machine
end

