-- ==== Sys2Proof/Laws/KeepSpinOps.lean ====
section
/-! SUPPORT. What the operations of Machine/Ops.lean leave of `spin`. -/

namespace Sys2Proof.Machine

@[simp] theorem State.msix_spin (s : State) (fn : FnId) (v : BitVec 6) : (State.msix s fn v).spin = s.spin := (rfl)

@[simp] theorem State.createRecord_spin (s : State) (code : BitVec 16) (args : List Word) : (State.createRecord s code args).spin = s.spin := (rfl)

@[simp] theorem State.coalesce_spin (s : State) (code : BitVec 16) (args : List Word) : (State.coalesce s code args).spin = s.spin := by
  simp only [State.coalesce]
  split <;> simp

@[simp] theorem State.log_spin (s : State) (code : BitVec 16) (args : List Word) : (State.log s code args).spin = s.spin := by
  simp [State.log]

@[simp] theorem State.raiseIn_spin (s : State) (n : Nat) (fn : FnId) : (State.raiseIn s n fn).spin = s.spin := by
  simp [State.raiseIn]

@[simp] theorem State.raise_spin (s : State) (n : Nat) : (State.raise s n).spin = s.spin := by
  simp [State.raise]

@[simp] theorem State.setMagazine_spin (s : State) (n : Nat) : (State.setMagazine s n).spin = s.spin := by
  simp [State.setMagazine]

@[simp] theorem State.writeCompletion_spin (s : State) (fn : FnId) (q : QId) (c : Completion) : (State.writeCompletion s fn q c).spin = s.spin := by
  simp [State.writeCompletion]

@[simp] theorem State.touchLink_spin (s : State) : (State.touchLink s).spin = s.spin := (rfl)

@[simp] theorem State.post_spin (s : State) (fn : FnId) (q : QId) (c : Completion) : (State.post s fn q c).spin = s.spin := by
  simp [State.post]

@[simp] theorem State.flushHeld_spin (s : State) (fn : FnId) (q : QId) : ∀ n, (State.flushHeld s fn q n).spin = s.spin := by
  intro n
  induction n generalizing s with
  | zero => simp [State.flushHeld]
  | succ n ih =>
    simp only [State.flushHeld]
    (repeat' split) <;> simp_all

@[simp] theorem State.rateDeficit_spin (s : State) : (State.rateDeficit s).spin = s.spin := by
  simp [State.rateDeficit]

@[simp] theorem State.watchOccupancy_spin (s : State) : (State.watchOccupancy s).spin = s.spin := by
  simp [State.watchOccupancy]

@[simp] theorem State.freeSlot_spin (s : State) (slot : Nat) : (State.freeSlot s slot).spin = s.spin := by
  simp [State.freeSlot]

@[simp] theorem State.freeAlloc_spin (s : State) (fn : FnId) (a : Alloc) : (State.freeAlloc s fn a).spin = s.spin := by
  simp only [State.freeAlloc]
  split <;> simp

@[simp] theorem State.logError_spin (s : State) (fn : FnId) (q : BitVec 16) (sqIndex : BitVec 16) (opcode : BitVec 8) (halted : Bool) (st : Status) (cid : BitVec 16) (detail : DWord) : (State.logError s fn q sqIndex opcode halted st cid detail).spin = s.spin := (rfl)

@[simp] theorem State.dropUnstarted_spin (s : State) (fn : FnId) (q : QId) : (State.dropUnstarted s fn q).spin = s.spin := by
  simp [State.dropUnstarted]

@[simp] theorem State.dropWaiters_spin (s : State) (fn : FnId) (q : QId) : (State.dropWaiters s fn q).spin = s.spin := (rfl)

@[simp] theorem State.sendData_spin (s : State) (fn : FnId) (e : Entry) (d : List Byte) : (State.sendData s fn e d).spin = s.spin := by
  simp [State.sendData]

@[simp] theorem State.setHalted_spin (s : State) (fn : FnId) (q : QId) : (State.setHalted s fn q).spin = s.spin := by
  simp [State.setHalted]

@[simp] theorem State.haltQueue_spin (s : State) (fn : FnId) (q : QId) (sqIndex : Nat) : (State.haltQueue s fn q sqIndex).spin = s.spin := by
  simp [State.haltQueue]

@[simp] theorem State.complete_spin (s : State) (org : Origin) (e : Entry) (st : Status) (v : DWord) (data : List Byte) : (State.complete s org e st v data).spin = s.spin := by
  simp [State.complete]

@[simp] theorem State.finish_spin (s : State) (org : Origin) (e : Entry) (a : Alloc) (st : Status) (v : DWord) (data : List Byte) : (State.finish s org e a st v data).spin = s.spin := by
  simp [State.finish]

@[simp] theorem State.dropRunning_spin (s : State) (r : Running) : (State.dropRunning s r).spin = s.spin := (rfl)

@[simp] theorem State.endRunning_spin (s : State) (r : Running) (st : Status) (v : DWord) (data : List Byte) : (State.endRunning s r st v data).spin = s.spin := by
  simp [State.endRunning]

@[simp] theorem State.endAll_spin (s : State) (p : Running → Bool) (st : Status) (v : DWord) : (State.endAll s p st v).spin = s.spin := by
  simp [State.endAll]

@[simp] theorem State.startRunning_spin (s : State) (r : Running) : (State.startRunning s r).spin = s.spin := (rfl)

@[simp] theorem State.grantTo_spin (s : State) (l : LockId) (fn : FnId) (q : QId) : (State.grantTo s l fn q).spin = s.spin := (rfl)

@[simp] theorem State.completeAcquire_spin (s : State) (l : LockId) (before : Lock) (org : Origin) (cid : BitVec 16) (opcode : BitVec 8) : (State.completeAcquire s l before org cid opcode).spin = s.spin := by
  simp [State.completeAcquire]

@[simp] theorem State.freeLock_spin (s : State) (l : LockId) (abandon : Bool) : (State.freeLock s l abandon).spin = s.spin := by
  simp only [State.freeLock]
  split <;> simp

@[simp] theorem State.abandonLocks_spin (s : State) (p : Lock → Bool) : (State.abandonLocks s p).spin = s.spin := by
  simp [State.abandonLocks]

@[simp] theorem State.endRequesters_spin (s : State) (l : List Requester) (st : Status) (v : DWord) : (State.endRequesters s l st v).spin = s.spin := by
  simp only [State.endRequesters]
  apply keepFold_spin
  intros
  (repeat' split) <;> simp

@[simp] theorem State.requestPower_spin (s : State) (p : PowerState) (who : Requester) : (State.requestPower s p who).spin = s.spin := by
  simp [State.requestPower]

@[simp] theorem State.wantRun_spin (s : State) : (State.wantRun s).spin = s.spin := by
  simp [State.wantRun]

@[simp] theorem State.setDomains_spin (s : State) (on : BitVec 17) (kept : BitVec 17) : (State.setDomains s on kept).spin = s.spin := (rfl)

end Sys2Proof.Machine
end

