-- ==== Sys2Proof/Laws/KeepSpinRecords.lean ====
section
/-! SUPPORT. What the operations of Machine/Records.lean leave of `spin`. -/

namespace Sys2Proof.Machine

@[simp] theorem State.mapRecord_spin (s : State) (r : VolRecord) : (State.mapRecord s r).spin = s.spin := (rfl)

@[simp] theorem State.addRecord_spin (s : State) (r : VolRecord) : (State.addRecord s r).spin = s.spin := (rfl)

@[simp] theorem State.dropFrame_spin (s : State) (f : Frame) : (State.dropFrame s f).spin = s.spin := by
  simp [State.dropFrame]

@[simp] theorem State.truncateClip_spin (s : State) (clip : Word) (n : Nat) : (State.truncateClip s clip n).spin = s.spin := (rfl)

@[simp] theorem State.queueOpenRecord_spin (s : State) : (State.queueOpenRecord s).spin = s.spin := by
  simp only [State.queueOpenRecord]
  split <;> simp

@[simp] theorem State.openClip_spin (s : State) (p : Profile) : (State.openClip s p).spin = s.spin := by
  simp [State.openClip]

@[simp] theorem State.queueCloseRecord_spin (s : State) : (State.queueCloseRecord s).spin = s.spin := by
  simp only [State.queueCloseRecord]
  split <;> simp

@[simp] theorem State.recloseClip_spin (s : State) (clip : Word) (n : Nat) : (State.recloseClip s clip n).spin = s.spin := by
  simp [State.recloseClip]

@[simp] theorem State.queueAllClose_spin (s : State) : ∀ n, (State.queueAllClose s n).spin = s.spin := by
  intro n
  induction n generalizing s with
  | zero => simp [State.queueAllClose]
  | succ n ih =>
    simp only [State.queueAllClose]
    (repeat' split) <;> simp_all

@[simp] theorem State.closeClip_spin (s : State) (reason : Nat) : (State.closeClip s reason).spin = s.spin := by
  simp only [State.closeClip]
  split <;> simp

@[simp] theorem State.advanceCommit_spin (s : State) : ∀ n, (State.advanceCommit s n).spin = s.spin := by
  intro n
  induction n generalizing s with
  | zero => simp [State.advanceCommit]
  | succ n ih =>
    simp only [State.advanceCommit]
    (repeat' split) <;> simp_all

@[simp] theorem State.publish_spin (s : State) : (State.publish s).spin = s.spin := by
  simp [State.publish]

@[simp] theorem State.forgetFrame_spin (s : State) (f : Frame) : (State.forgetFrame s f).spin = s.spin := (rfl)

@[simp] theorem State.loseFrames_spin (s : State) (p : Frame → Bool) : (State.loseFrames s p).spin = s.spin := by
  simp [State.loseFrames]

@[simp] theorem State.dropUnencodable_spin (s : State) : (State.dropUnencodable s).spin = s.spin := by
  simp [State.dropUnencodable]

@[simp] theorem State.checkGuarantee_spin (s : State) : (State.checkGuarantee s).spin = s.spin := by
  simp [State.checkGuarantee]

end Sys2Proof.Machine
end

