-- ==== Sys2Proof/Laws/KeepSpinService.lean ====
section
/-! SUPPORT. What the operations of Machine/Service.lean leave of `spin`. -/

namespace Sys2Proof.Machine

@[simp] theorem State.setUnit_spin (s : State) (step : Nat) (h : Head) (b : Beam) (st : StepStatus) : (State.setUnit s step h b st).spin = s.spin := by
  simp only [State.setUnit]
  (repeat' split) <;> simp

@[simp] theorem State.setSteps_spin (s : State) (steps : List Nat) (st : StepStatus) : (State.setSteps s steps st).spin = s.spin := by
  simp [State.setSteps]

@[simp] theorem State.writeBank_spin (s : State) : (State.writeBank s).spin = s.spin := (rfl)

@[simp] theorem State.followBringup_spin (s : State) : (State.followBringup s).spin = s.spin := by
  simp [State.followBringup]

@[simp] theorem State.endGroupM_spin (s : State) : (State.endGroupM s).spin = s.spin := by
  simp [State.endGroupM]

@[simp] theorem State.abortSteps_spin (s : State) (mask : Nat) (p : Nat → Head → Bool) : (State.abortSteps s mask p).spin = s.spin := by
  simp [State.abortSteps]

@[simp] theorem State.stopCalibrate_spin (s : State) (mask : Nat) : (State.stopCalibrate s mask).spin = s.spin := by
  simp [State.stopCalibrate]

@[simp] theorem State.gatesOff_spinOk (s : State) : SpinOk s.spin → SpinOk (State.gatesOff s).spin := by
  intro h
  simp only [State.gatesOff, State.updSpin_spin]
  refine ⟨fun _ => ⟨rfl, ?_⟩, ?_⟩
  · show (if s.spin.state = 0 then 0 else 6) = 0 ∨ _
    split <;> simp
  · show (if s.spin.state = 0 then 0 else 6) ≤ 6
    split <;> simp

@[simp] theorem State.wantSpeed_spinOk (s : State) (rpm : Nat) : SpinOk s.spin → SpinOk (State.wantSpeed s rpm).spin := by
  intro h
  simp only [State.wantSpeed]
  (repeat' split) <;> simp_all [SpinOk]

@[simp] theorem State.brakeSpindle_spinOk (s : State) : SpinOk s.spin → SpinOk (State.brakeSpindle s).spin := by
  intro h
  simp only [State.brakeSpindle]
  (repeat' split) <;> simp_all [SpinOk]

@[simp] theorem State.clearReady_spin (s : State) (h : Head) : (State.clearReady s h).spin = s.spin := by
  simp only [State.clearReady]
  (repeat' split) <;> simp

@[simp] theorem State.idleSlots_spin (s : State) (l : List LoopId) : (State.idleSlots s l).spin = s.spin := by
  simp [State.idleSlots]

@[simp] theorem State.parkHead_spin (s : State) (h : Head) : (State.parkHead s h).spin = s.spin := by
  simp [State.parkHead]

@[simp] theorem State.emergencyPark_spinOk (s : State) : SpinOk s.spin → SpinOk (State.emergencyPark s).spin := by
  intro h
  simp [State.emergencyPark, h]

@[simp] theorem State.dropScurry_spin (s : State) : (State.dropScurry s).spin = s.spin := (rfl)

@[simp] theorem State.leaveMount_spinOk (s : State) : SpinOk s.spin → SpinOk (State.leaveMount s).spin := by
  intro h
  simp only [State.leaveMount]
  (repeat' split) <;> simp_all [SpinOk]

@[simp] theorem State.clearWrite_spin (s : State) : (State.clearWrite s).spin = s.spin := (rfl)

end Sys2Proof.Machine
end

