-- ==== Sys2Proof/Laws/KeepSpinBurrow.lean ====
section
/-! SUPPORT. What the operations of Machine/Burrow.lean leave of `spin`. -/

namespace Sys2Proof.Machine

@[simp] theorem State.dropScurryLsn_spin (s : State) (lsn : Nat) : (State.dropScurryLsn s lsn).spin = s.spin := (rfl)

@[simp] theorem State.addReloc_spin (s : State) (lsn : Nat) (psa : Nat) (seq : Nat) (r : VolRecord) : (State.addReloc s lsn psa seq r).spin = s.spin := by
  simp [State.addReloc]

@[simp] theorem State.retireRow_spin (s : State) (p : Nat) (diagnosis : Nat) : (State.retireRow s p diagnosis).spin = s.spin := by
  simp only [State.retireRow]
  (repeat' split) <;> simp

@[simp] theorem State.degradeBurrow_spin (s : State) (column : Word) : (State.degradeBurrow s column).spin = s.spin := by
  simp [State.degradeBurrow]

@[simp] theorem State.rowRead_spin (s : State) (p : Nat) (same : Bool) : (State.rowRead s p same).spin = s.spin := by
  simp [State.rowRead]

@[simp] theorem execBurrowReadback_spin (t : Time) (key : DWord) (mask : DWord) (valid : Bool) (s : State) : ∀ u, (execBurrowReadback t key mask valid s) = .next u → u.spin = s.spin := by
  intro u h
  cases h
  simp

@[simp] theorem State.diagnose_spin (s : State) : (State.diagnose s).spin = s.spin := by
  simp only [State.diagnose]
  (repeat' split) <;> simp

@[simp] theorem execBurrowProbe_spin (t : Time) (rows : List Nat) (s : State) : ∀ u, (execBurrowProbe t rows s) = .next u → u.spin = s.spin := by
  intro u h
  cases h
  simp

@[simp] theorem execBurrowDelete_spin (t : Time) (row : Nat) (s : State) : ∀ u, (execBurrowDelete t row s) = .next u → u.spin = s.spin := by
  intro u h
  simp only [execBurrowDelete] at h
  cases h
  (repeat' split) <;> simp

@[simp] theorem execBurrowConsolidate_spin (t : Time) (s : State) : ∀ u, (execBurrowConsolidate t s) = .next u → u.spin = s.spin := by
  intro u h
  simp only [execBurrowConsolidate] at h
  cases h
  (repeat' split) <;> simp

@[simp] theorem execBurrowResultParity_spin (t : Time) (row : Nat) (s : State) : ∀ u, (execBurrowResultParity t row s) = .next u → u.spin = s.spin := by
  intro u h
  simp only [execBurrowResultParity] at h
  cases h
  (repeat' split) <;> simp

end Sys2Proof.Machine
end

