-- ==== Sys2Proof/Laws/KeepSpinLanes.lean ====
section
/-! SUPPORT. What the operations of Machine/Lanes.lean leave of `spin`. -/

namespace Sys2Proof.Machine

@[simp] theorem State.spendInbound_spin (s : State) (n : Nat) : (State.spendInbound s n).spin = s.spin := by
  simp [State.spendInbound]

@[simp] theorem State.stage_spin (s : State) (h : Head) (st : Stripe) (i : Nat) (kind : SectorKind) (lsn : Nat) (text : List Byte) : (State.stage s h st i kind lsn text).spin = s.spin := (rfl)

@[simp] theorem State.noteFailure_spin (s : State) (lsn : Nat) (psa : Word) : (State.noteFailure s lsn psa).spin = s.spin := by
  simp [State.noteFailure]

@[simp] theorem State.relocate_spin (s : State) (x : Sector) (cause : Nat) : (State.relocate s x cause).spin = s.spin := by
  simp only [State.relocate]
  split <;> simp

@[simp] theorem State.rewrite_spin (s : State) (h : Head) (kind : SectorKind) (text : List Byte) : (State.rewrite s h kind text).spin = s.spin := (rfl)

@[simp] theorem State.voidStripe_spin (s : State) (seq : Nat) (cause : Nat) : (State.voidStripe s seq cause).spin = s.spin := by
  simp only [State.voidStripe]
  split <;> simp

@[simp] theorem State.failSector_spin (s : State) (x : Sector) (cause : Nat) : (State.failSector s x cause).spin = s.spin := by
  simp only [State.failSector]
  split <;> simp

@[simp] theorem State.retireBeam_spin (s : State) (h : Head) (b : Beam) (trigger : Nat) : (State.retireBeam s h b trigger).spin = s.spin := by
  simp [State.retireBeam]

@[simp] theorem State.retireInvalid_spin (s : State) : (State.retireInvalid s).spin = s.spin := by
  simp [State.retireInvalid]

@[simp] theorem State.nameSector_spin (s : State) (rs : List VolRecord) (nos : List Nat) : (State.nameSector s rs nos).spin = s.spin := (rfl)

@[simp] theorem State.packFront_spin (s : State) : (State.packFront s).2.spin = s.spin := by
  simp only [State.packFront]
  (repeat' split) <;> simp

@[simp] theorem State.packAll_spin (s : State) : ∀ n, (State.packAll s n).2.spin = s.spin := by
  intro n
  induction n generalizing s with
  | zero => simp [State.packAll]
  | succ n ih =>
    simp only [State.packAll]
    (repeat' split) <;> simp_all

@[simp] theorem State.pushSystem_spin (s : State) (h : Head) (l : List (Nat × List Byte)) : (State.pushSystem s h l).spin = s.spin := by
  simp [State.pushSystem]

@[simp] theorem State.sealSession_spin (s : State) (reason : Nat) (dropped : Nat) : (State.sealSession s reason dropped).spin = s.spin := by
  simp [State.sealSession]

@[simp] theorem State.placeCopies_spin (s : State) (h : Head) : ∀ n, (State.placeCopies s h n).spin = s.spin := by
  intro n
  induction n generalizing s with
  | zero => simp [State.placeCopies]
  | succ n ih =>
    simp only [State.placeCopies]
    (repeat' split) <;> simp_all

@[simp] theorem State.catchUp_spin (s : State) (h : Head) : (State.catchUp s h).spin = s.spin := by
  simp only [State.catchUp]
  (repeat' split) <;> simp

@[simp] theorem State.beginGroup_spin (s : State) (h : Head) : (State.beginGroup s h).spin = s.spin := by
  simp [State.beginGroup]

@[simp] theorem State.openGroup_spin (s : State) (h : Head) : (State.openGroup s h).spin = s.spin := by
  simp [State.openGroup]

@[simp] theorem State.ensureGroup_spin (s : State) : ∀ x, (State.ensureGroup s) = some x → x.2.spin = s.spin := by
  intro u h
  simp only [State.ensureGroup] at h
  (repeat' split at h) <;> simp at h <;> subst h <;> simp

@[simp] theorem State.placeSystem_spin (s : State) (h : Head) (kind : SectorKind) (text : List Byte) : ∀ u, (State.placeSystem s h kind text) = some u → u.spin = s.spin := by
  intro u h
  simp only [State.placeSystem] at h
  (repeat' split at h) <;> simp at h <;> subst h <;> simp

end Sys2Proof.Machine
end

