-- ==== Sys2Proof/Laws/KeepSpinReadPath.lean ====
section
/-! SUPPORT. What the operations of Machine/ReadPath.lean leave of `spin`. -/

namespace Sys2Proof.Machine

@[simp] theorem State.allowScurry_spin (s : State) (h : Head) : (State.allowScurry s h).spin = s.spin := (rfl)

@[simp] theorem State.trimAssembly_spin (s : State) : (State.trimAssembly s).spin = s.spin := (rfl)

@[simp] theorem State.endRead_spin (s : State) (r : Running) : (State.endRead s r).spin = s.spin := by
  simp only [State.endRead]
  rw [State.trimAssembly_spin, keepFold_spin]
  · simp
  · intro u x; exact State.allowScurry_spin u x

@[simp] theorem State.failRead_spin (s : State) (r : Running) (st : Status) : (State.failRead s r st).spin = s.spin := by
  simp [State.failRead]

@[simp] theorem State.deliver_spin (s : State) (lsn : Nat) (bytes : List Byte) : (State.deliver s lsn bytes).spin = s.spin := by
  simp [State.deliver]

@[simp] theorem State.failReads_spin (s : State) (lsns : List Nat) (st : Status) : (State.failReads s lsns st).spin = s.spin := by
  simp [State.failReads]

@[simp] theorem State.startRead_spin (s : State) (r : Running) : (State.startRead s r).spin = s.spin := by
  simp only [State.startRead]
  (repeat' split) <;> simp

@[simp] theorem State.openAssembly_spin (s : State) (p : Word) : (State.openAssembly s p).spin = s.spin := by
  simp only [State.openAssembly]
  split <;> simp

@[simp] theorem State.setPart_spin (s : State) (p : Word) (x : PartState) : (State.setPart s p x).spin = s.spin := (rfl)

@[simp] theorem State.sectorDecoded_spin (s : State) (p : Word) (hdr : List Byte) (payload : List Byte) : (State.sectorDecoded s p hdr payload).spin = s.spin := by
  simp only [State.sectorDecoded]
  (repeat' split) <;> simp

@[simp] theorem State.closePartial_spin (s : State) (p : Word) : (State.closePartial s p).spin = s.spin := by
  simp only [State.closePartial]
  (repeat' split) <;> simp

@[simp] theorem State.wordResult_spin (s : State) (w : PoolWord) (r : Option (List Byte)) (hdr : Option (List Byte)) : (State.wordResult s w r hdr).spin = s.spin := by
  simp [State.wordResult]

@[simp] theorem State.wordFailed_spin (s : State) (w : PoolWord) : (State.wordFailed s w).spin = s.spin := by
  simp [State.wordFailed]

@[simp] theorem State.overrunBeam_spin (s : State) (h : Head) (b : Beam) : (State.overrunBeam s h b).spin = s.spin := by
  simp [State.overrunBeam]

@[simp] theorem execCodewordDetected_spin (t : Time) (h : Head) (b : Beam) (psa : Word) (index : Fin 8) (speculative : Bool) (s : State) : ∀ u, (execCodewordDetected t h b psa index speculative s) = .next u → u.spin = s.spin := by
  intro u h
  simp only [execCodewordDetected] at h
  cases h
  (repeat' split) <;> simp

@[simp] theorem execLdpcDecodeDone_spin (t : Time) (h : Head) (b : Beam) (index : Fin 8) (iterations : Nat) (result : Option (List Byte)) (header : List Byte) (s : State) : ∀ u, (execLdpcDecodeDone t h b index iterations result header s) = .next u → u.spin = s.spin := by
  intro u h
  simp only [execLdpcDecodeDone] at h
  cases h
  (repeat' split) <;> simp

@[simp] theorem State.authFail_spin (s : State) (lsn : Nat) (p : Word) : (State.authFail s lsn p).spin = s.spin := by
  simp [State.authFail]

@[simp] theorem execSectorTagCheck_spin (t : Time) (psa : Word) (s : State) : ∀ u, (execSectorTagCheck t psa s) = .next u → u.spin = s.spin := by
  intro u h
  simp only [execSectorTagCheck] at h
  cases h
  (repeat' split) <;> simp

@[simp] theorem State.setLadder_spin (s : State) (h : Head) (n : Nat) : (State.setLadder s h n).spin = s.spin := (rfl)

@[simp] theorem State.eraseDecode_spin (s : State) (a : Assembly) : (State.eraseDecode s a).spin = s.spin := by
  unfold State.eraseDecode
  dsimp only
  split
  · rfl
  · split
    · rw [keepFold_spin]
      · simp
      · intro u x; simp
    · split
      · simp
      · split <;> simp

@[simp] theorem execErasureDecode_spin (t : Time) (seq : Nat) (s : State) : ∀ u, (execErasureDecode t seq s) = .next u → u.spin = s.spin := by
  intro u h
  simp only [execErasureDecode] at h
  cases h
  (repeat' split) <;> simp

@[simp] theorem State.recovered_spin (s : State) (l : List (Word × List Byte × List Byte)) : (State.recovered s l).spin = s.spin := by
  simp [State.recovered]

@[simp] theorem execRetryLadderStep_spin (t : Time) (h : Head) (recovered : List (Word × List Byte × List Byte)) (s : State) : ∀ u, (execRetryLadderStep t h recovered s) = .next u → u.spin = s.spin := by
  intro u h
  cases h
  simp

@[simp] theorem State.holdScurry_spin (s : State) (h : Head) (x : Word × List Byte × List Byte) : (State.holdScurry s h x).spin = s.spin := by
  simp only [State.holdScurry]
  (repeat' split) <;> simp

@[simp] theorem execScurryRead_spin (t : Time) (h : Head) (sectors : List (Word × List Byte × List Byte)) (s : State) : ∀ u, (execScurryRead t h sectors s) = .next u → u.spin = s.spin := by
  intro u h
  cases h
  simp

@[simp] theorem execDataFieldRead_spin (t : Time) (h : Head) (b : Beam) (f : FieldSense) (s : State) : ∀ u, (execDataFieldRead t h b f s) = .next u → u.spin = s.spin := by
  intro u h
  cases h
  simp

@[simp] theorem execDefectSpanOpen_spin (t : Time) (h : Head) (b : Beam) (psa : Word) (field : Nat) (bit : Nat) (s : State) : ∀ u, (execDefectSpanOpen t h b psa field bit s) = .next u → u.spin = s.spin := by
  intro u h
  simp only [execDefectSpanOpen] at h
  cases h
  (repeat' split) <;> simp

@[simp] theorem execDefectSpanClose_spin (t : Time) (h : Head) (b : Beam) (field : Nat) (bit : Nat) (s : State) : ∀ u, (execDefectSpanClose t h b field bit s) = .next u → u.spin = s.spin := by
  intro u h
  cases h
  simp

@[simp] theorem State.scrubStripe_spin (s : State) (x : Nat × Nat × Bool) : (State.scrubStripe s x).spin = s.spin := by
  simp [State.scrubStripe]

@[simp] theorem execMediaScrubRead_spin (t : Time) (stripes : List (Nat × Nat × Bool)) (s : State) : ∀ u, (execMediaScrubRead t stripes s) = .next u → u.spin = s.spin := by
  intro u h
  cases h
  simp

end Sys2Proof.Machine
end

