-- ==== Sys2Proof/Laws/KeepSpinRecordPath.lean ====
section
/-! SUPPORT. What the operations of Machine/RecordPath.lean leave of `spin`. -/

namespace Sys2Proof.Machine

@[simp] theorem execFrameDmaComplete_spin (t : Time) (clip : Word) (number : Nat) (data : List Byte) (s : State) : ∀ u, (execFrameDmaComplete t clip number data s) = .next u → u.spin = s.spin := by
  intro u h
  simp only [execFrameDmaComplete] at h
  cases h
  (repeat' split) <;> simp

@[simp] theorem execClipCloseRecordQueued_spin (t : Time) (s : State) : ∀ u, (execClipCloseRecordQueued t s) = .next u → u.spin = s.spin := by
  intro u h
  simp only [execClipCloseRecordQueued] at h
  cases h
  (repeat' split) <;> simp

@[simp] theorem State.fixOpening_spin (s : State) (f : Frame) (lsn : Nat) : (State.fixOpening s f lsn).spin = s.spin := by
  simp [State.fixOpening]

@[simp] theorem State.encodeOne_spin (s : State) (f : Frame) (i : Nat) (lost : Nat) : ∀ u, (State.encodeOne s f i lost) = some u → u.spin = s.spin := by
  intro u h
  unfold State.encodeOne at h
  split at h
  · cases h
  · next hd s1 he =>
    have h1 := State.ensureGroup_spin s _ he
    dsimp only at h h1
    split at h
    · cases h
    · split at h
      · cases h
      · split at h <;> (cases h; simp [h1])

@[simp] theorem State.encodeFrame_spin (s : State) (f : Frame) (discards : List Nat) (i : Nat) : ∀ n, (State.encodeFrame s f discards i n).spin = s.spin := by
  intro n
  induction n generalizing s i with
  | zero => rfl
  | succ n ih =>
    unfold State.encodeFrame
    split
    · simp
    · next s1 he =>
      have h1 := State.encodeOne_spin s _ _ _ _ he
      split
      · simp [h1]
      · rw [ih, h1]

@[simp] theorem State.endRebuilds_spin (s : State) : (State.endRebuilds s).spin = s.spin := (rfl)

@[simp] theorem execFrameEncode_spin (t : Time) (discards : List Nat) (s : State) : ∀ u, (execFrameEncode t discards s) = .next u → u.spin = s.spin := by
  intro u h
  simp only [execFrameEncode] at h
  cases h
  (repeat' split) <;> simp

@[simp] theorem State.resume_spin (s : State) : (State.resume s).spin = s.spin := by
  simp [State.resume]

@[simp] theorem State.openIfIdle_spin (s : State) (h : Head) : (State.openIfIdle s h).spin = s.spin := by
  simp [State.openIfIdle]

@[simp] theorem State.placeRewrite_spin (s : State) (h : Head) : ∀ u, (State.placeRewrite s h) = some u → u.spin = s.spin := by
  intro u e
  unfold State.placeRewrite at e
  split at e
  · cases e
  · obtain ⟨v, hv, rfl⟩ := Option.map_eq_some_iff.mp e
    have := State.placeSystem_spin _ _ _ _ _ hv
    simpa using this

@[simp] theorem State.placeRecords_spin (s : State) : ∀ u, (State.placeRecords s) = some u → u.spin = s.spin := by
  intro u e
  unfold State.placeRecords at e
  split at e
  · cases e
  · split at e
    · cases e
    · next hd s1 he =>
      have h1 := State.ensureGroup_spin s _ he
      have h3 := State.packFront_spin s1
      split at e
      · cases e
      · next no text rest s2 hp =>
        rw [hp] at h3
        obtain ⟨v, hv, rfl⟩ := Option.map_eq_some_iff.mp e
        have := State.placeSystem_spin _ _ _ _ _ hv
        simp_all

@[simp] theorem State.placeAux_spin (s : State) : ∀ u, (State.placeAux s) = some u → u.spin = s.spin := by
  intro u e
  unfold State.placeAux at e
  split at e
  · cases e
  · split at e
    · cases e
    · next hd s1 he =>
      have h1 := State.ensureGroup_spin s _ he
      obtain ⟨v, hv, rfl⟩ := Option.map_eq_some_iff.mp e
      have := State.placeSystem_spin _ _ _ _ _ hv
      simp_all

@[simp] theorem State.writeSeals_spin (s : State) (reason : Nat) (dropped : Nat) : (State.writeSeals s reason dropped).spin = s.spin := by
  simp [State.writeSeals]

@[simp] theorem State.sealIfDue_spin (s : State) : (State.sealIfDue s).spin = s.spin := by
  simp [State.sealIfDue]

@[simp] theorem execSystemSectorWrite_spin (t : Time) (s : State) : ∀ u, (execSystemSectorWrite t s) = .next u → u.spin = s.spin := by
  intro u h
  cases h
  split
  · cases he : firstSome (fun f => f ((s.at t).sealIfDue)) ([(State.placeRewrite · .a), (State.placeRewrite · .b)] ++
        (if ((s.at t).sealIfDue).encoding then [State.placeRecords, State.placeAux] else [])) with
    | none => simp
    | some v =>
      obtain ⟨f, hf, e⟩ := firstSome_mem _ _ _ he
      have h0 : ((s.at t).sealIfDue).spin = s.spin := by simp
      split at hf <;> simp at hf
      · rcases hf with rfl | rfl | rfl | rfl
        · exact (State.placeRewrite_spin _ _ _ e).trans h0
        · exact (State.placeRewrite_spin _ _ _ e).trans h0
        · exact (State.placeRecords_spin _ _ e).trans h0
        · exact (State.placeAux_spin _ _ e).trans h0
      · rcases hf with rfl | rfl
        · exact (State.placeRewrite_spin _ _ _ e).trans h0
        · exact (State.placeRewrite_spin _ _ _ e).trans h0
  · simp

@[simp] theorem State.startSector_spin (s : State) (h : Head) (x : Sector) (dataSlot : Bool) : (State.startSector s h x dataSlot).spin = s.spin := by
  simp [State.startSector]

@[simp] theorem State.startPad_spin (s : State) (h : Head) (st : Stripe) (i : Nat) (slot : Nat) (underrun : Bool) : (State.startPad s h st i slot underrun).spin = s.spin := by
  simp [State.startPad]

@[simp] theorem State.startLostParity_spin (s : State) (h : Head) (st : Stripe) (i : Nat) (slot : Nat) : (State.startLostParity s h st i slot).spin = s.spin := by
  simp [State.startLostParity]

@[simp] theorem State.startBeam_spin (s : State) (h : Head) (n : Nat) (b : Beam) : (State.startBeam s h n b).spin = s.spin := by
  simp only [State.startBeam]
  (repeat' split) <;> simp

@[simp] theorem State.closeGroup_spin (s : State) (h : Head) : (State.closeGroup s h).spin = s.spin := by
  simp [State.closeGroup]

@[simp] theorem State.anchor_spin (s : State) (h : Head) : (State.anchor s h).spin = s.spin := by
  simp [State.anchor]

@[simp] theorem State.beginSlot_spin (s : State) (h : Head) : (State.beginSlot s h).spin = s.spin := by
  simp [State.beginSlot]

@[simp] theorem execSlotBegin_spin (t : Time) (h : Head) (s : State) : ∀ u, (execSlotBegin t h s) = .next u → u.spin = s.spin := by
  intro u h
  cases h
  simp

@[simp] theorem State.mountDone_spin (s : State) : (State.mountDone s).spin = s.spin := by
  simp only [State.mountDone]
  split <;> simp

@[simp] theorem State.unmountNow_spinOk (s : State) : SpinOk s.spin → SpinOk (State.unmountNow s).spin := by
  intro h
  simp [State.unmountNow, h]

@[simp] theorem State.settleUnmount_spinOk (s : State) : SpinOk s.spin → SpinOk (State.settleUnmount s).spin := by
  intro h
  simp only [State.settleUnmount]
  (repeat' split) <;> simp_all

@[simp] theorem State.sysPassed_spin (s : State) (no : Nat) : (State.sysPassed s no).spin = s.spin := by
  simp [State.sysPassed]

@[simp] theorem State.commitCounter_spin (s : State) (st : Stripe) : (State.commitCounter s st).spin = s.spin := by
  simp [State.commitCounter]

@[simp] theorem State.passSector_spin (s : State) (x : Sector) : (State.passSector s x).spin = s.spin := by
  simp only [State.passSector]
  (repeat' split) <;> simp

@[simp] theorem State.countVerdict_spin (s : State) (h : Head) (b : Beam) (failed : Bool) (cause : Nat) : (State.countVerdict s h b failed cause).spin = s.spin := by
  simp [State.countVerdict]

@[simp] theorem State.trimBeta_spin (s : State) (h : Head) (b : Beam) (beta : Nat) : (State.trimBeta s h b beta).spin = s.spin := by
  simp [State.trimBeta]

@[simp] theorem execVerifyVerdict_spinOk (t : Time) (h : Head) (b : Beam) (m : VerifyMeasure) (s : State) : SpinOk s.spin → ∀ u, (execVerifyVerdict t h b m s) = .next u → SpinOk u.spin := by
  intro h u e
  simp only [execVerifyVerdict, Host.Outcome.next.injEq] at e
  subst e
  (repeat' split) <;> simp_all

@[simp] theorem State.stopRecording_spin (s : State) : (State.stopRecording s).spin = s.spin := (rfl)

@[simp] theorem execStreamDry_spin (t : Time) (s : State) : ∀ u, (execStreamDry t s) = .next u → u.spin = s.spin := by
  intro u h
  cases h
  simp

@[simp] theorem execRecordingResume_spin (t : Time) (s : State) : ∀ u, (execRecordingResume t s) = .next u → u.spin = s.spin := by
  intro u h
  cases h
  simp

@[simp] theorem State.stagingError_spin (s : State) (h : Head) (b : Beam) : (State.stagingError s h b).spin = s.spin := by
  simp only [State.stagingError]
  split <;> simp

@[simp] theorem State.encodeError_spin (s : State) (h : Head) (b : Beam) : (State.encodeError s h b).spin = s.spin := by
  simp [State.encodeError]

@[simp] theorem execSramParityError_spin (t : Time) (site : SramSite) (byte : Byte) (parity : Bool) (s : State) : ∀ u, (execSramParityError t site byte parity s) = .next u → u.spin = s.spin := by
  intro u h
  simp only [execSramParityError] at h
  cases h
  (repeat' split) <;> simp

@[simp] theorem execParityAccumulatorError_spin (t : Time) (h : Head) (member : Fin 3) (byte : Byte) (parity : Bool) (s : State) : ∀ u, (execParityAccumulatorError t h member byte parity s) = .next u → u.spin = s.spin := by
  intro u h
  simp only [execParityAccumulatorError] at h
  cases h
  (repeat' split) <;> simp

end Sys2Proof.Machine
end

