-- ==== Sys2Proof/Laws/KeepSpinLoop.lean ====
section
/-! SUPPORT. What the operations of Machine/Loop.lean leave of `spin`. -/

namespace Sys2Proof.Machine

@[simp] theorem State.lockOut_spinOk (s : State) : SpinOk s.spin → SpinOk (State.lockOut s).spin := by
  intro _
  have hg : s.gatesOff.spin.gates = .off ∧ (s.gatesOff.spin.state = 0 ∨ s.gatesOff.spin.state = 6) := by
    refine ⟨rfl, ?_⟩
    show (if s.spin.state = 0 then 0 else 6) = 0 ∨ (if s.spin.state = 0 then 0 else 6) = 6
    split <;> simp
  simp only [State.lockOut, State.checkGuarantee_spin, State.endAll_spin, State.updSpin_spin]
  exact ⟨fun _ => hg, by rcases hg.2 with e | e <;> simp [e]⟩

@[simp] theorem State.spindleDrop_spinOk (s : State) : SpinOk s.spin → SpinOk (State.spindleDrop s).spin := by
  intro h
  have h0 : SpinOk ((s.gatesOff.clearReady .a).clearReady .b).spin := by simp [h]
  simp only [State.spindleDrop, State.checkGuarantee_spin, State.stopCalibrate_spin, State.abortSteps_spin, keepIte_spin]
  generalize (s.gatesOff.clearReady .a).clearReady .b = w at h0
  split
  · exact State.lockOut_spinOk w h0
  · rw [State.updSpin_spin]
    exact ⟨h0.1, h0.2⟩

@[simp] theorem State.afterTrip_spinOk (s : State) (i : LoopId) (cause : Nat) : SpinOk s.spin → SpinOk (State.afterTrip s i cause).spin := by
  intro h
  have h0 : SpinOk (if cause = 4 then s
    else s.log 0x0501 [arg i.val, arg cause, argInt (s.slot i).eLast.toInt, argInt (s.slot i).uLast.toInt]).spin := by simp [h]
  unfold State.afterTrip
  dsimp only
  generalize (if cause = 4 then s else s.log 0x0501 _) = w at h0
  split
  · simp [h0]
  · split
    · exact State.spindleDrop_spinOk _ h0
    · exact h0

@[simp] theorem State.tripSlot_spinOk (s : State) (cause : Nat) (i : LoopId) : SpinOk s.spin → SpinOk (State.tripSlot s cause i).spin := by
  intro h
  simp only [State.tripSlot]
  split <;> simp [h]

@[simp] theorem State.setReady_spin (s : State) (h : Head) : (State.setReady s h).spin = s.spin := by
  simp only [State.setReady]
  split <;> simp

@[simp] theorem State.followReady_spin (s : State) (i : LoopId) : (State.followReady s i).spin = s.spin := by
  simp only [State.followReady]
  split <;> simp

@[simp] theorem State.logOverrun_spin (s : State) (i : LoopId) : (State.logOverrun s i).spin = s.spin := by
  simp [State.logOverrun]

@[simp] theorem State.setGenerator_spin (s : State) (i : LoopId) (v : Int) : (State.setGenerator s i v).spin = s.spin := by
  simp only [State.setGenerator]
  split <;> simp

@[simp] theorem State.disableSlot_spin (s : State) (i : LoopId) : (State.disableSlot s i).spin = s.spin := by
  simp only [State.disableSlot]
  split <;> simp

@[simp] theorem State.enableSlot_spin (s : State) (i : LoopId) : (State.enableSlot s i).spin = s.spin := by
  simp [State.enableSlot]

@[simp] theorem State.reEnable_spin (s : State) (i : LoopId) : (State.reEnable s i).spin = s.spin := by
  simp [State.reEnable]

@[simp] theorem State.followCapture_spin (s : State) (i : LoopId) : (State.followCapture s i).spin = s.spin := by
  simp only [State.followCapture]
  split <;> simp

@[simp] theorem State.followSled_spin (s : State) (i : LoopId) : (State.followSled s i).spin = s.spin := by
  simp only [State.followSled]
  (repeat' split) <;> simp

@[simp] theorem State.putSample_spinOk (s : State) (i : LoopId) (r : LoopSlot × Option Nat) : SpinOk s.spin → SpinOk (State.putSample s i r).spin := by
  intro h
  simp only [State.putSample]
  split <;> simp [h]

@[simp] theorem State.lastSample_spinOk (s : State) (i : LoopId) (sample : LoopSample) : SpinOk s.spin → SpinOk (State.lastSample s i sample).spin := by
  intro h
  simp only [State.lastSample]
  (repeat' split) <;> simp [h]

@[simp] theorem State.crossSample_spin (s : State) (i : LoopId) (sample : LoopSample) : (State.crossSample s i sample).1.spin = s.spin := by
  simp only [State.crossSample]
  split <;> simp

@[simp] theorem execSlotSample_spinOk (t : Time) (slot : LoopId) (given : LoopSample) (s : State) : SpinOk s.spin → ∀ u, (execSlotSample t slot given s) = .next u → SpinOk u.spin := by
  intro h u e
  simp only [execSlotSample, Host.Outcome.next.injEq] at e
  subst e
  have hc : SpinOk ((s.at t).crossSample slot given).1.spin := by simp [h]
  split
  · simp [h]
  · split
    · exact State.lastSample_spinOk _ _ _ hc
    · split
      · simp [h]
      · split <;> exact State.putSample_spinOk _ _ _ (by simp [h])

@[simp] theorem execLoopSlotEnable_spin (t : Time) (slot : LoopId) (on : Bool) (s : State) : ∀ u, (execLoopSlotEnable t slot on s) = .next u → u.spin = s.spin := by
  intro u h
  cases h
  simp

@[simp] theorem execLoopApply_spin (t : Time) (slot : LoopId) (s : State) : ∀ u, (execLoopApply t slot s) = .next u → u.spin = s.spin := by
  intro u h
  simp only [execLoopApply] at h
  cases h
  (repeat' split) <;> simp

@[simp] theorem execLoopParityError_spinOk (t : Time) (slot : LoopId) (s : State) : SpinOk s.spin → ∀ u, (execLoopParityError t slot s) = .next u → SpinOk u.spin := by
  intro h u e
  simp only [execLoopParityError, Host.Outcome.next.injEq] at e
  subst e
  (repeat' split) <;> (try simp_all) <;> (refine spinOk_foldl _ _ _ (fun u x hu => ?_) (by simp_all); (repeat' split) <;> simp_all)

@[simp] theorem execSlot9FsyncTimeout_spin (t : Time) (s : State) : ∀ u, (execSlot9FsyncTimeout t s) = .next u → u.spin = s.spin := by
  intro u h
  cases h
  simp

@[simp] theorem execStoppedSourceReport_spin (t : Time) (h : Head) (s : State) : ∀ u, (execStoppedSourceReport t h s) = .next u → u.spin = s.spin := by
  intro u h
  cases h
  simp

@[simp] theorem State.retune_spin (s : State) (rpm : Nat) : (State.retune s rpm).spin = s.spin := by
  simp [State.retune]

@[simp] theorem State.setSpeedRef_spin (s : State) (rpm : Nat) : (State.setSpeedRef s rpm).spin = s.spin := (rfl)

end Sys2Proof.Machine
end

