-- ==== Sys2Proof/Laws/KeepSpinLaser.lean ====
section
/-! SUPPORT. What the operations of Machine/Laser.lean leave of `spin`. -/

namespace Sys2Proof.Machine

@[simp] theorem State.doomFlight_spin (s : State) (h : Head) (cause : Nat) : (State.doomFlight s h cause).spin = s.spin := (rfl)

@[simp] theorem State.cutLasers_spin (s : State) (h : Head) : (State.cutLasers s h).spin = s.spin := by
  simp [State.cutLasers]

@[simp] theorem State.tripRoles_spinOk (s : State) (h : Head) (roles : List Nat) (cause : Nat) : SpinOk s.spin → SpinOk (State.tripRoles s h roles cause).spin := by
  intro h
  simp only [State.tripRoles]
  (repeat' split) <;> simp_all

@[simp] theorem State.stopIfRecording_spin (s : State) : (State.stopIfRecording s).spin = s.spin := by
  simp [State.stopIfRecording]

@[simp] theorem State.openChains_spinOk (s : State) (mask : Nat) : SpinOk s.spin → SpinOk (State.openChains s mask).spin := by
  intro h
  simp [State.openChains, h]

@[simp] theorem execDoorSenseRise_spinOk (t : Time) (s : State) : SpinOk s.spin → ∀ u, (execDoorSenseRise t s) = .next u → SpinOk u.spin := by
  intro h u e
  simp only [execDoorSenseRise, Host.Outcome.next.injEq] at e
  subst e
  exact State.openChains_spinOk _ _ (by simp [h])

@[simp] theorem execLaserArmDeassert_spinOk (t : Time) (s : State) : SpinOk s.spin → ∀ u, (execLaserArmDeassert t s) = .next u → SpinOk u.spin := by
  intro h u e
  simp only [execLaserArmDeassert, Host.Outcome.next.injEq] at e
  subst e
  exact State.openChains_spinOk _ _ (by simp [h])

@[simp] theorem State.withdrawHead_spinOk (s : State) (h : Head) : SpinOk s.spin → SpinOk (State.withdrawHead s h).spin := by
  intro h
  simp [State.withdrawHead, h]

theorem State.withdraw_eq (s : State) : s.withdraw =
    ((((((((s.abortSteps (2 ^ 2 + 2 ^ 7) fun _ _ => true).stopCalibrate (2 ^ 2 + 2 ^ 7)).withdrawHead .a).withdrawHead
      .b).updQuill fun q => { q with motorRelease := false }).tripSlot 5 8).tripSlot 5 9).gatesOff).stopIfRecording := rfl

theorem State.withdrawHeads_spinOk (s : State) (h : SpinOk s.spin) : SpinOk ((((s.abortSteps (2 ^ 2 + 2 ^ 7)
      fun _ _ => true).stopCalibrate (2 ^ 2 + 2 ^ 7)).withdrawHead .a).withdrawHead .b).spin :=
    State.withdrawHead_spinOk _ _ (State.withdrawHead_spinOk _ _ (by simp [h]))

theorem State.withdrawRest_spinOk (w : State) (h : SpinOk w.spin) :
    SpinOk (((((w.updQuill fun q => { q with motorRelease := false }).tripSlot 5 8).tripSlot 5 9).gatesOff).stopIfRecording).spin := by
  rw [State.stopIfRecording_spin]
  refine State.gatesOff_spinOk _ (State.tripSlot_spinOk _ _ _ (State.tripSlot_spinOk _ _ _ ?_))
  rw [State.updQuill_spin]
  exact h

@[simp] theorem State.withdraw_spinOk (s : State) : SpinOk s.spin → SpinOk (State.withdraw s).spin := by
  intro h
  rw [State.withdraw_eq]
  exact State.withdrawRest_spinOk _ (State.withdrawHeads_spinOk s h)

@[simp] theorem execQuillReleaseWithdraw_spinOk (t : Time) (s : State) : SpinOk s.spin → ∀ u, (execQuillReleaseWithdraw t s) = .next u → SpinOk u.spin := by
  intro h u e
  simp only [execQuillReleaseWithdraw, Host.Outcome.next.injEq] at e
  subst e
  simp [h]

@[simp] theorem State.endMedia_spin (s : State) (st : Status) : (State.endMedia s st).spin = s.spin := by
  simp [State.endMedia]

@[simp] theorem State.departMount_spinOk (s : State) (st : Status) : SpinOk s.spin → SpinOk (State.departMount s st).spin := by
  intro h
  simp [State.departMount, h]

@[simp] theorem execDoorDeclaredOpen_spinOk (t : Time) (s : State) : SpinOk s.spin → ∀ u, (execDoorDeclaredOpen t s) = .next u → SpinOk u.spin := by
  intro h u e
  simp only [execDoorDeclaredOpen, Host.Outcome.next.injEq] at e
  subst e
  (repeat' split) <;> simp_all

@[simp] theorem State.doorClosed_spin (s : State) : (State.doorClosed s).spin = s.spin := by
  simp [State.doorClosed]

@[simp] theorem execLaserReenable_spin (t : Time) (h : Head) (s : State) : ∀ u, (execLaserReenable t h s) = .next u → u.spin = s.spin := by
  intro u h
  cases h
  simp

@[simp] theorem execMagPresentChange_spinOk (t : Time) (present : Bool) (s : State) : SpinOk s.spin → ∀ u, (execMagPresentChange t present s) = .next u → SpinOk u.spin := by
  intro h u e
  simp only [execMagPresentChange, Host.Outcome.next.injEq] at e
  subst e
  (repeat' split) <;> simp_all

@[simp] theorem execLdcfgFrame_spin (t : Time) (h : Head) (b : Beam) (level : Level) (code : BitVec 10) (echo1 : Word) (echo2 : Word) (s : State) : ∀ u, (execLdcfgFrame t h b level code echo1 echo2 s) = .next u → u.spin = s.spin := by
  intro u h
  cases h
  simp

end Sys2Proof.Machine
end

