-- ==== Sys2Proof/Laws/KeepSpinMoves.lean ====
section
/-! SUPPORT. What the operations of Machine/Moves.lean leave of `spin`. -/

namespace Sys2Proof.Machine

@[simp] theorem State.startSeek_spin (s : State) (h : Head) (nm : Nat) (band : Option Nat) : (State.startSeek s h nm band).spin = s.spin := by
  simp [State.startSeek]

@[simp] theorem State.startFollow_spin (s : State) (h : Head) (nm : Nat) : (State.startFollow s h nm).spin = s.spin := by
  simp [State.startFollow]

@[simp] theorem State.runSled_spin (s : State) (h : Head) : (State.runSled s h).spin = s.spin := by
  simp [State.runSled]

@[simp] theorem execSledSeek_spin (t : Time) (h : Head) (radiusNm : Nat) (s : State) : ∀ u, (execSledSeek t h radiusNm s) = .next u → u.spin = s.spin := by
  intro u h
  cases h
  simp

@[simp] theorem execSeekSettled_spin (t : Time) (h : Head) (band : Option Nat) (s : State) : ∀ u, (execSeekSettled t h band s) = .next u → u.spin = s.spin := by
  intro u h
  simp only [execSeekSettled] at h
  cases h
  (repeat' split) <;> simp

@[simp] theorem State.sledSource_spin (s : State) (h : Head) (decoding : Bool) : (State.sledSource s h decoding).spin = s.spin := by
  simp [State.sledSource]

@[simp] theorem execSledSourceSwitch_spin (t : Time) (h : Head) (decoding : Bool) (s : State) : ∀ u, (execSledSourceSwitch t h decoding s) = .next u → u.spin = s.spin := by
  intro u h
  cases h
  simp

@[simp] theorem State.drawFocus_spin (s : State) (h : Head) : (State.drawFocus s h).spin = s.spin := by
  simp [State.drawFocus]

@[simp] theorem State.closeFocus_spin (s : State) (h : Head) (layer : Nat) : (State.closeFocus s h layer).spin = s.spin := by
  simp [State.closeFocus]

@[simp] theorem State.lanesRead_spin (s : State) (h : Head) : (State.lanesRead s h).spin = s.spin := (rfl)

@[simp] theorem State.jumpTo_spin (s : State) (h : Head) (layer : Nat) : (State.jumpTo s h layer).spin = s.spin := by
  simp [State.jumpTo]

@[simp] theorem State.captureFails_spin (s : State) (h : Head) : (State.captureFails s h).spin = s.spin := by
  simp [State.captureFails]

@[simp] theorem State.capture_spin (s : State) (h : Head) (attempts : List CaptureSense) : (State.capture s h attempts).spin = s.spin := by
  simp only [State.capture]
  (repeat' split) <;> simp

@[simp] theorem execFocusCapture_spin (t : Time) (h : Head) (attempts : List CaptureSense) (s : State) : ∀ u, (execFocusCapture t h attempts s) = .next u → u.spin = s.spin := by
  intro u h
  cases h
  simp

@[simp] theorem execHeadRecapture_spin (t : Time) (h : Head) (attempts : List CaptureSense) (s : State) : ∀ u, (execHeadRecapture t h attempts s) = .next u → u.spin = s.spin := by
  intro u h
  cases h
  simp

@[simp] theorem execLayerJump_spin (t : Time) (h : Head) (target : Nat) (s : State) : ∀ u, (execLayerJump t h target s) = .next u → u.spin = s.spin := by
  intro u h
  cases h
  simp

@[simp] theorem execTrackJump_spin (t : Time) (h : Head) (outward : Bool) (s : State) : ∀ u, (execTrackJump t h outward s) = .next u → u.spin = s.spin := by
  intro u h
  cases h
  simp

@[simp] theorem execPark_spin (t : Time) (h : Head) (s : State) : ∀ u, (execPark t h s) = .next u → u.spin = s.spin := by
  intro u h
  cases h
  simp

@[simp] theorem execEmergencyPark_spinOk (t : Time) (s : State) : SpinOk s.spin → ∀ u, (execEmergencyPark t s) = .next u → SpinOk u.spin := by
  intro h u e
  cases e
  simp [h]

@[simp] theorem execSpeculativePrefocus_spin (t : Time) (h : Head) (s : State) : ∀ u, (execSpeculativePrefocus t h s) = .next u → u.spin = s.spin := by
  intro u h
  cases h
  simp

@[simp] theorem State.gainTrim_spin (s : State) (x : LoopId × Nat) : (State.gainTrim s x).spin = s.spin := by
  simp [State.gainTrim]

@[simp] theorem State.turnHead_spin (s : State) (h : Head) (ok : Bool) : (State.turnHead s h ok).spin = s.spin := by
  simp [State.turnHead]

@[simp] theorem execLayerTurnaround_spin (t : Time) (okA : Bool) (okB : Bool) (gains : List (LoopId × Nat)) (s : State) : ∀ u, (execLayerTurnaround t okA okB gains s) = .next u → u.spin = s.spin := by
  intro u h
  cases h
  simp

@[simp] theorem execTurnaroundTimeout_spin (t : Time) (s : State) : ∀ u, (execTurnaroundTimeout t s) = .next u → u.spin = s.spin := by
  intro u h
  simp only [execTurnaroundTimeout] at h
  cases h
  (repeat' split) <;> simp

@[simp] theorem State.trimKept_spin (s : State) (h : Head) (b : Beam) (i : Fin 3) : (State.trimKept s h b i).spin = s.spin := (rfl)

@[simp] theorem State.trimLost_spin (s : State) (h : Head) (b : Beam) (i : Fin 3) : (State.trimLost s h b i).spin = s.spin := by
  simp [State.trimLost]

@[simp] theorem execAfeOffsetTrim_spin (t : Time) (h : Head) (b : Beam) (dev : Int) (s : State) : ∀ u, (execAfeOffsetTrim t h b dev s) = .next u → u.spin = s.spin := by
  intro u h
  cases h
  simp

@[simp] theorem execReadPowerTrim_spin (t : Time) (h : Head) (b : Beam) (mean : Nat) (s : State) : ∀ u, (execReadPowerTrim t h b mean s) = .next u → u.spin = s.spin := by
  intro u h
  cases h
  simp

@[simp] theorem execLaserReferenceTrim_spin (t : Time) (h : Head) (b : Beam) (slope : Nat) (s : State) : ∀ u, (execLaserReferenceTrim t h b slope s) = .next u → u.spin = s.spin := by
  intro u h
  cases h
  simp

end Sys2Proof.Machine
end

