-- ==== Sys2Proof/Laws/KeepSpinQueues.lean ====
section
/-! SUPPORT. What the operations of Machine/Queues.lean leave of `spin`. -/

namespace Sys2Proof.Machine

@[simp] theorem State.barWrite_spin (s : State) (fn : FnId) (k : State → State) (hk : ∀ u, (k u).spin = u.spin) : (State.barWrite s fn k).spin = s.spin := by
  simp only [State.barWrite]
  (repeat' split) <;> simp_all

@[simp] theorem State.doorbellError_spin (s : State) (fn : FnId) (q : QId) (idx : Nat) : (State.doorbellError s fn q idx).spin = s.spin := by
  simp [State.doorbellError]

@[simp] theorem State.wakeLink_spin (s : State) : (State.wakeLink s).spin = s.spin := (rfl)

@[simp] theorem sqDoorbell_spin (fn : FnId) (q : QId) (value : Word) (s : State) : (sqDoorbell fn q value s).spin = s.spin := by
  simp [sqDoorbell]

@[simp] theorem execSqTailDoorbell_spin (t : Time) (fn : FnId) (q : QId) (value : Word) (s : State) : ∀ u, (execSqTailDoorbell t fn q value s) = .next u → u.spin = s.spin := by
  intro u h
  cases h
  simp

@[simp] theorem cqDoorbell_spin (fn : FnId) (q : QId) (value : Word) (s : State) : (cqDoorbell fn q value s).spin = s.spin := by
  simp [cqDoorbell]

@[simp] theorem execCqHeadDoorbell_spin (t : Time) (fn : FnId) (q : QId) (value : Word) (s : State) : ∀ u, (execCqHeadDoorbell t fn q value s) = .next u → u.spin = s.spin := by
  intro u h
  cases h
  simp

@[simp] theorem State.dropHeldOrder_spin (s : State) (fn : FnId) (q : QId) : (State.dropHeldOrder s fn q).spin = s.spin := (rfl)

@[simp] theorem State.deleteQueue_spin (s : State) (fn : FnId) (q : QId) : (State.deleteQueue s fn q).spin = s.spin := by
  simp [State.deleteQueue]

@[simp] theorem State.writeCtrl_spin (s : State) (fn : FnId) (q : QId) (w : Word) : (State.writeCtrl s fn q w).spin = s.spin := by
  simp [State.writeCtrl]

@[simp] theorem execQueueEnable_spin (t : Time) (fn : FnId) (q : QId) (ctrl : Word) (s : State) : ∀ u, (execQueueEnable t fn q ctrl s) = .next u → u.spin = s.spin := by
  intro u h
  cases h
  simp

@[simp] theorem execQueueDelete_spin (t : Time) (fn : FnId) (q : QId) (ctrl : Word) (s : State) : ∀ u, (execQueueDelete t fn q ctrl s) = .next u → u.spin = s.spin := by
  intro u h
  cases h
  simp

@[simp] theorem execQueueDeletionComplete_spin (t : Time) (fn : FnId) (q : QId) (s : State) : ∀ u, (execQueueDeletionComplete t fn q s) = .next u → u.spin = s.spin := by
  intro u h
  cases h
  simp

@[simp] theorem execRestart_spin (t : Time) (fn : FnId) (q : QId) (ctrl : Word) (s : State) : ∀ u, (execRestart t fn q ctrl s) = .next u → u.spin = s.spin := by
  intro u h
  cases h
  simp

@[simp] theorem State.takeSlot_spin (s : State) (n : Nat) : ∀ x, (State.takeSlot s n) = some x → x.2.spin = s.spin := by
  intro u h
  simp only [State.takeSlot] at h
  (repeat' split at h) <;> simp at h <;> subst h <;> simp

@[simp] theorem State.takeReview_spin (s : State) (fn : FnId) (n : Nat) : ∀ x, (State.takeReview s fn n) = some x → x.2.spin = s.spin := by
  intro u h
  simp only [State.takeReview] at h
  (repeat' split at h) <;> simp at h <;> subst h <;> simp

@[simp] theorem State.takeSide_spin (s : State) (n : Nat) : ∀ x, (State.takeSide s n) = some x → x.2.spin = s.spin := by
  intro u h
  simp only [State.takeSide] at h
  (repeat' split at h) <;> simp at h <;> subst h <;> simp

@[simp] theorem State.allotSpace_spin (s : State) (fn : FnId) (e : Entry) (headOfHeld : Bool) : ∀ x, (State.allotSpace s fn e headOfHeld) = some x → x.2.spin = s.spin := by
  intro x h
  unfold State.allotSpace at h
  split at h
  · cases h; rfl
  · split at h
    · cases h; rfl
    · split at h
      · split at h
        · cases h; rfl
        · split at h
          · cases h; rfl
          · split at h
            · cases h
            · obtain ⟨v, hv, rfl⟩ := Option.map_eq_some_iff.mp h
              have := State.takeSlot_spin _ _ _ hv
              simpa using this
      · exact State.takeReview_spin _ _ _ _ h
      · exact State.takeReview_spin _ _ _ _ h
      · split at h
        · cases h; rfl
        · exact State.takeReview_spin _ _ _ _ h
      · exact State.takeSide_spin _ _ _ h
      · exact State.takeSide_spin _ _ _ h
      · cases h; rfl

@[simp] theorem State.latchTimecode_spin (s : State) : (State.latchTimecode s).spin = s.spin := by
  simp [State.latchTimecode]

@[simp] theorem State.pushFetched_spin (s : State) (fn : FnId) (q : QId) (e : Entry) (a : Alloc) : (State.pushFetched s fn q e a).spin = s.spin := by
  simp [State.pushFetched]

@[simp] theorem State.bufferFull_spin (s : State) (fn : FnId) (q : QId) (e : Entry) : (State.bufferFull s fn q e).spin = s.spin := by
  simp [State.bufferFull]

@[simp] theorem State.holdFetch_spin (s : State) (fn : FnId) (q : QId) (e : Entry) : (State.holdFetch s fn q e).spin = s.spin := by
  simp [State.holdFetch]

@[simp] theorem State.fetchAll_spin (s : State) (fn : FnId) (q : QId) : ∀ l, (State.fetchAll s fn q l).spin = s.spin := by
  intro l
  induction l generalizing s with
  | nil => rfl
  | cons x l ih =>
    unfold State.fetchAll
    split
    · dsimp only
      split
      · next a s1 he =>
        have := State.allotSpace_spin _ _ _ _ _ he
        rw [ih]; simpa using this
      · simp
    · rfl

@[simp] theorem execCommandFetch_spin (t : Time) (entries : List (List Byte)) (s : State) : ∀ u, (execCommandFetch t entries s) = .next u → u.spin = s.spin := by
  intro u h
  simp only [execCommandFetch] at h
  cases h
  (repeat' split) <;> simp

@[simp] theorem execFetchReadError_spin (t : Time) (fn : FnId) (q : QId) (addr : DWord) (s : State) : ∀ u, (execFetchReadError t fn q addr s) = .next u → u.spin = s.spin := by
  intro u h
  cases h
  simp

@[simp] theorem execCoalesceTimerExpiry_spin (t : Time) (fn : FnId) (q : QId) (s : State) : ∀ u, (execCoalesceTimerExpiry t fn q s) = .next u → u.spin = s.spin := by
  intro u h
  simp only [execCoalesceTimerExpiry] at h
  cases h
  (repeat' split) <;> simp

@[simp] theorem execInboundBudgetWindow_spin (t : Time) (s : State) : ∀ u, (execInboundBudgetWindow t s) = .next u → u.spin = s.spin := by
  intro u h
  simp only [execInboundBudgetWindow] at h
  cases h
  (repeat' split) <;> simp

@[simp] theorem execAspmL1Entry_spin (t : Time) (s : State) : ∀ u, (execAspmL1Entry t s) = .next u → u.spin = s.spin := by
  intro u h
  cases h
  simp

@[simp] theorem execConfigRequestNotReady_spin (t : Time) (fn : FnId) (req : HostAccess) (s : State) : ∀ u, (execConfigRequestNotReady t fn req s) = .next u → u.spin = s.spin := by
  intro u h
  simp only [execConfigRequestNotReady] at h
  cases h
  (repeat' split) <;> simp

@[simp] theorem execHeldFetchResume_spin (t : Time) (fn : FnId) (q : QId) (s : State) : ∀ u, (execHeldFetchResume t fn q s) = .next u → u.spin = s.spin := by
  intro u h
  cases h
  split
  · simp
  · split
    · simp
    · split
      · next a s2 he =>
        have := State.allotSpace_spin _ _ _ _ _ he
        simpa using this
      · simp

@[simp] theorem execFullWaitExpiry_spin (t : Time) (fn : FnId) (q : QId) (s : State) : ∀ u, (execFullWaitExpiry t fn q s) = .next u → u.spin = s.spin := by
  intro u h
  simp only [execFullWaitExpiry] at h
  cases h
  (repeat' split) <;> simp

@[simp] theorem execRateDeficitRepeat_spin (t : Time) (s : State) : ∀ u, (execRateDeficitRepeat t s) = .next u → u.spin = s.spin := by
  intro u h
  simp only [execRateDeficitRepeat] at h
  cases h
  (repeat' split) <;> simp

end Sys2Proof.Machine
end

