-- ==== Sys2Proof/Laws/KeepSpinLinks.lean ====
section
/-! SUPPORT. What the operations of Machine/Links.lean leave of `spin`. -/

namespace Sys2Proof.Machine

@[simp] theorem State.settleStarted_spin (s : State) (fn : FnId) : (State.settleStarted s fn).spin = s.spin := by
  simp [State.settleStarted]

@[simp] theorem State.dropArriving_spin (s : State) : (State.dropArriving s).spin = s.spin := by
  simp [State.dropArriving]

@[simp] theorem State.dropFetched_spin (s : State) (fn : FnId) : (State.dropFetched s fn).spin = s.spin := by
  simp [State.dropFetched]

@[simp] theorem State.orphanPower_spin (s : State) (fn : FnId) : (State.orphanPower s fn).spin = s.spin := (rfl)

@[simp] theorem State.closeForReset_spin (s : State) : (State.closeForReset s).spin = s.spin := by
  simp [State.closeForReset]

@[simp] theorem State.resetFns_spin (s : State) (fns : List FnId) : (State.resetFns s fns).spin = s.spin := by
  simp [State.resetFns]

@[simp] theorem State.resetFn_spin (s : State) (fn : FnId) : (State.resetFn s fn).spin = s.spin := by
  simp [State.resetFn]

@[simp] theorem execFunctionLevelReset_spin (t : Time) (fn : FnId) (s : State) : ∀ u, (execFunctionLevelReset t fn s) = .next u → u.spin = s.spin := by
  intro u h
  cases h
  simp

@[simp] theorem State.resetLink_spin (s : State) : (State.resetLink s).spin = s.spin := by
  simp [State.resetLink]

@[simp] theorem execLinkDown_spin (t : Time) (s : State) : ∀ u, (execLinkDown t s) = .next u → u.spin = s.spin := by
  intro u h
  cases h
  simp

@[simp] theorem execHotReset_spin (t : Time) (s : State) : ∀ u, (execHotReset t s) = .next u → u.spin = s.spin := by
  intro u h
  cases h
  simp

@[simp] theorem execLinkDisabled_spin (t : Time) (s : State) : ∀ u, (execLinkDisabled t s) = .next u → u.spin = s.spin := by
  intro u h
  cases h
  simp

theorem Spindle.afterReset_ok (p : Spindle) : SpinOk p.afterReset := by
  refine ⟨fun e => (by cases e), ?_⟩
  show (if p.state = 0 then 0 else 6) ≤ 6
  split <;> simp

theorem State.coreReset_spin (s : State) : s.coreReset.spin = s.spin.afterReset := rfl

@[simp] theorem State.coreReset_spinOk (s : State) : SpinOk s.spin → SpinOk (State.coreReset s).spin := by
  intro _
  rw [State.coreReset_spin]
  exact Spindle.afterReset_ok s.spin

@[simp] theorem State.forgetPower_spinOk (r : State) : SpinOk r.spin → SpinOk (State.forgetPower r).spin := by
  intro h
  exact ⟨h.1, h.2⟩

theorem State.powerUp_spin (s : State) :
    s.powerUp.spin = { s.spin.afterReset with starts := 0, stalls := 0, trips := 0 } := rfl

@[simp] theorem State.powerUp_spinOk (s : State) : SpinOk s.spin → SpinOk (State.powerUp s).spin := by
  intro _
  rw [State.powerUp_spin]
  exact ⟨(Spindle.afterReset_ok s.spin).1, (Spindle.afterReset_ok s.spin).2⟩

@[simp] theorem State.assertPerst_spinOk (s : State) : SpinOk s.spin → SpinOk (State.assertPerst s).spin := by
  intro h
  unfold State.assertPerst
  rw [State.updPins_spin]
  exact State.coreReset_spinOk s h

@[simp] theorem execPerstNAssertion_spinOk (t : Time) (lowNs : Nat) (s : State) : SpinOk s.spin → ∀ u, (execPerstNAssertion t lowNs s) = .next u → SpinOk u.spin := by
  intro h u e
  simp only [execPerstNAssertion] at e
  (repeat' split at e) <;> (first | cases e | skip) <;> (try simp_all)

@[simp] theorem execDeferredPerst_spinOk (t : Time) (s : State) : SpinOk s.spin → ∀ u, (execDeferredPerst t s) = .next u → SpinOk u.spin := by
  intro h u e
  simp only [execDeferredPerst] at e
  (repeat' split at e) <;> (first | cases e | skip) <;> (try simp_all)

@[simp] theorem execVaonPowerUp_spinOk (t : Time) (s : State) : SpinOk s.spin → ∀ u, (execVaonPowerUp t s) = .next u → SpinOk u.spin := by
  intro h u e
  cases e
  simp [h]

@[simp] theorem State.activateReset_spinOk (s : State) : SpinOk s.spin → SpinOk (State.activateReset s).spin := by
  intro h
  exact State.coreReset_spinOk _ (State.withdraw_spinOk s h)

@[simp] theorem execQuillFault_spinOk (t : Time) (cls : Word) (s : State) : SpinOk s.spin → ∀ u, (execQuillFault t cls s) = .next u → SpinOk u.spin := by
  intro h u e
  simp only [execQuillFault, Host.Outcome.next.injEq] at e
  subst e
  (repeat' split) <;> (try simp_all) <;> (refine spinOk_foldl _ _ _ (fun u x hu => ?_) (by simp_all); (repeat' split) <;> simp_all)

end Sys2Proof.Machine
end

