-- ==== Sys2Proof/Laws/KeepSpinQuill.lean ====
section
/-! SUPPORT. What the operations of Machine/Quill.lean leave of `spin`. -/

namespace Sys2Proof.Machine

@[simp] theorem State.loadArchive_spinOk (s : State) : SpinOk s.spin → SpinOk (State.loadArchive s).spin := by
  intro h
  simp only [State.loadArchive]
  (repeat' split) <;> simp_all [SpinOk]

@[simp] theorem State.logAll_spin (s : State) (l : List (BitVec 16 × List Word)) : (State.logAll s l).spin = s.spin := by
  simp [State.logAll]

@[simp] theorem State.releaseVole_spin (s : State) (cause : Nat) : (State.releaseVole s cause).spin = s.spin := by
  simp [State.releaseVole]

@[simp] theorem State.enterRecovery_spin (s : State) (cause : Nat) (rejected : List (BitVec 16 × List Word)) : (State.enterRecovery s cause rejected).spin = s.spin := (rfl)

@[simp] theorem State.bootSlot_spinOk (s : State) (n : Nat) (cause : Nat) (rejected : List (BitVec 16 × List Word)) : SpinOk s.spin → SpinOk (State.bootSlot s n cause rejected).spin := by
  intro h
  simp [State.bootSlot, h]

@[simp] theorem State.bootRom_spinOk (s : State) (katOk : Bool) (octalOk : Bool) : SpinOk s.spin → SpinOk (State.bootRom s katOk octalOk).spin := by
  intro h
  simp only [State.bootRom]
  (repeat' split) <;> simp_all

@[simp] theorem execQuillBoot_spinOk (t : Time) (katOk : Bool) (octalOk : Bool) (testEn : Bool) (s : State) : SpinOk s.spin → ∀ u, (execQuillBoot t katOk octalOk testEn s) = .next u → SpinOk u.spin := by
  intro h u e
  simp only [execQuillBoot, Host.Outcome.next.injEq] at e
  subst e
  (repeat' split) <;> simp_all

@[simp] theorem State.loseDevice_spin (s : State) (d : Fin 20) : (State.loseDevice s d).spin = s.spin := by
  simp [State.loseDevice]

@[simp] theorem State.selfTest_spin (s : State) (test : SelfTestSense) : (State.selfTest s test).spin = s.spin := by
  simp only [State.selfTest]
  split <;> simp

@[simp] theorem execMemorySelfTest_spin (t : Time) (test : SelfTestSense) (s : State) : ∀ u, (execMemorySelfTest t test s) = .next u → u.spin = s.spin := by
  intro u h
  cases h
  simp

@[simp] theorem State.settleFloor_spin (s : State) : (State.settleFloor s).spin = s.spin := by
  simp only [State.settleFloor]
  split <;> simp

@[simp] theorem State.grantReleases_spin (s : State) : (State.grantReleases s).spin = s.spin := by
  simp [State.grantReleases]

@[simp] theorem State.raiseFunctions_spin (s : State) (rate : Nat) (width : Nat) : (State.raiseFunctions s rate width).spin = s.spin := (rfl)

@[simp] theorem State.endResets_spin (s : State) : (State.endResets s).spin = s.spin := by
  simp [State.endResets]

@[simp] theorem State.magazineFromPins_spin (s : State) : (State.magazineFromPins s).spin = s.spin := by
  simp [State.magazineFromPins]

@[simp] theorem State.logDormouse_spin (s : State) : (State.logDormouse s).spin = s.spin := by
  simp [State.logDormouse]

@[simp] theorem State.becomeReady_spin (s : State) (rate : Nat) (width : Nat) : (State.becomeReady s rate width).spin = s.spin := by
  simp [State.becomeReady]

@[simp] theorem execFunctionsReady_spin (t : Time) (rate : Nat) (width : Nat) (s : State) : ∀ u, (execFunctionsReady t rate width s) = .next u → u.spin = s.spin := by
  intro u h
  cases h
  simp

@[simp] theorem State.settleActivate_spin (s : State) : (State.settleActivate s).spin = s.spin := by
  simp only [State.settleActivate]
  split <;> simp

@[simp] theorem execActivationReset_spinOk (t : Time) (s : State) : SpinOk s.spin → ∀ u, (execActivationReset t s) = .next u → SpinOk u.spin := by
  intro h u e
  simp only [execActivationReset, Host.Outcome.next.injEq] at e
  subst e
  (repeat' split) <;> simp_all

@[simp] theorem State.unlockAt_spinOk (s : State) (level : Nat) : SpinOk s.spin → SpinOk (State.unlockAt s level).spin := by
  intro h
  simp [State.unlockAt, h]

@[simp] theorem execJtagTapAccess_spin (t : Time) (tap : TapInstr) (s : State) : ∀ u, (execJtagTapAccess t tap s) = .next u → u.spin = s.spin := by
  intro u h
  simp only [execJtagTapAccess] at h
  (repeat' split at h) <;> (first | cases h | skip) <;> (try simp) <;> simp_all

@[simp] theorem execRbgFail_spin (t : Time) (s : State) : ∀ u, (execRbgFail t s) = .next u → u.spin = s.spin := by
  intro u h
  cases h
  simp

@[simp] theorem State.uartAnswer_spin (s : State) (rtype : Byte) (payload : List Byte) : (State.uartAnswer s rtype payload).spin = s.spin := (rfl)

@[simp] theorem State.uartServe_spin (s : State) (k : State → State) (hk : ∀ u, (k u).spin = u.spin) : (State.uartServe s k).spin = s.spin := by
  simp only [State.uartServe]
  (repeat' split) <;> simp_all

@[simp] theorem State.lkRefuse_spin (s : State) (cause : Nat) : (State.lkRefuse s cause).spin = s.spin := by
  simp [State.lkRefuse]

@[simp] theorem State.programLk_spin (s : State) (payload : List Byte) (readBackOk : Bool) : (State.programLk s payload readBackOk).spin = s.spin := by
  simp [State.programLk]

@[simp] theorem execLkProgram_spin (t : Time) (payload : List Byte) (readBackOk : Bool) (s : State) : ∀ u, (execLkProgram t payload readBackOk s) = .next u → u.spin = s.spin := by
  intro u h
  cases h
  simp

@[simp] theorem execVoleHeartbeatTimeout_spin (t : Time) (s : State) : ∀ u, (execVoleHeartbeatTimeout t s) = .next u → u.spin = s.spin := by
  intro u h
  cases h
  simp

end Sys2Proof.Machine
end

