-- ==== Sys2Proof/Laws/KeepSpinPower.lean ====
section
/-! SUPPORT. What the operations of Machine/Power.lean leave of `spin`. -/

namespace Sys2Proof.Machine

@[simp] theorem State.beginUnmount_spinOk (s : State) (r : Running) : SpinOk s.spin → SpinOk (State.beginUnmount s r).spin := by
  intro h
  simp only [State.beginUnmount]
  split <;> simp [h]

@[simp] theorem State.stopSteps_spin (s : State) : (State.stopSteps s).spin = s.spin := by
  simp [State.stopSteps]

@[simp] theorem State.lanesOff_spin (s : State) (h : Head) : (State.lanesOff s h).spin = s.spin := (rfl)

@[simp] theorem State.reloadChannels_spin (s : State) : (State.reloadChannels s).spin = s.spin := (rfl)

@[simp] theorem State.raiseRails_spin (s : State) : (State.raiseRails s).spin = s.spin := (rfl)

@[simp] theorem State.startStep_spinOk (s : State) (k : PowerStep) : SpinOk s.spin → SpinOk (State.startStep s k).spin := by
  intro h
  have h1 : SpinOk (s.updPwr fun w => { w with step := some k }).spin := by simp [h]
  unfold State.startStep
  dsimp only
  generalize (s.updPwr fun w => { w with step := some k }) = w at h1
  cases k with
  | prelude => dsimp only; split <;> simp [h1]
  | runToDoze => simp [h1]
  | dozeToRun => simp [h1]
  | dozeToPark =>
    dsimp only
    have h2 : SpinOk (w.updSpin fun p => { p with parkSpeed := p.target }).spin := by
      rw [State.updSpin_spin]; exact ⟨h1.1, h1.2⟩
    refine State.brakeSpindle_spinOk _ ?_
    rw [State.parkHead_spin, State.parkHead_spin, State.lanesOff_spin, State.lanesOff_spin]
    exact h2
  | parkToDoze =>
    dsimp only
    have h2 : SpinOk (w.setDomains (domainsOf .doze) 0).spin := by simp [h1]
    split
    · exact State.wantSpeed_spinOk _ _ h2
    · exact h2
  | parkToTorpor => exact h1
  | torporToHibernate => exact h1
  | exiting b => simp [h1]

@[simp] theorem State.enterState_spin (s : State) (p : PowerState) : (State.enterState s p).spin = s.spin := by
  simp [State.enterState]

@[simp] theorem State.endTransition_spin (s : State) : (State.endTransition s).spin = s.spin := by
  simp [State.endTransition]

@[simp] theorem State.goOn_spinOk (s : State) : SpinOk s.spin → SpinOk (State.goOn s).spin := by
  intro h
  simp only [State.goOn]
  (repeat' split) <;> simp_all

@[simp] theorem State.beginTransition_spinOk (s : State) (p : PowerState) (who : List Requester) (replay : Bool) (code : BitVec 4) : SpinOk s.spin → SpinOk (State.beginTransition s p who replay code).spin := by
  intro h
  simp only [State.beginTransition]
  (repeat' split) <;> (try simp_all) <;> (refine spinOk_foldl _ _ _ (fun u x hu => ?_) (by simp_all); (repeat' split) <;> simp_all)

@[simp] theorem execPowerTransitionStart_spinOk (t : Time) (s : State) : SpinOk s.spin → ∀ u, (execPowerTransitionStart t s) = .next u → SpinOk u.spin := by
  intro h u e
  simp only [execPowerTransitionStart, Host.Outcome.next.injEq] at e
  subst e
  (repeat' split) <;> simp_all

@[simp] theorem State.sendVcore_spin (s : State) : (State.sendVcore s).spin = s.spin := by
  simp only [State.sendVcore]
  (repeat' split) <;> simp

@[simp] theorem State.requestVcore_spin (s : State) (mv : Nat) : (State.requestVcore s mv).spin = s.spin := by
  simp [State.requestVcore]

@[simp] theorem State.noReturn_spin (s : State) : (State.noReturn s).spin = s.spin := by
  simp [State.noReturn]

@[simp] theorem State.loseCore_spinOk (s : State) : SpinOk s.spin → SpinOk (State.loseCore s).spin := by
  intro _
  have e : s.loseCore.spin = s.spin.afterReset := rfl
  rw [e]
  exact Spindle.afterReset_ok s.spin

@[simp] theorem State.enterTorpor_spinOk (s : State) : SpinOk s.spin → SpinOk (State.enterTorpor s).spin := by
  intro h
  simp only [State.enterTorpor]
  (repeat' split) <;> simp_all

@[simp] theorem State.enterHibernate_spin (s : State) : (State.enterHibernate s).spin = s.spin := (rfl)

@[simp] theorem State.loopsOff_spin (s : State) : (State.loopsOff s).spin = s.spin := by
  simp [State.loopsOff]

@[simp] theorem State.endStep_spinOk (s : State) (k : PowerStep) : SpinOk s.spin → SpinOk (State.endStep s k).spin := by
  intro h
  simp only [State.endStep]
  split <;> simp [h]

@[simp] theorem execPowerTransitionStepEnd_spinOk (t : Time) (s : State) : SpinOk s.spin → ∀ u, (execPowerTransitionStepEnd t s) = .next u → SpinOk u.spin := by
  intro h u e
  simp only [execPowerTransitionStepEnd, Host.Outcome.next.injEq] at e
  subst e
  (repeat' split) <;> simp_all

@[simp] theorem State.exitRom_spinOk (s : State) (katOk : Bool) (octalOk : Bool) : SpinOk s.spin → SpinOk (State.exitRom s katOk octalOk).spin := by
  intro h
  have h1 : SpinOk (s.coreReset.forgetPower).spin := State.forgetPower_spinOk _ (State.coreReset_spinOk s h)
  simp [State.exitRom, h1]

@[simp] theorem State.exitRetained_spinOk (s : State) : SpinOk s.spin → SpinOk (State.exitRetained s).spin := by
  intro h
  simp [State.exitRetained, h]

@[simp] theorem execTorporHibernateExit_spinOk (t : Time) (retentionOk : Bool) (katOk : Bool) (octalOk : Bool) (test : SelfTestSense) (rate : Nat) (width : Nat) (s : State) : SpinOk s.spin → ∀ u, (execTorporHibernateExit t retentionOk katOk octalOk test rate width s) = .next u → SpinOk u.spin := by
  intro h u e
  have h0 : SpinOk (s.at t).spin := by simp [h]
  simp only [execTorporHibernateExit, Host.Outcome.next.injEq] at e
  subst e
  generalize s.at t = w at h0
  split
  · split
    · have h2 : SpinOk (w.updPins fun p => { p with pgood := true, vcoreLow := false }).spin := by simp [h0]
      generalize (w.updPins fun p => { p with pgood := true, vcoreLow := false }) = v at h2
      have h3 : ∀ b, SpinOk (if (b || !retentionOk) = true then v.exitRom katOk octalOk else v.exitRetained).spin := by
        intro b; split
        · exact State.exitRom_spinOk _ _ _ h2
        · exact State.exitRetained_spinOk _ h2
      next b _ _ =>
      have h4 := h3 b
      generalize (if (b || !retentionOk) = true then v.exitRom katOk octalOk else v.exitRetained) = x at h4
      have h5 : SpinOk (x.updHost fun h => { h with fetchStopped := false }).spin := by simp [h4]
      generalize (x.updHost fun h => { h with fetchStopped := false }) = y at h5
      split
      · simp [h5]
      · have h6 : SpinOk (if y.quill.recovery = true then y else (y.selfTest test).setDomains (domainsOf .park) 0).spin := by
          split <;> simp [h5]
        generalize (if y.quill.recovery = true then y else (y.selfTest test).setDomains (domainsOf .park) 0) = z at h6
        refine spinOk_ite _ _ _ ?_ (State.goOn_spinOk _ ?_) <;> simp [h6]
    · exact h0
  · exact h0

@[simp] theorem execPgoodTimeout_spin (t : Time) (s : State) : ∀ u, (execPgoodTimeout t s) = .next u → u.spin = s.spin := by
  intro u h
  simp only [execPgoodTimeout] at h
  cases h
  (repeat' split) <;> simp

@[simp] theorem execRailEnableRetry_spin (t : Time) (s : State) : ∀ u, (execRailEnableRetry t s) = .next u → u.spin = s.spin := by
  intro u h
  cases h
  simp

@[simp] theorem execPgoodFall_spinOk (t : Time) (s : State) : SpinOk s.spin → ∀ u, (execPgoodFall t s) = .next u → SpinOk u.spin := by
  intro h u e
  simp only [execPgoodFall, Host.Outcome.next.injEq] at e
  subst e
  (repeat' split) <;> simp_all

@[simp] theorem execVcoreLowDetect_spinOk (t : Time) (s : State) : SpinOk s.spin → ∀ u, (execVcoreLowDetect t s) = .next u → SpinOk u.spin := by
  intro h u e
  cases e
  simp [h]

@[simp] theorem State.pinEdge_spin (s : State) (i : Fin 3) (lowNs : Nat) : (State.pinEdge s i lowNs).1.spin = s.spin := by
  simp only [State.pinEdge]
  (repeat' split) <;> simp

@[simp] theorem State.wakeEvent_spinOk (s : State) (p : WakePin) : SpinOk s.spin → SpinOk (State.wakeEvent s p).spin := by
  intro h
  unfold State.wakeEvent
  dsimp only
  split
  · split <;> simp [h]
  · split
    · exact h
    · exact State.beginTransition_spinOk _ _ _ _ _ h

@[simp] theorem execWakePinEdge_spinOk (t : Time) (second : Bool) (lowNs : Nat) (s : State) : SpinOk s.spin → ∀ u, (execWakePinEdge t second lowNs s) = .next u → SpinOk u.spin := by
  intro h u e
  have hr : SpinOk ((s.at t).pinEdge (if second then 1 else 0) lowNs).1.spin := by simp [h]
  simp only [execWakePinEdge, Host.Outcome.next.injEq] at e
  generalize ((s.at t).pinEdge (if second then 1 else 0) lowNs) = r at hr e
  subst e
  split
  · exact State.wakeEvent_spinOk _ _ hr
  · exact hr

@[simp] theorem execPsreqEdge_spin (t : Time) (lowNs : Nat) (pssel : Bool) (s : State) : ∀ u, (execPsreqEdge t lowNs pssel s) = .next u → u.spin = s.spin := by
  intro u h
  cases h
  simp

@[simp] theorem execWakeReplay_spinOk (t : Time) (s : State) : SpinOk s.spin → ∀ u, (execWakeReplay t s) = .next u → SpinOk u.spin := by
  intro h u e
  have h0 : SpinOk (s.at t).spin := by simp [h]
  simp only [execWakeReplay, Host.Outcome.next.injEq] at e
  subst e
  generalize s.at t = w at h0
  split
  · exact h0
  · split
    · exact h0
    · refine spinOk_ite _ _ _ ?_ (State.beginTransition_spinOk _ _ _ _ _ ?_) <;>
        (simp only [keepIte_spin, State.endRequesters_spin, State.updPwr_spin, ite_self]; exact h0)

@[simp] theorem State.rearmPins_spin (s : State) (fn : FnId) (v : Word) : (State.rearmPins s fn v).spin = s.spin := by
  simp [State.rearmPins]

@[simp] theorem execWakeRearm_spin (t : Time) (fn : FnId) (value : Word) (s : State) : ∀ u, (execWakeRearm t fn value s) = .next u → u.spin = s.spin := by
  intro u h
  cases h
  simp

@[simp] theorem State.powerFailEnds_spin (s : State) : (State.powerFailEnds s).spin = s.spin := by
  unfold State.powerFailEnds
  dsimp only
  rw [State.updRd_spin, State.dropScurry_spin, State.updQuill_spin, State.stopSteps_spin, State.updPwr_spin, State.endAll_spin, keepFold_spin, State.dropArriving_spin, State.updHost_spin]
  exact fun u x => State.failRead_spin u x _

@[simp] theorem State.powerFailStop_spin (s : State) : (State.powerFailStop s).1.spin = s.spin := by
  unfold State.powerFailStop
  have h := State.powerFailEnds_spin s
  dsimp only
  generalize s.powerFailEnds = w at h
  cases w.rcd.clip with
  | none => simp [h]
  | some c => simp only; split <;> simp [h]

@[simp] theorem State.powerFailBegin_spin (s : State) : (State.powerFailBegin s).spin = s.spin := by
  unfold State.powerFailBegin
  have h := State.powerFailStop_spin s
  dsimp only
  generalize s.powerFailStop = w at h
  split <;> simp [h]

@[simp] theorem State.powerFailEnd_spinOk (s : State) : SpinOk s.spin → SpinOk (State.powerFailEnd s).spin := by
  intro h
  simp only [State.powerFailEnd]
  split <;> simp [h]

@[simp] theorem execPowerFail_spinOk (t : Time) (lowNs : Nat) (s : State) : SpinOk s.spin → ∀ u, (execPowerFail t lowNs s) = .next u → SpinOk u.spin := by
  intro h u e
  simp only [execPowerFail, Host.Outcome.next.injEq] at e
  subst e
  have h2 : SpinOk (if within 500 999 lowNs then (s.at t).updRcd fun r => { r with draws := r.draws + 1 } else s.at t).spin := by simp [h]
  generalize (if within 500 999 lowNs then (s.at t).updRcd fun r => { r with draws := r.draws + 1 } else s.at t) = w at h2
  split
  · exact h2
  · have h3 : SpinOk ((w.updPins fun p => { p with pwrfail := true }).updVole fun v => { v with frozen := true }).spin := by simp [h2]
    generalize ((w.updPins fun p => { p with pwrfail := true }).updVole fun v => { v with frozen := true }) = x at h3
    split
    · rw [State.powerFailBegin_spin]; exact h3
    · split
      · exact State.powerFailEnd_spinOk _ h3
      · exact h3

@[simp] theorem execPwrfailDeassert_spinOk (t : Time) (s : State) : SpinOk s.spin → ∀ u, (execPwrfailDeassert t s) = .next u → SpinOk u.spin := by
  intro h u e
  simp only [execPwrfailDeassert, Host.Outcome.next.injEq] at e
  subst e
  (repeat' split) <;> simp_all

end Sys2Proof.Machine
end

