-- ==== Sys2Proof/Laws/KeepSpinCal.lean ====
section
/-! SUPPORT. What the operations of Machine/Cal.lean leave of `spin`. -/

namespace Sys2Proof.Machine

@[simp] theorem State.autoStart_spinOk (s : State) : SpinOk s.spin → SpinOk (State.autoStart s).spin := by
  intro h
  simp only [State.autoStart]
  split <;> simp [h]

@[simp] theorem execGroupMStart_spinOk (t : Time) (s : State) : SpinOk s.spin → ∀ u, (execGroupMStart t s) = .next u → SpinOk u.spin := by
  intro h u e
  simp only [execGroupMStart, Host.Outcome.next.injEq] at e
  subst e
  (repeat' split) <;> simp_all

@[simp] theorem State.beginStep_spin (s : State) (step : Nat) : (State.beginStep s step).spin = s.spin := by
  simp [State.beginStep]

@[simp] theorem execCalStepStart_spin (t : Time) (step : Nat) (h : Head) (b : Beam) (s : State) : ∀ u, (execCalStepStart t step h b s) = .next u → u.spin = s.spin := by
  intro u h
  cases h
  simp

@[simp] theorem State.keepBeam_spin (s : State) (step : Nat) (h : Head) (b : Beam) (m : CalMeasure) : (State.keepBeam s step h b m).spin = s.spin := by
  simp only [State.keepBeam]
  split <;> simp

@[simp] theorem State.keepGains_spin (s : State) (h : Head) (m : CalMeasure) : (State.keepGains s h m).spin = s.spin := by
  simp [State.keepGains]

@[simp] theorem State.stepPasses_spinOk (s : State) (step : Nat) (h : Head) (b : Beam) (m : CalMeasure) : SpinOk s.spin → SpinOk (State.stepPasses s step h b m).spin := by
  intro hs
  unfold State.stepPasses
  dsimp only
  have h1 : SpinOk ((s.setUnit step h b .passed).updCal fun c => { c with changed := true }).spin := by simp [hs]
  generalize ((s.setUnit step h b .passed).updCal fun c => { c with changed := true }) = w at h1
  split
  · simp [h1]
  · exact spinOk_ite _ _ _ (by simp [h1]) h1
  · exact spinOk_ite _ _ _ (State.autoStart_spinOk _ h1) h1
  · exact h1

@[simp] theorem State.stepFails_spinOk (s : State) (step : Nat) (h : Head) (b : Beam) (m : CalMeasure) : SpinOk s.spin → SpinOk (State.stepFails s step h b m).spin := by
  intro hs
  unfold State.stepFails
  dsimp only
  have h1 : SpinOk (s.setUnit step h b .discarded).spin := by simp [hs]
  generalize (s.setUnit step h b .discarded) = w at h1
  split
  · simp [h1]
  · exact spinOk_ite _ _ _ (by simp [h1]) (by simp [h1])
  · exact spinOk_ite _ _ _ (State.lockOut_spinOk _ h1) h1
  · exact h1

@[simp] theorem State.settleCalibrate_spin (s : State) (step : Nat) (h : Head) (b : Beam) : (State.settleCalibrate s step h b).spin = s.spin := by
  simp only [State.settleCalibrate]
  split <;> simp

@[simp] theorem execCalStepEnd_spinOk (t : Time) (step : Nat) (h : Head) (b : Beam) (m : CalMeasure) (s : State) : SpinOk s.spin → ∀ u, (execCalStepEnd t step h b m s) = .next u → SpinOk u.spin := by
  intro hs u e
  simp only [execCalStepEnd, Host.Outcome.next.injEq] at e
  subst e
  have h1 : SpinOk (s.at t).spin := by simp [hs]
  generalize s.at t = w at h1
  refine spinOk_ite _ _ _ ?_ h1
  simp only [State.followBringup_spin, State.settleCalibrate_spin]
  exact spinOk_ite _ _ _ (State.stepFails_spinOk _ _ _ _ _ h1) (State.stepPasses_spinOk _ _ _ _ _ h1)

@[simp] theorem execCalPreconditionLost_spin (t : Time) (step : Nat) (h : Head) (b : Beam) (mask : Word) (s : State) : ∀ u, (execCalPreconditionLost t step h b mask s) = .next u → u.spin = s.spin := by
  intro u h
  simp only [execCalPreconditionLost] at h
  cases h
  (repeat' split) <;> simp

end Sys2Proof.Machine
end

