-- ==== Sys2Proof/Laws/KeepSpinPace.lean ====
section
/-! SUPPORT. What the operations of Machine/Pace.lean leave of `spin`. -/

namespace Sys2Proof.Machine

@[simp] theorem State.paceLow_spin (s : State) (i : Fin 6) (p : Nat) : (State.paceLow s i p).spin = s.spin := by
  simp [State.paceLow]

@[simp] theorem State.paceFault_spin (s : State) (i : Fin 6) (p : Nat) : (State.paceFault s i p).spin = s.spin := by
  simp [State.paceFault]

@[simp] theorem State.paceRead_spin (s : State) (i : Fin 6) (p : Nat) : (State.paceRead s i p).spin = s.spin := by
  simp [State.paceRead]

@[simp] theorem execPaceWindow_spin (t : Time) (counts : List Nat) (s : State) : ∀ u, (execPaceWindow t counts s) = .next u → u.spin = s.spin := by
  intro u h
  cases h
  simp

@[simp] theorem execPaceTick_spin (t : Time) (s : State) : ∀ u, (execPaceTick t s) = .next u → u.spin = s.spin := by
  intro u h
  cases h
  simp

@[simp] theorem State.lostItems_spinOk (s : State) (n : Nat) (items : Nat) : SpinOk s.spin → SpinOk (State.lostItems s n items).spin := by
  intro h
  unfold State.lostItems
  split
  · exact h
  · split
    · dsimp only
      refine spinOk_foldl _ _ _ (fun u x hu => ?_) h
      simp [hu]
    · split
      · exact spinOk_foldl _ _ _ (fun u x hu => State.putSample_spinOk _ _ _ hu) h
      · refine spinOk_ite _ _ _ ?_ (spinOk_ite _ _ _ ?_ (spinOk_ite _ _ _ (spinOk_ite _ _ _ ?_ h) h)) <;> simp [h]

@[simp] theorem execPeerResetAssert_spinOk (t : Time) (bridge : Nat) (side : Side) (items : Nat) (planned : Bool) (s : State) : SpinOk s.spin → ∀ u, (execPeerResetAssert t bridge side items planned s) = .next u → SpinOk u.spin := by
  intro h u e
  simp only [execPeerResetAssert, Host.Outcome.next.injEq] at e
  subst e
  (repeat' split) <;> simp [h]

@[simp] theorem execPeerResetDeassert_spin (t : Time) (bridge : Nat) (side : Side) (s : State) : ∀ u, (execPeerResetDeassert t bridge side s) = .next u → u.spin = s.spin := by
  intro u h
  cases h
  simp

@[simp] theorem execBridgeOverflow_spinOk (t : Time) (bridge : Nat) (s : State) : SpinOk s.spin → ∀ u, (execBridgeOverflow t bridge s) = .next u → SpinOk u.spin := by
  intro h u e
  simp only [execBridgeOverflow, Host.Outcome.next.injEq] at e
  subst e
  (repeat' split) <;> simp [h]

@[simp] theorem State.islandLost_spinOk (s : State) (i : Island) : SpinOk s.spin → SpinOk (State.islandLost s i).spin := by
  intro h
  simp only [State.islandLost]
  split <;> simp [h]

@[simp] theorem execPllLockLoss_spinOk (t : Time) (island : Island) (s : State) : SpinOk s.spin → ∀ u, (execPllLockLoss t island s) = .next u → SpinOk u.spin := by
  intro h u e
  cases e
  have ht : SpinOk (s.at t).spin := by rw [State.at_spin]; exact h
  exact spinOk_ite _ _ _ ht (State.islandLost_spinOk _ _ (spinOk_foldl _ _ _ (fun _ _ hu => hu) ht))

@[simp] theorem execPllRelock_spin (t : Time) (island : Island) (s : State) : ∀ u, (execPllRelock t island s) = .next u → u.spin = s.spin := by
  intro u h
  cases h
  simp

end Sys2Proof.Machine
end

