-- ==== Sys2Proof/Laws/KeepSpinDrey.lean ====
section
/-! SUPPORT. What the operations of Machine/Drey.lean leave of `spin`. -/

namespace Sys2Proof.Machine

@[simp] theorem State.countSymbol_spin (s : State) (d : Nat) : (State.countSymbol s d).spin = s.spin := (rfl)

@[simp] theorem State.countBurst_spin (s : State) (burst : Nat) (d : Nat) : (State.countBurst s burst d).spin = s.spin := by
  simp [State.countBurst]

@[simp] theorem State.readBurst_spin (s : State) (burst : Nat) (beats : List (List (BitVec 4))) (newer : Bool) : (State.readBurst s burst beats newer).spin = s.spin := by
  simp only [State.readBurst]
  (repeat' split) <;> simp

@[simp] theorem execDdr5ReadCorrected_spin (t : Time) (burst : Nat) (beats : List (List (BitVec 4))) (newer : Bool) (s : State) : ∀ u, (execDdr5ReadCorrected t burst beats newer s) = .next u → u.spin = s.spin := by
  intro u h
  simp only [execDdr5ReadCorrected] at h
  (repeat' split at h) <;> (first | cases h | skip) <;> (try simp) <;> simp_all

@[simp] theorem State.endLostAppends_spin (s : State) (clip : Word) (number : Nat) : (State.endLostAppends s clip number).spin = s.spin := by
  simp [State.endLostAppends]

@[simp] theorem State.stopClipAt_spin (s : State) (clip : Word) (number : Nat) : (State.stopClipAt s clip number).spin = s.spin := by
  simp only [State.stopClipAt]
  (repeat' split) <;> simp

@[simp] theorem State.damageFrame_spin (s : State) (clip : Word) (number : Nat) : (State.damageFrame s clip number).spin = s.spin := by
  simp [State.damageFrame]

@[simp] theorem State.damageReview_spin (s : State) (fn : FnId) (q : QId) (cid : BitVec 16) (lsn : Nat) (twice : Bool) : (State.damageReview s fn q cid lsn twice).spin = s.spin := by
  simp only [State.damageReview]
  (repeat' split) <;> simp

@[simp] theorem State.dropFetchedOne_spin (s : State) (f : Fetched) : (State.dropFetchedOne s f).spin = s.spin := by
  simp [State.dropFetchedOne]

@[simp] theorem State.damageSide_spin (s : State) (fn : FnId) (q : QId) (cid : BitVec 16) (offset : Nat) (clip : Word) (frame : Word) (stream : Word) : (State.damageSide s fn q cid offset clip frame stream).spin = s.spin := by
  simp only [State.damageSide]
  split <;> simp

@[simp] theorem execDdr5Uncorrectable_spin (t : Time) (burst : Nat) (region : DreyRegion) (s : State) : ∀ u, (execDdr5Uncorrectable t burst region s) = .next u → u.spin = s.spin := by
  intro u h
  simp only [execDdr5Uncorrectable] at h
  (repeat' split at h) <;> (first | cases h | skip) <;> (try simp) <;> simp_all

@[simp] theorem execScrubRead_spin (t : Time) (beats : List (List (BitVec 4))) (newer : Bool) (s : State) : ∀ u, (execScrubRead t beats newer s) = .next u → u.spin = s.spin := by
  intro u h
  cases h
  simp

end Sys2Proof.Machine
end

