-- ==== Sys2Proof/Laws/KeepSpinCache.lean ====
section
/-! SUPPORT. What the operations of Machine/Cache.lean leave of `spin`. -/

namespace Sys2Proof.Machine

@[simp] theorem State.cacheAccess_spin (s : State) (a : Nat) (r : VolRecord) (write : Bool) : (State.cacheAccess s a r write).spin = s.spin := by
  simp [State.cacheAccess]

@[simp] theorem execCacheFillComplete_spin (t : Time) (s : State) : ∀ u, (execCacheFillComplete t s) = .next u → u.spin = s.spin := by
  intro u h
  simp only [execCacheFillComplete] at h
  cases h
  (repeat' split) <;> simp

@[simp] theorem execEvictionWriteback_spin (t : Time) (s : State) : ∀ u, (execEvictionWriteback t s) = .next u → u.spin = s.spin := by
  intro u h
  simp only [execEvictionWriteback] at h
  cases h
  (repeat' split) <;> simp

@[simp] theorem State.rebuildLine_spin (s : State) (line : Nat) : (State.rebuildLine s line).spin = s.spin := by
  simp [State.rebuildLine]

@[simp] theorem State.cacheParity_spin (s : State) (site : CacheSite) : (State.cacheParity s site).spin = s.spin := by
  simp only [State.cacheParity]
  (repeat' split) <;> simp

@[simp] theorem execCacheParityError_spin (t : Time) (site : CacheSite) (byte : Byte) (parity : Bool) (s : State) : ∀ u, (execCacheParityError t site byte parity s) = .next u → u.spin = s.spin := by
  intro u h
  simp only [execCacheParityError] at h
  cases h
  (repeat' split) <;> simp

end Sys2Proof.Machine
end

