-- ==== Sys2Proof/Laws/KeepSpinSync.lean ====
section
/-! SUPPORT. What the operations of Machine/Sync.lean leave of `spin`. -/

namespace Sys2Proof.Machine

@[simp] theorem execExcursionStart_spin (t : Time) (s : State) : ∀ u, (execExcursionStart t s) = .next u → u.spin = s.spin := by
  intro u h
  cases h
  simp

@[simp] theorem execExcursionEnd_spin (t : Time) (s : State) : ∀ u, (execExcursionEnd t s) = .next u → u.spin = s.spin := by
  intro u h
  cases h
  simp

@[simp] theorem State.phaseSample_spinOk (s : State) (angle : Nat) : SpinOk s.spin → SpinOk (State.phaseSample s angle).spin := by
  intro hs
  unfold State.phaseSample
  dsimp only
  have h1 : SpinOk (s.updLoop fun e => { e with expectedAngle := (s.loop.expectedAngle + s.loop.phaseStep.toNat) % angleTurn }).spin := by simp [hs]
  generalize (s.updLoop fun e => { e with expectedAngle := (s.loop.expectedAngle + s.loop.phaseStep.toNat) % angleTurn }) = w at h1
  refine spinOk_ite _ _ _ h1 (spinOk_ite _ _ _ (by simp [h1]) (State.putSample_spinOk _ _ _ h1))

@[simp] theorem State.phaseEnable_spin (s : State) : (State.phaseEnable s).spin = s.spin := by
  simp [State.phaseEnable]

@[simp] theorem State.acceptFsync_spinOk (s : State) (angle : Nat) : SpinOk s.spin → SpinOk (State.acceptFsync s angle).spin := by
  intro hs
  unfold State.acceptFsync
  rw [State.phaseEnable_spin]
  refine State.phaseSample_spinOk _ _ ?_
  rw [State.updSync_spin]
  exact hs

@[simp] theorem execFsyncEdge_spinOk (t : Time) (highNs : Nat) (angle : Nat) (s : State) : SpinOk s.spin → ∀ u, (execFsyncEdge t highNs angle s) = .next u → SpinOk u.spin := by
  intro hs u e
  simp only [execFsyncEdge, Host.Outcome.next.injEq] at e
  subst e
  have h1 : SpinOk (s.at t).spin := by simp [hs]
  generalize s.at t = w at h1
  refine spinOk_ite _ _ _ h1 (spinOk_ite _ _ _ (State.acceptFsync_spinOk _ _ h1) (by simp [h1]))

@[simp] theorem execLtcFrameDecoded_spin (t : Time) (address : TimeAddress) (bitRate : Nat) (s : State) : ∀ u, (execLtcFrameDecoded t address bitRate s) = .next u → u.spin = s.spin := by
  intro u h
  cases h
  simp

@[simp] theorem execTimecodeLoss_spin (t : Time) (s : State) : ∀ u, (execTimecodeLoss t s) = .next u → u.spin = s.spin := by
  intro u h
  simp only [execTimecodeLoss] at h
  cases h
  (repeat' split) <;> simp

@[simp] theorem State.barRead_spin (s : State) (fn : FnId) (k : State → State) (hk : ∀ u, (k u).spin = u.spin) : (State.barRead s fn k).spin = s.spin := by
  simp only [State.barRead]
  (repeat' split) <;> simp_all

@[simp] theorem State.answer_spin (s : State) (fn : FnId) (off : Nat) (v : Word) : (State.answer s fn off v).spin = s.spin := (rfl)

@[simp] theorem State.read32_spin (s : State) (fn : FnId) (off : Nat) : (State.read32 s fn off).spin = s.spin := (rfl)

@[simp] theorem execCommitPointRead32_spin (t : Time) (fn : FnId) (s : State) : ∀ u, (execCommitPointRead32 t fn s) = .next u → u.spin = s.spin := by
  intro u h
  cases h
  simp

@[simp] theorem execDeficitRead32_spin (t : Time) (fn : FnId) (s : State) : ∀ u, (execDeficitRead32 t fn s) = .next u → u.spin = s.spin := by
  intro u h
  cases h
  simp

@[simp] theorem execCapturedFieldRead_spin (t : Time) (fn : FnId) (offset : Nat) (s : State) : ∀ u, (execCapturedFieldRead t fn offset s) = .next u → u.spin = s.spin := by
  intro u h
  cases h
  simp

@[simp] theorem State.clearEvents_spin (s : State) (fn : FnId) (value : Word) : (State.clearEvents s fn value).spin = s.spin := (rfl)

@[simp] theorem execEventPendingClear_spin (t : Time) (fn : FnId) (value : Word) (s : State) : ∀ u, (execEventPendingClear t fn value s) = .next u → u.spin = s.spin := by
  intro u h
  cases h
  simp

@[simp] theorem State.writeQueueReg_spin (s : State) (fn : FnId) (q : QId) (off : Nat) (v : Word) : (State.writeQueueReg s fn q off v).spin = s.spin := by
  simp only [State.writeQueueReg]
  split <;> simp

@[simp] theorem State.writeWeights_spin (s : State) (fn : FnId) (v : Word) : (State.writeWeights s fn v).spin = s.spin := by
  simp [State.writeWeights]

@[simp] theorem State.writeBar0_spin (s : State) (fn : FnId) (off : Nat) (v : Word) : (State.writeBar0 s fn off v).spin = s.spin := by
  simp [State.writeBar0]

@[simp] theorem State.writeBar2_spin (s : State) (fn : FnId) (off : Nat) (v : Word) : (State.writeBar2 s fn off v).spin = s.spin := by
  simp [State.writeBar2]

@[simp] theorem State.writeLoop_spin (s : State) (off : Nat) (v : Word) : (State.writeLoop s off v).spin = s.spin := by
  simp [State.writeLoop]

@[simp] theorem execRegisterWrite_spin (t : Time) (space : RegSpace) (offset : Nat) (value : Word) (s : State) : ∀ u, (execRegisterWrite t space offset value s) = .next u → u.spin = s.spin := by
  intro u h
  simp only [execRegisterWrite] at h
  (repeat' split at h) <;> (first | cases h | skip) <;> (try simp) <;> simp_all

end Sys2Proof.Machine
end

