-- ==== Sys2Proof/Laws/KeepSpinVole.lean ====
section
/-! SUPPORT. What the operations of Machine/Vole.lean leave of `spin`. -/

namespace Sys2Proof.Machine

@[simp] theorem State.takeReading_spin (s : State) (i : Fin 25) (r : SensorReading) : (State.takeReading s i r).spin = s.spin := by
  simp only [State.takeReading]
  split <;> simp

@[simp] theorem State.clearFails_spin (s : State) (a : BitVec 7) : (State.clearFails s a).spin = s.spin := (rfl)

@[simp] theorem State.watchIo_spinOk (s : State) (fallen : Bool) : SpinOk s.spin → SpinOk (State.watchIo s fallen).spin := by
  intro h
  exact spinOk_ite _ _ _ (State.openChains_spinOk _ _ h) h

@[simp] theorem execSensorSample_spinOk (t : Time) (reading : SensorReading) (s : State) : SpinOk s.spin → ∀ u, (execSensorSample t reading s) = .next u → SpinOk u.spin := by
  intro h u e
  simp only [execSensorSample, Host.Outcome.next.injEq] at e
  subst e
  (repeat' split) <;> simp [h]

@[simp] theorem execLogProgram_spin (t : Time) (ok : Bool) (s : State) : ∀ u, (execLogProgram t ok s) = .next u → u.spin = s.spin := by
  intro u h
  simp only [execLogProgram] at h
  cases h
  (repeat' split) <;> simp

@[simp] theorem execLogWindowEnd_spin (t : Time) (s : State) : ∀ u, (execLogWindowEnd t s) = .next u → u.spin = s.spin := by
  intro u h
  cases h
  simp

@[simp] theorem State.i2cWrite_spin (s : State) (off : Nat) : ∀ l, (State.i2cWrite s off l).spin = s.spin := by
  intro l
  induction l generalizing s off with
  | nil => rfl
  | cons x l ih =>
    unfold State.i2cWrite
    split
    · rw [ih]; simp
    · rfl

@[simp] theorem execI2cPointerWrite_spin (t : Time) (data : List Byte) (s : State) : ∀ u, (execI2cPointerWrite t data s) = .next u → u.spin = s.spin := by
  intro u h
  simp only [execI2cPointerWrite] at h
  cases h
  (repeat' split) <;> simp

@[simp] theorem execLogPtrWrite_spin (t : Time) (value : DWord) (s : State) : ∀ u, (execLogPtrWrite t value s) = .next u → u.spin = s.spin := by
  intro u h
  cases h
  simp

@[simp] theorem execLogRecordReadEnd_spin (t : Time) (s : State) : ∀ u, (execLogRecordReadEnd t s) = .next u → u.spin = s.spin := by
  intro u h
  cases h
  simp

@[simp] theorem State.countI2cFail_spin (s : State) (a : BitVec 7) : (State.countI2cFail s a).spin = s.spin := by
  simp [State.countI2cFail]

@[simp] theorem execI2cTransactionTimeout_spin (t : Time) (address : BitVec 7) (s : State) : ∀ u, (execI2cTransactionTimeout t address s) = .next u → u.spin = s.spin := by
  intro u h
  cases h
  simp

@[simp] theorem execI2cAddressRetry_spin (t : Time) (address : BitVec 7) (ok : Bool) (s : State) : ∀ u, (execI2cAddressRetry t address ok s) = .next u → u.spin = s.spin := by
  intro u h
  cases h
  simp

@[simp] theorem State.setBaud_spin (s : State) (payload : List Byte) : (State.setBaud s payload).spin = s.spin := by
  simp [State.setBaud]

@[simp] theorem execUartBaud_spin (t : Time) (payload : List Byte) (s : State) : ∀ u, (execUartBaud t payload s) = .next u → u.spin = s.spin := by
  intro u h
  cases h
  simp

@[simp] theorem State.collectArchive_spin (s : State) (payload : List Byte) : (State.collectArchive s payload).spin = s.spin := by
  simp [State.collectArchive]

@[simp] theorem execArchiveWrite_spin (t : Time) (payload : List Byte) (s : State) : ∀ u, (execArchiveWrite t payload s) = .next u → u.spin = s.spin := by
  intro u h
  cases h
  simp

@[simp] theorem State.commitArchive_spin (s : State) (flashOk : Bool) : (State.commitArchive s flashOk).spin = s.spin := by
  simp [State.commitArchive]

@[simp] theorem execArchiveCommit_spin (t : Time) (flashOk : Bool) (s : State) : ∀ u, (execArchiveCommit t flashOk s) = .next u → u.spin = s.spin := by
  intro u h
  cases h
  simp

@[simp] theorem execLogRead_spin (t : Time) (payload : List Byte) (s : State) : ∀ u, (execLogRead t payload s) = .next u → u.spin = s.spin := by
  intro u h
  cases h
  simp

@[simp] theorem execUartBadFrame_spin (t : Time) (crcFailed : Bool) (s : State) : ∀ u, (execUartBadFrame t crcFailed s) = .next u → u.spin = s.spin := by
  intro u h
  cases h
  simp

@[simp] theorem execUartFrameGap_spin (t : Time) (s : State) : ∀ u, (execUartFrameGap t s) = .next u → u.spin = s.spin := by
  intro u h
  cases h
  simp

end Sys2Proof.Machine
end

