-- ==== Sys2Proof/Laws/KeepSpinMounting.lean ====
section
/-! SUPPORT. What the operations of Machine/Mounting.lean leave of `spin`. -/

namespace Sys2Proof.Machine

@[simp] theorem State.runAt_spinOk (s : State) (rpm : Nat) : SpinOk s.spin → SpinOk (State.runAt s rpm).spin := by
  intro h
  simp [State.runAt, h]

@[simp] theorem State.wakeSpindle_spinOk (s : State) : SpinOk s.spin → SpinOk (State.wakeSpindle s).spin := by
  intro h
  simp only [State.wakeSpindle]
  split <;> simp [h]

@[simp] theorem State.closeAtMount_spin (s : State) (m : MountScan) (i : Nat) (rw : Bool) : (State.closeAtMount s m i rw).spin = s.spin := by
  simp only [State.closeAtMount]
  split <;> simp

@[simp] theorem State.logCutClips_spin (s : State) (m : MountScan) : (State.logCutClips s m).spin = s.spin := by
  simp only [State.logCutClips]
  split
  · rfl
  · split
    · rfl
    · rw [keepFold_spin]
      · split <;> simp
      · intro u x
        split
        · split
          · split <;> simp
          · rfl
        · rfl

@[simp] theorem State.loadMagazine_spin (s : State) (m : MountScan) (mode : MountMode) (slot : Nat) (keys : Nat) (session : Nat) (counter : Nat) (identity : List Byte) (key : List Byte) : (State.loadMagazine s m mode slot keys session counter identity key).spin = s.spin := by
  simp [State.loadMagazine]

@[simp] theorem State.startSession_spin (s : State) : (State.startSession s).spin = s.spin := by
  simp only [State.startSession, State.stopRecording_spin]
  generalize hw : (State.updMnt _ _) = w
  have h1 : w.spin = s.spin := by subst hw; simp
  cases hp : w.placeSystem ((s.resume).firstHead.getD .a) (.sessionStart s.mnt.nextSys) (sectorPad (le 4 s.mnt.session ++ le 8 s.mnt.counter ++ s.mnt.identity)) with
  | none => simp [h1]
  | some v => simpa [h1] using State.placeSystem_spin _ _ _ _ _ hp

@[simp] theorem State.mountRW_spin (s : State) (m : MountScan) (r : Running) (slot : Nat) (keys : Nat) (identity : List Byte) (key : List Byte) : (State.mountRW s m r slot keys identity key).spin = s.spin := by
  simp [State.mountRW]

@[simp] theorem State.mountRO_spin (s : State) (m : MountScan) (r : Running) (slot : Nat) (keys : Nat) (identity : List Byte) (key : List Byte) (st : Status) : (State.mountRO s m r slot keys identity key st).spin = s.spin := by
  simp [State.mountRO]

@[simp] theorem State.ruleBlank_spin (s : State) (r : Running) : ∀ z, s.spin = z → (State.ruleBlank s r).after State.spin z = z := by
  intro z h
  simp only [State.ruleBlank]
  (repeat' split) <;> simp_all

@[simp] theorem State.ruleWritten_spin (s : State) (m : MountScan) (r : Running) (band : List Byte) : ∀ z, s.spin = z → (State.ruleWritten s m r band).after State.spin z = z := by
  intro z h
  simp only [State.ruleWritten]
  (repeat' split) <;> simp_all

@[simp] theorem State.ruleMount_spin (s : State) (m : MountScan) (r : Running) : ∀ z, s.spin = z → (State.ruleMount s m r).after State.spin z = z := by
  intro z h
  simp only [State.ruleMount]
  (repeat' split) <;> simp_all

end Sys2Proof.Machine
end

