-- ==== Sys2Proof/Laws/KeepSpinOwn.lean ====
section
/-! SUPPORT. What the operations of Machine/Own.lean leave of `spin`. -/

namespace Sys2Proof.Machine

@[simp] theorem State.done_spin (s : State) (f : Fetched) (v : Nat) : ∀ z, s.spin = z → (State.done s f v).after State.spin z = z := by
  intro z h
  simp [State.done, h]

@[simp] theorem State.doneWith_spin (s : State) (f : Fetched) (v : Nat) (data : List Byte) : ∀ z, s.spin = z → (State.doneWith s f v data).after State.spin z = z := by
  intro z h
  simp [State.doneWith, h]

@[simp] theorem State.conflict_spin (s : State) : ∀ z, s.spin = z → (State.conflict s).after State.spin z = z := by
  intro z h
  simp [State.conflict, h]

@[simp] theorem State.ruleIdentify_spin (s : State) (f : Fetched) : ∀ z, s.spin = z → (State.ruleIdentify s f).after State.spin z = z := by
  intro z h
  simp [State.ruleIdentify, h]

@[simp] theorem State.ruleGetPage_spin (s : State) (f : Fetched) : ∀ z, s.spin = z → (State.ruleGetPage s f).after State.spin z = z := by
  intro z h
  simp [State.ruleGetPage, h]

@[simp] theorem State.ruleGetParam_spin (s : State) (f : Fetched) : ∀ z, s.spin = z → (State.ruleGetParam s f).after State.spin z = z := by
  intro z h
  simp [State.ruleGetParam, h]

@[simp] theorem State.ruleSetParam_spin (s : State) (f : Fetched) : ∀ z, s.spin = z → (State.ruleSetParam s f).after State.spin z = z := by
  intro z h
  simp [State.ruleSetParam, h]

@[simp] theorem State.ruleKeyLoad_spin (s : State) (f : Fetched) (c : Call) : ∀ z, s.spin = z → (State.ruleKeyLoad s f c).after State.spin z = z := by
  intro z h
  unfold State.ruleKeyLoad
  refine Ruling.after_withData _ _ _ _ fun x => ?_
  split
  · rfl
  · simp [State.done, h]

@[simp] theorem State.ruleKeyPurge_spin (s : State) (f : Fetched) : ∀ z, s.spin = z → (State.ruleKeyPurge s f).after State.spin z = z := by
  intro z h
  simp [State.ruleKeyPurge, h]

@[simp] theorem State.ruleMountOp_spinOk (s : State) (f : Fetched) (c : Call) : SpinOk s.spin → (State.ruleMountOp s f c).after (fun u => SpinOk u.spin) True := by
  intro h
  unfold State.ruleMountOp
  refine spinOk_rite _ _ _ h (spinOk_rite _ _ _ ?_ ?_)
  · exact State.runAt_spinOk _ _ h
  · exact spinOk_after _ _ (State.ruleMount_spin s _ _ _ rfl) h

@[simp] theorem State.ruleUnmount_spinOk (s : State) (f : Fetched) : SpinOk s.spin → (State.ruleUnmount s f).after (fun u => SpinOk u.spin) True := by
  intro h
  refine State.beginUnmount_spinOk _ _ ?_
  exact spinOk_ite _ _ _ (State.wakeSpindle_spinOk _ h) h

@[simp] theorem State.unsustainable_spin (s : State) (p : Profile) : ∀ z, s.spin = z → (State.unsustainable s p).after State.spin z = z := by
  intro z h
  simp [State.unsustainable, h]

@[simp] theorem State.dropDeepPending_spin (s : State) : (State.dropDeepPending s).spin = s.spin := by
  simp only [State.dropDeepPending]
  split <;> simp

@[simp] theorem State.openProfile_spin (s : State) (p : Profile) : (State.openProfile s p).spin = s.spin := by
  simp [State.openProfile]

@[simp] theorem State.ruleClipOpen_spinOk (s : State) (f : Fetched) (c : Call) : SpinOk s.spin → (State.ruleClipOpen s f c).after (fun u => SpinOk u.spin) True := by
  intro h
  unfold State.ruleClipOpen
  refine spinOk_rite _ _ _ trivial (spinOk_rite _ _ _ (State.runAt_spinOk _ _ h) (spinOk_rite _ _ _ h ?_))
  refine spinOk_withData _ _ fun x => ?_
  exact spinOk_after _ s.spin (State.done_spin _ _ _ _ (State.openProfile_spin s _)) h

@[simp] theorem State.ruleClipClose_spin (s : State) (f : Fetched) (c : Call) : ∀ z, s.spin = z → (State.ruleClipClose s f c).after State.spin z = z := by
  intro z h
  simp only [State.ruleClipClose]
  (repeat' split) <;> simp_all

@[simp] theorem State.slotFor_spin (s : State) (f : Fetched) (bytes : Nat) : ∀ x, (State.slotFor s f bytes) = some x → x.2.spin = s.spin := by
  intro u h
  simp only [State.slotFor] at h
  (repeat' split at h) <;> (try simp at h) <;> grind [State.freeSlot_spin, State.takeSlot_spin]

@[simp] theorem State.startFrame_spin (s : State) (f : Fetched) (k : OpenClip) (slot : Nat) : (State.startFrame s f k slot).spin = s.spin := by
  simp [State.startFrame]

@[simp] theorem State.ruleFrameAppend_spin (s : State) (f : Fetched) (c : Call) : ∀ z, s.spin = z → (State.ruleFrameAppend s f c).after State.spin z = z := by
  intro z h
  unfold State.ruleFrameAppend
  split
  · simp
  · repeat' split
    all_goals first
      | rfl
      | simp [h]
    next slot s1 he =>
      have := State.slotFor_spin _ _ _ _ he
      simp_all

@[simp] theorem State.ruleAuxAppend_spinOk (s : State) (f : Fetched) (c : Call) : SpinOk s.spin → (State.ruleAuxAppend s f c).after (fun u => SpinOk u.spin) True := by
  intro h
  simp [State.ruleAuxAppend, h]

@[simp] theorem State.ruleLsns_spinOk (s : State) (r : Running) : SpinOk s.spin → (State.ruleLsns s r).after (fun u => SpinOk u.spin) True := by
  intro h
  have read : ∀ u : State, SpinOk u.spin → SpinOk (u.startRead r).spin := fun u hu => by
    rw [State.startRead_spin]; exact hu
  unfold State.ruleLsns
  exact spinOk_rite _ _ _ (read _ h) (spinOk_rite _ _ _ trivial
    (spinOk_rite _ _ _ h (read _ (State.wakeSpindle_spinOk _ h))))

@[simp] theorem State.ruleRead_spinOk (s : State) (f : Fetched) : SpinOk s.spin → (State.ruleRead s f).after (fun u => SpinOk u.spin) True := by
  intro h
  unfold State.ruleRead
  dsimp only
  split
  · trivial
  · exact spinOk_rite _ _ _ trivial (State.ruleLsns_spinOk _ _ h)

@[simp] theorem State.readSlot_spin (s : State) (f : Fetched) (fr : Frame) : ∀ z, s.spin = z → (State.readSlot s f fr).after State.spin z = z := by
  intro z h
  simp [State.readSlot, h]

@[simp] theorem State.reviewFor_spin (s : State) (f : Fetched) : (State.reviewFor s f).2.spin = s.spin := by
  unfold State.reviewFor
  split
  · rfl
  · cases he : s.takeReview f.org.fn ((f.entry.length.toNat + 32767) / 32768) with
    | none => rfl
    | some x => exact State.takeReview_spin _ _ _ _ he

@[simp] theorem State.readFrame_spinOk (s : State) (f : Fetched) (bytes : Nat) (first : Nat) : SpinOk s.spin → (State.readFrame s f bytes first).after (fun u => SpinOk u.spin) True := by
  intro h
  unfold State.readFrame
  dsimp only
  split
  · trivial
  · next hr =>
    generalize hq : ({ (f.run .frameRead) with lsns := _, offset := _, result := _ } : Running) = q
    have h2 := State.ruleLsns_spinOk s q h
    have h3 : SpinOk (s.reviewFor f).2.spin := by rw [State.reviewFor_spin]; exact h
    split
    · exact State.ruleLsns_spinOk _ _ h3
    · exact h2

@[simp] theorem State.ruleFrameRead_spinOk (s : State) (f : Fetched) : SpinOk s.spin → (State.ruleFrameRead s f).after (fun u => SpinOk u.spin) True := by
  intro h
  unfold State.ruleFrameRead
  dsimp only
  refine spinOk_rite _ _ _ h ?_
  split
  · trivial
  · refine spinOk_rite _ _ _ trivial ?_
    split
    · refine spinOk_rite _ _ _ trivial ?_
      split
      · trivial
      · exact spinOk_after _ _ (State.readSlot_spin s _ _ _ rfl) h
    · refine spinOk_rite _ _ _ trivial ?_
      split
      · exact State.readFrame_spinOk _ _ _ _ h
      · trivial

@[simp] theorem State.metaReadFails_spin (s : State) (f : Fetched) (good : List Byte) (x : Status × Nat × Nat) : ∀ z, s.spin = z → (State.metaReadFails s f good x).after State.spin z = z := by
  intro z h
  unfold State.metaReadFails
  show (State.finish _ _ _ _ _ _ _).spin = z
  rw [State.finish_spin]
  split <;> simp [h]

@[simp] theorem State.ruleMetaRead_spin (s : State) (f : Fetched) (c : Call) : ∀ z, s.spin = z → (State.ruleMetaRead s f c).after State.spin z = z := by
  intro z h
  simp only [State.ruleMetaRead]
  (repeat' split) <;> simp_all

@[simp] theorem State.writeRange_spin (s : State) (f : Fetched) (c : Call) (d : List Byte) : ∀ z, s.spin = z → (State.writeRange s f c d).after State.spin z = z := by
  intro z h
  simp only [State.writeRange]
  (repeat' split) <;> simp_all

@[simp] theorem State.ruleMetaWrite_spinOk (s : State) (f : Fetched) (c : Call) : SpinOk s.spin → (State.ruleMetaWrite s f c).after (fun u => SpinOk u.spin) True := by
  intro h
  unfold State.ruleMetaWrite
  refine spinOk_withData _ _ fun x => ?_
  refine spinOk_rite _ _ _ (spinOk_after _ _ (State.writeRange_spin s f c x _ rfl) h) ?_
  refine spinOk_after _ _ (State.done_spin _ _ _ _ rfl) (State.wakeSpindle_spinOk _ ?_)
  simp [h]

@[simp] theorem State.lockBusy_spin (s : State) (l : LockId) : ∀ z, s.spin = z → (State.lockBusy s l).after State.spin z = z := by
  intro z h
  simp [State.lockBusy, h]

@[simp] theorem State.ruleLockAcquire_spin (s : State) (f : Fetched) : ∀ z, s.spin = z → (State.ruleLockAcquire s f).after State.spin z = z := by
  intro z h
  simp [State.ruleLockAcquire, h]

@[simp] theorem State.ruleLockRelease_spin (s : State) (f : Fetched) : ∀ z, s.spin = z → (State.ruleLockRelease s f).after State.spin z = z := by
  intro z h
  simp [State.ruleLockRelease, h]

@[simp] theorem State.ruleLockClear_spin (s : State) (f : Fetched) : ∀ z, s.spin = z → (State.ruleLockClear s f).after State.spin z = z := by
  intro z h
  simp [State.ruleLockClear, h]

@[simp] theorem State.rulePowerState_spin (s : State) (f : Fetched) : ∀ z, s.spin = z → (State.rulePowerState s f).after State.spin z = z := by
  intro z h
  simp only [State.rulePowerState]
  (repeat' split) <;> simp_all

@[simp] theorem State.spindleStopBy_spinOk (s : State) (f : Fetched) : SpinOk s.spin → (State.spindleStopBy s f).after (fun u => SpinOk u.spin) True := by
  intro h
  unfold State.spindleStopBy
  dsimp only
  have h1 : SpinOk ((s.updSpin fun p => { p with lockout := false, firstTrip := none }).updMnt fun m => { m with stoppedByHost := true }).spin := by
    rw [State.updMnt_spin, State.updSpin_spin]
    exact ⟨fun e => (by cases e), h.2⟩
  generalize ((s.updSpin fun p => { p with lockout := false, firstTrip := none }).updMnt fun m => { m with stoppedByHost := true }) = w at h1
  refine spinOk_rite _ _ _ (spinOk_after _ _ (State.done_spin _ _ _ _ rfl) (State.brakeSpindle_spinOk _ h1)) ?_
  exact State.brakeSpindle_spinOk _ ((State.startRunning_spin w _).symm ▸ h1)

@[simp] theorem State.parkForReverse_spin (s : State) : (State.parkForReverse s).spin = s.spin := by
  simp [State.parkForReverse]

@[simp] theorem State.spindleReverse_spinOk (s : State) (f : Fetched) (rpm : Nat) : SpinOk s.spin → (State.spindleReverse s f rpm).after (fun u => SpinOk u.spin) True := by
  intro h
  unfold State.spindleReverse
  dsimp only
  have h1 : SpinOk ((s.parkForReverse.updMnt fun m => { m with stoppedByHost := false }).startRunning f.spindleRun).spin := by simp [h]
  generalize ((s.parkForReverse.updMnt fun m => { m with stoppedByHost := false }).startRunning f.spindleRun) = w at h1
  refine spinOk_rite _ _ _ ?_ ?_
  · exact ⟨h1.1, h1.2⟩
  · have h2 := State.brakeSpindle_spinOk _ h1
    exact ⟨h2.1, h2.2⟩

@[simp] theorem State.spindleForward_spinOk (s : State) (f : Fetched) (rpm : Nat) : SpinOk s.spin → (State.spindleForward s f rpm).after (fun u => SpinOk u.spin) True := by
  intro h
  unfold State.spindleForward
  dsimp only
  have h1 : SpinOk (s.dropScurry.updMnt fun m => { m with stoppedByHost := false }).spin := by simp [h]
  generalize (s.dropScurry.updMnt fun m => { m with stoppedByHost := false }) = w at h1
  have h3 : SpinOk (w.startRunning f.spindleRun).spin := (State.startRunning_spin w _).symm ▸ h1
  refine spinOk_rite _ _ _ ?_ (spinOk_rite _ _ _ (spinOk_after _ _ (State.done_spin _ _ _ _ rfl) h1) ?_)
  · have h2 := State.brakeSpindle_spinOk _ h3
    exact ⟨h2.1, h2.2⟩
  · exact State.runAt_spinOk _ _ h3

@[simp] theorem State.ruleSpindle_spinOk (s : State) (f : Fetched) : SpinOk s.spin → (State.ruleSpindle s f).after (fun u => SpinOk u.spin) True := by
  intro h
  unfold State.ruleSpindle
  dsimp only
  refine spinOk_rite _ _ _ trivial (spinOk_rite _ _ _ (State.spindleStopBy_spinOk _ _ h) (spinOk_rite _ _ _ trivial
    (spinOk_rite _ _ _ (State.spindleReverse_spinOk _ _ _ h) (State.spindleForward_spinOk _ _ _ h))))

@[simp] theorem State.ruleCalibrate_spin (s : State) (f : Fetched) : ∀ z, s.spin = z → (State.ruleCalibrate s f).after State.spin z = z := by
  intro z h
  simp [State.ruleCalibrate, h]

@[simp] theorem State.ruleVerifyCtl_spinOk (s : State) (f : Fetched) : SpinOk s.spin → (State.ruleVerifyCtl s f).after (fun u => SpinOk u.spin) True := by
  intro h
  unfold State.ruleVerifyCtl
  dsimp only
  refine spinOk_rite _ _ _ h (spinOk_after _ _ (State.done_spin _ _ _ _ rfl) ?_)
  rw [State.updRd_spin]
  exact spinOk_ite _ _ _ (State.wakeSpindle_spinOk _ h) h

@[simp] theorem State.ruleFwStage_spin (s : State) (f : Fetched) (c : Call) : ∀ z, s.spin = z → (State.ruleFwStage s f c).after State.spin z = z := by
  intro z h
  simp [State.ruleFwStage, h]

@[simp] theorem State.ruleFwActivate_spin (s : State) (f : Fetched) : ∀ z, s.spin = z → (State.ruleFwActivate s f).after State.spin z = z := by
  intro z h
  simp [State.ruleFwActivate, h]

@[simp] theorem State.ruleAttest_spin (s : State) (f : Fetched) : ∀ z, s.spin = z → (State.ruleAttest s f).after State.spin z = z := by
  intro z h
  simp only [State.ruleAttest]
  (repeat' split) <;> simp_all

@[simp] theorem State.ruleJtagUnlock_spinOk (s : State) (f : Fetched) (c : Call) : SpinOk s.spin → (State.ruleJtagUnlock s f c).after (fun u => SpinOk u.spin) True := by
  intro h
  unfold State.ruleJtagUnlock
  refine spinOk_withData _ _ fun x => ?_
  refine spinOk_rite _ _ _ (spinOk_after _ _ (State.done_spin _ _ _ _ rfl) (State.unlockAt_spinOk _ _ h)) ?_
  show SpinOk _
  simp [h]

end Sys2Proof.Machine
end

