-- ==== Sys2Proof/Laws/KeepSpinCommands.lean ====
section
/-! SUPPORT. What the operations of Machine/Commands.lean leave of `spin`. -/

namespace Sys2Proof.Machine

@[simp] theorem State.ownRule_spinOk (s : State) (d : Deferred) : SpinOk s.spin → (State.ownRule s d).after (fun u => SpinOk u.spin) True := by
  intro h
  unfold State.ownRule
  dsimp only
  split
  · exact spinOk_after _ _ (State.ruleIdentify_spin s _ _ rfl) h
  · exact spinOk_after _ _ (State.ruleGetPage_spin s _ _ rfl) h
  · exact spinOk_after _ _ (State.ruleGetParam_spin s _ _ rfl) h
  · exact spinOk_after _ _ (State.ruleSetParam_spin s _ _ rfl) h
  · exact spinOk_after _ _ (State.ruleKeyLoad_spin s _ _ _ rfl) h
  · exact spinOk_after _ _ (State.ruleKeyPurge_spin s _ _ rfl) h
  · exact State.ruleMountOp_spinOk s _ _ h
  · exact State.ruleUnmount_spinOk s _ h
  · exact State.ruleClipOpen_spinOk s _ _ h
  · exact spinOk_after _ _ (State.ruleClipClose_spin s _ _ _ rfl) h
  · exact spinOk_after _ _ (State.ruleFrameAppend_spin s _ _ _ rfl) h
  · exact State.ruleAuxAppend_spinOk s _ _ h
  · exact State.ruleRead_spinOk s _ h
  · exact State.ruleFrameRead_spinOk s _ h
  · exact spinOk_after _ _ (State.ruleMetaRead_spin s _ _ _ rfl) h
  · exact State.ruleMetaWrite_spinOk s _ _ h
  · exact spinOk_after _ _ (State.ruleLockAcquire_spin s _ _ rfl) h
  · exact spinOk_after _ _ (State.ruleLockRelease_spin s _ _ rfl) h
  · exact spinOk_after _ _ (State.ruleLockClear_spin s _ _ rfl) h
  · exact spinOk_after _ _ (State.rulePowerState_spin s _ _ rfl) h
  · exact State.ruleSpindle_spinOk s _ h
  · exact spinOk_after _ _ (State.ruleCalibrate_spin s _ _ rfl) h
  · exact State.ruleVerifyCtl_spinOk s _ h
  · exact spinOk_after _ _ (State.ruleFwStage_spin s _ _ _ rfl) h
  · exact spinOk_after _ _ (State.ruleFwActivate_spin s _ _ rfl) h
  · exact spinOk_after _ _ (State.ruleAttest_spin s _ _ rfl) h
  · exact State.ruleJtagUnlock_spinOk s _ _ h

@[simp] theorem State.rule_spinOk (s : State) (d : Deferred) : SpinOk s.spin → (State.rule s d).after (fun u => SpinOk u.spin) True := by
  intro h
  unfold State.rule
  split
  · trivial
  · split
    · show SpinOk s.wantRun.spin
      rw [State.wantRun_spin]; exact h
    · exact h
    · split
      · trivial
      · exact State.ownRule_spinOk s d h

@[simp] theorem State.defer_spin (s : State) (d : Deferred) : (State.defer s d).spin = s.spin := (rfl)

@[simp] theorem State.undefer_spin (s : State) (d : Deferred) : (State.undefer s d).spin = s.spin := (rfl)

@[simp] theorem State.settle_spinOk (s : State) (d : Deferred) : SpinOk s.spin → SpinOk (State.settle s d).spin := by
  intro h
  have hr := State.rule_spinOk s d h
  unfold State.settle
  revert hr
  cases s.rule d with
  | wait u r => intro hu; exact hu
  | refuse st v => intro _; dsimp only; rw [State.finish_spin]; exact h
  | apply u => intro hu; exact hu

@[simp] theorem State.recheck_spinOk (s : State) (p : Deferred → Bool) : SpinOk s.spin → SpinOk (State.recheck s p).spin := by
  intro h
  unfold State.recheck
  refine spinOk_foldl _ _ _ (fun u d hu => spinOk_ite _ _ _ (State.settle_spinOk _ _ ?_) hu) h
  exact hu

@[simp] theorem State.drain_spinOk (s : State) : SpinOk s.spin → SpinOk (State.drain s).spin := by
  exact fun h => State.recheck_spinOk _ _ h

@[simp] theorem State.popFront_spin (s : State) (c : Call) (rest : List Fetched) : (State.popFront s c rest).spin = s.spin := (rfl)

@[simp] theorem State.serve_spinOk (s : State) (o : Opcode) (c : Call) : SpinOk s.spin → SpinOk (State.serve s o c).spin := by
  intro h
  unfold State.serve
  split
  · exact h
  · refine spinOk_ite _ _ _ (State.drain_spinOk _ (State.settle_spinOk _ _ ?_)) h
    exact h

@[simp] theorem State.serveAny_spinOk (s : State) (c : Call) : SpinOk s.spin → SpinOk (State.serveAny s c).spin := by
  intro h
  unfold State.serveAny
  split
  · exact h
  · split
    · exact State.serve_spinOk _ _ _ h
    · rw [State.finish_spin]; exact h

@[simp] theorem execIdentify_spinOk (t : Time) (c : Call) (s : State) : SpinOk s.spin → ∀ u, (execIdentify t c s) = .next u → SpinOk u.spin := by
  intro h u e
  cases e
  exact State.serve_spinOk _ _ _ h

@[simp] theorem execGetPage_spinOk (t : Time) (c : Call) (s : State) : SpinOk s.spin → ∀ u, (execGetPage t c s) = .next u → SpinOk u.spin := by
  intro h u e
  cases e
  exact State.serve_spinOk _ _ _ h

@[simp] theorem execGetParam_spinOk (t : Time) (c : Call) (s : State) : SpinOk s.spin → ∀ u, (execGetParam t c s) = .next u → SpinOk u.spin := by
  intro h u e
  cases e
  exact State.serve_spinOk _ _ _ h

@[simp] theorem execSetParam_spinOk (t : Time) (c : Call) (s : State) : SpinOk s.spin → ∀ u, (execSetParam t c s) = .next u → SpinOk u.spin := by
  intro h u e
  cases e
  exact State.serve_spinOk _ _ _ h

@[simp] theorem execKeyLoad_spinOk (t : Time) (c : Call) (s : State) : SpinOk s.spin → ∀ u, (execKeyLoad t c s) = .next u → SpinOk u.spin := by
  intro h u e
  cases e
  exact State.serve_spinOk _ _ _ h

@[simp] theorem execKeyPurge_spinOk (t : Time) (c : Call) (s : State) : SpinOk s.spin → ∀ u, (execKeyPurge t c s) = .next u → SpinOk u.spin := by
  intro h u e
  cases e
  exact State.serve_spinOk _ _ _ h

@[simp] theorem execMount_spinOk (t : Time) (c : Call) (s : State) : SpinOk s.spin → ∀ u, (execMount t c s) = .next u → SpinOk u.spin := by
  intro h u e
  cases e
  exact State.serve_spinOk _ _ _ h

@[simp] theorem execUnmount_spinOk (t : Time) (c : Call) (s : State) : SpinOk s.spin → ∀ u, (execUnmount t c s) = .next u → SpinOk u.spin := by
  intro h u e
  cases e
  exact State.serve_spinOk _ _ _ h

@[simp] theorem execClipOpen_spinOk (t : Time) (c : Call) (s : State) : SpinOk s.spin → ∀ u, (execClipOpen t c s) = .next u → SpinOk u.spin := by
  intro h u e
  cases e
  exact State.serve_spinOk _ _ _ h

@[simp] theorem execClipClose_spinOk (t : Time) (c : Call) (s : State) : SpinOk s.spin → ∀ u, (execClipClose t c s) = .next u → SpinOk u.spin := by
  intro h u e
  cases e
  exact State.serve_spinOk _ _ _ h

@[simp] theorem execFrameAppend_spinOk (t : Time) (c : Call) (s : State) : SpinOk s.spin → ∀ u, (execFrameAppend t c s) = .next u → SpinOk u.spin := by
  intro h u e
  cases e
  exact State.serve_spinOk _ _ _ h

@[simp] theorem execAuxAppend_spinOk (t : Time) (c : Call) (s : State) : SpinOk s.spin → ∀ u, (execAuxAppend t c s) = .next u → SpinOk u.spin := by
  intro h u e
  cases e
  exact State.serve_spinOk _ _ _ h

@[simp] theorem execRead_spinOk (t : Time) (c : Call) (s : State) : SpinOk s.spin → ∀ u, (execRead t c s) = .next u → SpinOk u.spin := by
  intro h u e
  cases e
  exact State.serve_spinOk _ _ _ h

@[simp] theorem execFrameRead_spinOk (t : Time) (c : Call) (s : State) : SpinOk s.spin → ∀ u, (execFrameRead t c s) = .next u → SpinOk u.spin := by
  intro h u e
  cases e
  exact State.serve_spinOk _ _ _ h

@[simp] theorem execMetaRead_spinOk (t : Time) (c : Call) (s : State) : SpinOk s.spin → ∀ u, (execMetaRead t c s) = .next u → SpinOk u.spin := by
  intro h u e
  cases e
  exact State.serve_spinOk _ _ _ h

@[simp] theorem execMetaWrite_spinOk (t : Time) (c : Call) (s : State) : SpinOk s.spin → ∀ u, (execMetaWrite t c s) = .next u → SpinOk u.spin := by
  intro h u e
  cases e
  exact State.serve_spinOk _ _ _ h

@[simp] theorem execLockAcquire_spinOk (t : Time) (c : Call) (s : State) : SpinOk s.spin → ∀ u, (execLockAcquire t c s) = .next u → SpinOk u.spin := by
  intro h u e
  cases e
  exact State.serve_spinOk _ _ _ h

@[simp] theorem execLockRelease_spinOk (t : Time) (c : Call) (s : State) : SpinOk s.spin → ∀ u, (execLockRelease t c s) = .next u → SpinOk u.spin := by
  intro h u e
  cases e
  exact State.serve_spinOk _ _ _ h

@[simp] theorem execLockClearAbandoned_spinOk (t : Time) (c : Call) (s : State) : SpinOk s.spin → ∀ u, (execLockClearAbandoned t c s) = .next u → SpinOk u.spin := by
  intro h u e
  cases e
  exact State.serve_spinOk _ _ _ h

@[simp] theorem execPowerState_spinOk (t : Time) (c : Call) (s : State) : SpinOk s.spin → ∀ u, (execPowerState t c s) = .next u → SpinOk u.spin := by
  intro h u e
  cases e
  exact State.serve_spinOk _ _ _ h

@[simp] theorem execSpindle_spinOk (t : Time) (c : Call) (s : State) : SpinOk s.spin → ∀ u, (execSpindle t c s) = .next u → SpinOk u.spin := by
  intro h u e
  cases e
  exact State.serve_spinOk _ _ _ h

@[simp] theorem execCalibrate_spinOk (t : Time) (c : Call) (s : State) : SpinOk s.spin → ∀ u, (execCalibrate t c s) = .next u → SpinOk u.spin := by
  intro h u e
  cases e
  exact State.serve_spinOk _ _ _ h

@[simp] theorem execVerifyCtl_spinOk (t : Time) (c : Call) (s : State) : SpinOk s.spin → ∀ u, (execVerifyCtl t c s) = .next u → SpinOk u.spin := by
  intro h u e
  cases e
  exact State.serve_spinOk _ _ _ h

@[simp] theorem execFwStage_spinOk (t : Time) (c : Call) (s : State) : SpinOk s.spin → ∀ u, (execFwStage t c s) = .next u → SpinOk u.spin := by
  intro h u e
  cases e
  exact State.serve_spinOk _ _ _ h

@[simp] theorem execFwActivate_spinOk (t : Time) (c : Call) (s : State) : SpinOk s.spin → ∀ u, (execFwActivate t c s) = .next u → SpinOk u.spin := by
  intro h u e
  cases e
  exact State.serve_spinOk _ _ _ h

@[simp] theorem execAttest_spinOk (t : Time) (c : Call) (s : State) : SpinOk s.spin → ∀ u, (execAttest t c s) = .next u → SpinOk u.spin := by
  intro h u e
  cases e
  exact State.serve_spinOk _ _ _ h

@[simp] theorem execJtagUnlock_spinOk (t : Time) (c : Call) (s : State) : SpinOk s.spin → ∀ u, (execJtagUnlock t c s) = .next u → SpinOk u.spin := by
  intro h u e
  cases e
  exact State.serve_spinOk _ _ _ h

@[simp] theorem execUndefinedOpcode_spinOk (t : Time) (c : Call) (s : State) : SpinOk s.spin → ∀ u, (execUndefinedOpcode t c s) = .next u → SpinOk u.spin := by
  intro h u e
  simp only [execUndefinedOpcode, Host.Outcome.next.injEq] at e
  subst e
  exact spinOk_ite _ _ _ (State.serveAny_spinOk _ _ h) h

@[simp] theorem execFenceCommandStart_spinOk (t : Time) (c : Call) (s : State) : SpinOk s.spin → ∀ u, (execFenceCommandStart t c s) = .next u → SpinOk u.spin := by
  intro h u e
  simp only [execFenceCommandStart, Host.Outcome.next.injEq] at e
  subst e
  exact spinOk_ite _ _ _ (State.serveAny_spinOk _ _ h) h

@[simp] theorem State.failAppend_spin (s : State) (r : Running) (st : Status) (v : DWord) : (State.failAppend s r st v).spin = s.spin := by
  unfold State.failAppend
  dsimp only
  rw [State.publish_spin, keepFold_spin, State.endRunning_spin, State.updRcd_spin, State.loseFrames_spin]
  exact fun u x => State.endRunning_spin _ _ _ _ _

@[simp] theorem execDmaReadError_spinOk (t : Time) (c : Call) (s : State) : SpinOk s.spin → ∀ u, (execDmaReadError t c s) = .next u → SpinOk u.spin := by
  intro h u e
  simp only [execDmaReadError, Host.Outcome.next.injEq] at e
  subst e
  have h1 : SpinOk (s.at t).spin := by simp [h]
  generalize s.at t = w at h1
  split
  · refine State.drain_spinOk _ ?_
    rw [State.failAppend_spin]; exact h1
  · exact h1
  · exact spinOk_ite _ _ _ (State.serveAny_spinOk _ _ h1) h1

@[simp] theorem State.resumeOne_spinOk (s : State) (fn : FnId) (q : QId) (cid : BitVec 16) (why : WaitReason) : SpinOk s.spin → SpinOk (State.resumeOne s fn q cid why).spin := by
  intro h
  unfold State.resumeOne
  split
  · exact h
  · exact State.drain_spinOk _ (State.settle_spinOk _ _ h)

@[simp] theorem execOverlapReadResume_spinOk (t : Time) (fn : FnId) (q : QId) (cid : BitVec 16) (s : State) : SpinOk s.spin → ∀ u, (execOverlapReadResume t fn q cid s) = .next u → SpinOk u.spin := by
  intro h u e
  cases e
  exact State.resumeOne_spinOk _ _ _ _ _ h

@[simp] theorem execMountWaitRelease_spinOk (t : Time) (s : State) : SpinOk s.spin → ∀ u, (execMountWaitRelease t s) = .next u → SpinOk u.spin := by
  intro h u e
  simp only [execMountWaitRelease, Host.Outcome.next.injEq] at e
  subst e
  exact spinOk_ite _ _ _ h (State.drain_spinOk _ (State.recheck_spinOk _ _ h))

@[simp] theorem execBringupDeferredStart_spinOk (t : Time) (fn : FnId) (q : QId) (cid : BitVec 16) (s : State) : SpinOk s.spin → ∀ u, (execBringupDeferredStart t fn q cid s) = .next u → SpinOk u.spin := by
  intro h u e
  cases e
  exact State.resumeOne_spinOk _ _ _ _ _ h

@[simp] theorem execMediaCommandRunStart_spinOk (t : Time) (fn : FnId) (q : QId) (cid : BitVec 16) (s : State) : SpinOk s.spin → ∀ u, (execMediaCommandRunStart t fn q cid s) = .next u → SpinOk u.spin := by
  intro h u e
  cases e
  exact State.resumeOne_spinOk _ _ _ _ _ h

@[simp] theorem execClipOpenDeferredStart_spinOk (t : Time) (fn : FnId) (q : QId) (cid : BitVec 16) (s : State) : SpinOk s.spin → ∀ u, (execClipOpenDeferredStart t fn q cid s) = .next u → SpinOk u.spin := by
  intro h u e
  cases e
  exact State.resumeOne_spinOk _ _ _ _ _ h

@[simp] theorem execLockWaitTimeout_spin (t : Time) (lock : LockId) (s : State) : ∀ u, (execLockWaitTimeout t lock s) = .next u → u.spin = s.spin := by
  intro u h
  cases h
  simp

@[simp] theorem State.uartCommand_spinOk (s : State) (payload : List Byte) (scan : MountScan) (mapAddr : BitVec 31) : SpinOk s.spin → SpinOk (State.uartCommand s payload scan mapAddr).spin := by
  intro hs
  have h : ((s.allotSpace 3 (entryOf (payload.take 64)) false).getD (.none, s)).2.spin = s.spin := by
    cases he : s.allotSpace 3 (entryOf (payload.take 64)) false with
    | none => rfl
    | some x => exact State.allotSpace_spin _ _ _ _ _ he
  have h2 : SpinOk ((s.allotSpace 3 (entryOf (payload.take 64)) false).getD (.none, s)).2.spin := by rw [h]; exact hs
  unfold State.uartCommand
  dsimp only
  split
  · rw [State.finish_spin, State.updVole_spin, State.updHost_spin]; exact h2
  · refine State.drain_spinOk _ (State.settle_spinOk _ _ ?_)
    rw [State.updVole_spin, State.updHost_spin]; exact h2

@[simp] theorem execUartCommand_spinOk (t : Time) (payload : List Byte) (scan : MountScan) (mapAddr : BitVec 31) (s : State) : SpinOk s.spin → ∀ u, (execUartCommand t payload scan mapAddr s) = .next u → SpinOk u.spin := by
  intro h u e
  simp only [execUartCommand, Host.Outcome.next.injEq] at e
  subst e
  refine spinOk_ite _ _ _ h (spinOk_ite _ _ _ ?_ (State.uartCommand_spinOk _ _ _ _ h))
  rw [State.uartAnswer_spin]; exact h

end Sys2Proof.Machine
end

