-- ==== Sys2Proof/Laws/KeepSpinSpindle.lean ====
section
/-! SUPPORT. What the operations of Machine/Spindle.lean leave of `spin`. -/

namespace Sys2Proof.Machine

@[simp] theorem State.spindleDone_spin (s : State) (rpm : Nat) : (State.spindleDone s rpm).spin = s.spin := by
  exact State.endAll_spin _ _ _ _

@[simp] theorem State.lockOutAll_spinOk (s : State) : SpinOk s.spin → SpinOk (State.lockOutAll s).spin := by
  intro h
  exact State.drain_spinOk _ (State.lockOut_spinOk _ h)

theorem State.runUp_ok (s : State) (rpm : Nat) (hl : s.spin.lockout = false) : SpinOk (State.runUp s rpm).spin := by
  have e : (State.runUp s rpm).spin.lockout = s.spin.lockout ∧ (State.runUp s rpm).spin.state = 1 := by
    unfold State.runUp
    dsimp only
    rw [State.setSpeedRef_spin, State.reEnable_spin]
    exact ⟨rfl, rfl⟩
  refine ⟨fun x => ?_, ?_⟩
  · rw [e.1, hl] at x; cases x
  · rw [e.2]; decide

@[simp] theorem State.checkKe_spinOk (s : State) (meas : Nat) : SpinOk s.spin → SpinOk (State.checkKe s meas).spin := by
  intro h
  unfold State.checkKe
  dsimp only
  have h1 : SpinOk (s.updSpin fun p => { p with keMeas := meas }).spin := by rw [State.updSpin_spin]; exact ⟨h.1, h.2⟩
  generalize (s.updSpin fun p => { p with keMeas := meas }) = w at h1
  have h2 : SpinOk (match (keCheck meas s.spin.params.keNom).code with
    | some c => w.log c [arg meas, arg s.spin.params.keNom]
    | none => w).spin := by
    split
    · rw [State.log_spin]; exact h1
    · exact h1
  refine spinOk_ite _ _ _ (State.lockOutAll_spinOk _ ?_) h2
  rw [State.updSlot_spin]; exact h2

theorem State.startFailed_ok (s : State) (hl : s.spin.lockout = false) : SpinOk (State.startFailed s).spin := by
  unfold State.startFailed
  dsimp only
  refine spinOk_ite _ _ _ ?_ (State.lockOutAll_spinOk _ ?_)
  · rw [State.updSpin_spin]
    exact ⟨fun x => (by rw [show s.spin.lockout = true from x] at hl; cases hl), (show (1 : Nat) ≤ 6 by decide)⟩
  · rw [State.log_spin, State.updSpin_spin]
    exact ⟨fun x => (by rw [show s.spin.lockout = true from x] at hl; cases hl), by simp⟩

theorem State.startFromRest_ok (s : State) (g : StartSense) (hl : s.spin.lockout = false) : SpinOk (State.startFromRest s g).spin := by
  unfold State.startFromRest
  exact spinOk_ite _ _ _ (State.checkKe_spinOk _ _ (State.runUp_ok _ _ hl)) (State.startFailed_ok _ hl)

theorem State.brakeFirst_ok (s : State) (rpm : Nat) (hl : s.spin.lockout = false) (h : s.spin.state ≤ 6) : SpinOk (State.brakeFirst s rpm).spin := by
  have h1 : SpinOk (s.updSpin fun p => { p with state := if p.state = 0 then 6 else p.state }).spin := by
    rw [State.updSpin_spin]
    refine ⟨fun x => (by rw [show s.spin.lockout = true from x] at hl; cases hl), ?_⟩
    show (if s.spin.state = 0 then 6 else s.spin.state) ≤ 6
    split
    · decide
    · exact h
  have h2 := State.brakeSpindle_spinOk _ h1
  unfold State.brakeFirst
  dsimp only
  rw [State.updSpin_spin]
  exact ⟨h2.1, h2.2⟩

theorem State.startSpindle_ok (s : State) (g : StartSense) (hl : s.spin.lockout = false) (h : s.spin.state ≤ 6) : SpinOk (State.startSpindle s g).spin := by
  unfold State.startSpindle
  split
  · exact State.startFromRest_ok _ _ hl
  · exact spinOk_ite _ _ _ (State.brakeFirst_ok _ _ hl h)
      (spinOk_ite _ _ _ (State.checkKe_spinOk _ _ (State.runUp_ok _ _ hl)) (State.runUp_ok _ _ hl))

theorem State.mayStart_lockout (s : State) (h : s.mayStart = true) : s.spin.lockout = false := by
  unfold State.mayStart at h
  simp at h
  exact h.2

theorem spinOk_driven (p : Spindle) (h : SpinOk p) (hg : p.gates ≠ .off) : p.lockout = false := by
  cases hl : p.lockout with
  | false => rfl
  | true => exact absurd (h.1 hl).1 hg

@[simp] theorem execSpindleStart_spinOk (t : Time) (sense : StartSense) (s : State) : SpinOk s.spin → ∀ u, (execSpindleStart t sense s) = .next u → SpinOk u.spin := by
  intro h u e
  simp only [execSpindleStart, Host.Outcome.next.injEq] at e
  subst e
  have h1 : SpinOk (s.at t).spin := h
  generalize s.at t = w at h1
  split
  · next hc =>
    simp only [Bool.and_eq_true] at hc
    exact State.startSpindle_ok _ _ (State.mayStart_lockout _ hc.1.2) h1.2
  · exact h1

@[simp] theorem execSpindleStartRetry_spinOk (t : Time) (sense : StartSense) (s : State) : SpinOk s.spin → ∀ u, (execSpindleStartRetry t sense s) = .next u → SpinOk u.spin := by
  intro h u e
  simp only [execSpindleStartRetry, Host.Outcome.next.injEq] at e
  subst e
  have h1 : SpinOk (s.at t).spin := h
  generalize s.at t = w at h1
  split
  · next hc =>
    simp only [Bool.and_eq_true] at hc
    exact State.startSpindle_ok _ _ (State.mayStart_lockout _ hc.1.2) h1.2
  · exact h1

@[simp] theorem execSpindleRestart_spinOk (t : Time) (sense : StartSense) (s : State) : SpinOk s.spin → ∀ u, (execSpindleRestart t sense s) = .next u → SpinOk u.spin := by
  intro h u e
  simp only [execSpindleRestart, Host.Outcome.next.injEq] at e
  subst e
  have h1 : SpinOk (s.at t).spin := h
  generalize s.at t = w at h1
  split
  · next hc =>
    simp only [Bool.and_eq_true] at hc
    exact State.startSpindle_ok _ _ (State.mayStart_lockout _ hc.2) h1.2
  · exact h1

@[simp] theorem execSpeedTargetReached_spinOk (t : Time) (s : State) : SpinOk s.spin → ∀ u, (execSpeedTargetReached t s) = .next u → SpinOk u.spin := by
  intro h u e
  simp only [execSpeedTargetReached, Host.Outcome.next.injEq] at e
  subst e
  have h1 : SpinOk (s.at t).spin := h
  generalize s.at t = w at h1
  split
  · next hc =>
    have hl := spinOk_driven _ h1 (by rw [hc.1]; decide)
    refine State.drain_spinOk _ ?_
    rw [State.followBringup_spin, State.spindleDone_spin, State.retune_spin, State.updSpin_spin]
    refine ⟨fun x => (by rw [show w.spin.lockout = true from x] at hl; cases hl), ?_⟩
    show (if w.spin.target = 10800 ∧ (!w.spin.reverse) = true then 3 else 4) ≤ 6
    split <;> decide
  · exact h1

@[simp] theorem execComparatorTrip_spinOk (t : Time) (blanked : Bool) (s : State) : SpinOk s.spin → ∀ u, (execComparatorTrip t blanked s) = .next u → SpinOk u.spin := by
  intro h u e
  simp only [execComparatorTrip, Host.Outcome.next.injEq] at e
  subst e
  exact spinOk_ite _ _ _ h ⟨h.1, h.2⟩

@[simp] theorem execSpindleStall_spinOk (t : Time) (rpm : Nat) (s : State) : SpinOk s.spin → ∀ u, (execSpindleStall t rpm s) = .next u → SpinOk u.spin := by
  intro h u e
  simp only [execSpindleStall, Host.Outcome.next.injEq] at e
  subst e
  refine spinOk_ite _ _ _ (State.drain_spinOk _ (State.spindleDrop_spinOk _ ?_)) h
  rw [State.updSlot_spin, State.log_spin]
  exact ⟨h.1, h.2⟩

@[simp] theorem execSpindleStop_spinOk (t : Time) (s : State) : SpinOk s.spin → ∀ u, (execSpindleStop t s) = .next u → SpinOk u.spin := by
  intro h u e
  simp only [execSpindleStop, Host.Outcome.next.injEq] at e
  subst e
  refine spinOk_ite _ _ _ h ?_
  rw [State.checkGuarantee_spin]
  exact State.brakeSpindle_spinOk _ h

@[simp] theorem execBrakeBelowThreshold_spinOk (t : Time) (s : State) : SpinOk s.spin → ∀ u, (execBrakeBelowThreshold t s) = .next u → SpinOk u.spin := by
  intro h u e
  simp only [execBrakeBelowThreshold, Host.Outcome.next.injEq] at e
  subst e
  have h1 : SpinOk (s.at t).spin := h
  generalize s.at t = w at h1
  split
  · next hc =>
    have hl := spinOk_driven _ h1 (by rw [hc]; decide)
    exact ⟨fun x => (by rw [show w.spin.lockout = true from x] at hl; cases hl), h1.2⟩
  · exact h1

@[simp] theorem State.rest_spinOk (s : State) : SpinOk s.spin → SpinOk (State.rest s).spin := by
  intro h
  unfold State.rest
  dsimp only
  refine State.drain_spinOk _ (State.autoStart_spinOk _ ?_)
  rw [State.spindleDone_spin, State.updSpin_spin]
  have h0 : SpinOk (s.updSpin fun p => { p with state := 0, gates := .off, rpm := 0, wedgeLock := false }).spin :=
    ⟨fun _ => ⟨rfl, Or.inl rfl⟩, Nat.zero_le _⟩
  generalize (s.updSpin fun p => { p with state := 0, gates := .off, rpm := 0, wedgeLock := false }).spin = p at h0
  split
  · exact ⟨h0.1, h0.2⟩
  · exact h0

@[simp] theorem execBrakeHoldEnd_spinOk (t : Time) (s : State) : SpinOk s.spin → ∀ u, (execBrakeHoldEnd t s) = .next u → SpinOk u.spin := by
  intro h u e
  simp only [execBrakeHoldEnd, Host.Outcome.next.injEq] at e
  subst e
  exact spinOk_ite _ _ _ (State.rest_spinOk _ h) h

@[simp] theorem execSpindleBrakeTimeout_spinOk (t : Time) (rpm : Nat) (s : State) : SpinOk s.spin → ∀ u, (execSpindleBrakeTimeout t rpm s) = .next u → SpinOk u.spin := by
  intro h u e
  simp only [execSpindleBrakeTimeout, Host.Outcome.next.injEq] at e
  subst e
  refine spinOk_ite _ _ _ ?_ h
  rw [State.log_spin, State.updSpin_spin]
  have h2 := State.gatesOff_spinOk _ h
  exact ⟨h2.1, h2.2⟩

@[simp] theorem execCoastStopped_spinOk (t : Time) (s : State) : SpinOk s.spin → ∀ u, (execCoastStopped t s) = .next u → SpinOk u.spin := by
  intro h u e
  simp only [execCoastStopped, Host.Outcome.next.injEq] at e
  subst e
  exact spinOk_ite _ _ _ (State.rest_spinOk _ h) h

@[simp] theorem execWedgeLockGained_spinOk (t : Time) (offset : Int) (s : State) : SpinOk s.spin → ∀ u, (execWedgeLockGained t offset s) = .next u → SpinOk u.spin := by
  intro h u e
  simp only [execWedgeLockGained, Host.Outcome.next.injEq] at e
  subst e
  exact spinOk_ite _ _ _ ⟨h.1, h.2⟩ h

@[simp] theorem execWedgeLockLost_spinOk (t : Time) (s : State) : SpinOk s.spin → ∀ u, (execWedgeLockLost t s) = .next u → SpinOk u.spin := by
  intro h u e
  simp only [execWedgeLockLost, Host.Outcome.next.injEq] at e
  subst e
  exact spinOk_ite _ _ _ ⟨h.1, h.2⟩ h

end Sys2Proof.Machine
end

