-- ==== Sys2Proof/Machine/Drive.lean ====
section
/-! DEFINITION. What the part drives, as functions of its state: the laser pulses of a mark (08_write_lanes), the level codes
at the pins (18_balls_supplies), the bridge of the spindle and its gates (11_spindle_sled_moves R407, R408, 18_balls R647)
and the sled reference (R426). No command reads them. -/

namespace Sys2Proof

/-! The write strategy (R296, R297). -/

/-- A write-strategy set (Table 8.2), in T/32. Mark classes are 1T to 4T and 5T or longer, space classes 1T to 3T and 4T or
longer. -/
structure StrategySet where
  dTop : Vector (Vector Int 4) 5
  dEnd : Vector (Vector Int 4) 5
  tTop : Vector Nat 5
  tLast : Nat
  tCool : Nat
deriving DecidableEq, Repr

/-- The class of a mark of `n` channel bits. -/
def markClass (n : Nat) : Fin 5 := Fin.ofNat 5 (min 5 n - 1)

/-- The class of a space of `n` channel bits. -/
def spaceClass (n : Nat) : Fin 4 := Fin.ofNat 4 (min 4 n - 1)

/-- A time of `u` units of T/32 in fine steps of 20.833 ps in a zone at 10,800 rpm, to the nearest with ties up (R297): the
channel rate is D_z × 216,000 bit/s, and a fine step is 1/48 ns. -/
def fineSteps (z : Nat) (u : Int) : Int :=
  let d := 9 * (Machine.fieldBits z : Int)
  (2 * u * 62500 + d) / (2 * d)

/-- The length of a pulse, at least one fine step (R297). -/
def pulseLen (n : Int) : Int := max 1 n

/-- A mark as the generator shapes it (R296): the start of its first pulse against the nominal leading edge, then its
levels with their lengths in fine steps; BIAS follows. `before` and `after` are the spaces beside it. -/
def markPulses (p : StrategySet) (z n before after : Nat) : Int × List (Level × Int) :=
  let m := markClass n
  let f := fineSteps z
  let start := f (p.dTop[m])[spaceClass before]
  let stop := f (32 * n) + f (p.dEnd[m])[spaceClass after]
  let top := pulseLen (f p.tTop[m])
  let last := pulseLen (f p.tLast)
  let cool : List (Level × Int) := if p.tCool = 0 then [] else [(Level.cool, pulseLen (f p.tCool))]
  if n ≤ 3 then (start, (Level.write, pulseLen (stop - start)) :: cool)
  else (start, [(Level.write, top), (Level.mid, stop - start - top - last), (Level.write, last)] ++ cool)

/-- The code of a level on its three pairs (R637, R638, Table 18.4). -/
def Level.code (l : Level) : BitVec 3 :=
  match l with
  | .off => 0
  | .read => 1
  | .cool => 2
  | .bias => 3
  | .mid => 4
  | .write => 5

/-! The bridge (R407, R408). -/

/-- How the bridge is driven for slot 8's output (Table 11.3). -/
inductive Modulation where
  /-- Every low-side gate on for this part of each PWM period, in 1/1,000 (R407). -/
  | brake (duty : Nat)
  | linear
  | overOne
  /-- The vector is held at the nearest hexagon vertex for this angle, in 1/1,000 of a degree. -/
  | overTwo (hold : Nat)
  | sixStep
deriving DecidableEq, Repr

/-- The method for slot 8's output: M is u / 32,767; below 0 the unit brakes with zero vectors (R407, Table 11.3). -/
def modulation (brakeMax : Nat) (u : Int) : Modulation :=
  if u < 0 then .brake (u.natAbs * brakeMax * 10 / 32768)
  else if u * 10000 ≤ 9069 * 32767 then .linear
  else if u * 10000 < 9517 * 32767 then .overOne
  else if u < 32767 then .overTwo ((u * 10000 - 9517 * 32767) * 30000 / (483 * 32767)).toNat
  else .sixStep

/-- What a leg of the bridge is to connect its phase to. -/
inductive LegCommand where
  | off
  | high
  | low
deriving DecidableEq, Repr

/-- The high-side and the low-side gate of one phase, `held` ns after its leg was given a command in place of an earlier one:
a gate turns on only when the other has been off for DEAD_TIME (R647). -/
def phaseGates (deadTime : Nat) (before now : LegCommand) (held : Nat) : Bool × Bool :=
  match now with
  | .off => (false, false)
  | .high => (before != .low || decide (deadTime ≤ held), false)
  | .low => (false, before != .high || decide (deadTime ≤ held))

/-- The legs of the three phases at an active vector V1 to V6 in six-step drive, where each switch is on for 180° electrical
(Table 11.3). -/
def vectorLegs (v : Fin 6) : Vector LegCommand 3 :=
  let leg := fun (phase : Fin 3) => if (v.val + 7 - 2 * phase.val) % 6 < 3 then LegCommand.high else LegCommand.low
  Vector.ofFn leg

/-- Where the electrical angle comes from (R408). -/
inductive AngleSource where
  | forcedSteps
  | zeroCrossings
  | backEmfPll
  | wedges
deriving DecidableEq, Repr

/-- The source of the electrical angle at a speed (R408). -/
def angleSource (rpm : Nat) (wedgeLock : Bool) : AngleSource :=
  if wedgeLock then .wedges else if rpm < 300 then .forcedSteps else if rpm < 1500 then .zeroCrossings else .backEmfPll

/-- The electrical angle from the wedges, in 1/256 of a wedge interval's electrical angle, before LEAD (R408). -/
def wedgeAngle (polePairs index fraction : Nat) (offset : Int) : Int :=
  ((polePairs * (256 * index + fraction) : Nat) + offset) % (256 * 1152)

/-- The phase advance at a speed in 1/8 of a degree (R407, LEAD of Table 11.1). -/
def leadAngle (lead rpm : Nat) : Nat := lead * rpm / 1000

end Sys2Proof

namespace Sys2Proof.Machine

/-- How the bridge is driven now: by the commutation method, by braking, by the low-side gates, or not at all (R407, R415). -/
def State.bridgeMode (s : State) : Option Modulation :=
  match s.spin.gates with
  | .off => none
  | .commutating => some (modulation s.spin.params.brakeMax ((s.slot 8).out.toInt))
  | .braking => some (.brake (10 * s.spin.params.brakeMax))
  | .lowSide => some (.brake 1000)

/-- The legs of the bridge now, `wanted` being what the commutation asks for at the rotor's present angle: low-side braking
for its part of each PWM period, and no high-side gate in a period that holds a comparator trip (R407, R412, R415). -/
def State.legs (s : State) (wanted : Vector LegCommand 3) : Vector LegCommand 3 :=
  let part := s.now * s.spin.params.fPwm % 1000000
  match s.bridgeMode with
  | none => Vector.replicate 3 .off
  | some (.brake duty) => Vector.replicate 3 (if part < 1000 * duty then .low else .off)
  | some _ => wanted.map fun l => if l = .high ∧ s.highSideOff = true then .off else l

/-- The gate outputs of the three phases, high-side and low-side: `before` and `held` tell what each leg was given before and
how long its present command has stood (R647). -/
def State.gateOutputs (s : State) (wanted before : Vector LegCommand 3) (held : Vector Nat 3) : Vector (Bool × Bool) 3 :=
  Vector.ofFn fun i => phaseGates s.spin.params.deadTime before[i] (s.legs wanted)[i] held[i]

/-- Where the sled of a head is to stand, in pm: in FOLLOW the band pitch of R689 in each revolution of 72 samples, and what
the tracking drive has added (R426); at the end of a seek its target. -/
def State.sledReference (s : State) (h : Head) : Int :=
  let d := s.hd h
  let along : Int := 38000000000 * d.followN / (8688 * 72)
  match d.sledMode with
  | .follow => 1000 * d.sledNm + (if outward h d.layer then along else -along) + d.followTrim
  | .seek => 1000 * d.seekNm
  | .hold => 1000 * d.sledNm

/-- The code on the pairs of a beam (R634, R637). -/
def State.levelCode (s : State) (h : Head) (b : Beam) : BitVec 3 := (s.levelOf h b).code

end Sys2Proof.Machine
end

