-- ==== Sys2Proof/Laws/Memory.lean ====
section
/-! SUPPORT. The laws of the byte memory that holds the volume map (06_volume_map_burrow R204, R214): a write keeps the
canonical form, a read after a write gives the byte written, and a write leaves every other byte alone; and the gate law of
R647. -/

namespace Sys2Proof.Machine

/-- A write lists only its address beside what was listed. -/
theorem Memory.mem_write (a : Nat) (v : Byte) (m : List Host.Cell) (c : Host.Cell) (h : c ∈ Memory.write a v m) :
    c ∈ m ∨ (c = (a, v) ∧ v ≠ 0) := by
  induction m with
  | nil => by_cases hv : v = 0 <;> simp_all [Memory.write]
  | cons x m ih =>
    unfold Memory.write at h
    (repeat' split at h) <;> simp only [List.mem_cons] at h ⊢ <;> tauto

/-- Writing keeps the canonical form. -/
theorem Memory.write_wf (a : Nat) (v : Byte) (m : List Host.Cell) (h : Memory.wf m) : Memory.wf (Memory.write a v m) := by
  induction m with
  | nil =>
    unfold Memory.write
    split
    · exact h
    · next hv => exact ⟨List.pairwise_singleton _ _, fun c hc => by rw [List.mem_singleton.mp hc]; exact hv⟩
  | cons x m ih =>
    obtain ⟨hp, hz⟩ := h
    rw [List.pairwise_cons] at hp
    have hm : Memory.wf m := ⟨hp.2, fun c hc => hz c (List.mem_cons_of_mem _ hc)⟩
    have hx : x.2 ≠ 0 := hz x List.mem_cons_self
    unfold Memory.write
    by_cases h1 : x.1 < a
    · rw [if_pos h1]
      refine ⟨List.pairwise_cons.mpr ⟨fun c hc => ?_, (ih hm).1⟩, fun c hc => ?_⟩
      · rcases Memory.mem_write a v m c hc with hc | ⟨rfl, -⟩
        · exact hp.1 c hc
        · exact h1
      · rcases List.mem_cons.mp hc with rfl | hc
        · exact hx
        · exact (ih hm).2 c hc
    · rw [if_neg h1]
      by_cases h2 : x.1 = a
      · rw [if_pos h2]
        by_cases hv : v = 0
        · rw [if_pos hv]; exact hm
        · rw [if_neg hv]
          refine ⟨List.pairwise_cons.mpr ⟨fun c hc => h2 ▸ hp.1 c hc, hp.2⟩, fun c hc => ?_⟩
          rcases List.mem_cons.mp hc with rfl | hc
          · exact hv
          · exact hz c (List.mem_cons_of_mem _ hc)
      · rw [if_neg h2]
        by_cases hv : v = 0
        · rw [if_pos hv]; exact ⟨List.pairwise_cons.mpr hp, hz⟩
        · rw [if_neg hv]
          have ha : a < x.1 := by omega
          refine ⟨List.pairwise_cons.mpr ⟨fun c hc => ?_, List.pairwise_cons.mpr hp⟩, fun c hc => ?_⟩
          · rcases List.mem_cons.mp hc with rfl | hc
            · exact ha
            · exact lt_trans ha (hp.1 c hc)
          · rcases List.mem_cons.mp hc with rfl | hc
            · exact hv
            · exact hz c hc

/-- Writing bytes keeps the canonical form. -/
theorem Memory.writeAll_wf (bs : List Byte) (m : List Host.Cell) (a : Nat) (h : Memory.wf m) :
    Memory.wf (Memory.writeAll m a bs) := by
  induction bs generalizing m a with
  | nil => exact h
  | cons b bs ih => exact ih _ _ (Memory.write_wf a b m h)

/-- In a canonical memory an address below every listed one reads 0. -/
theorem Memory.read_below (a : Nat) (m : List Host.Cell) (h : ∀ c ∈ m, a < c.1) : Memory.read m a = 0 := by
  unfold Memory.read
  rw [List.find?_eq_none.mpr]
  intro c hc
  have := h c hc
  simp; omega

/-- A read after a write: the byte written at its address, and the old byte at every other. -/
theorem Memory.read_write (a b : Nat) (v : Byte) (m : List Host.Cell) (h : Memory.wf m) :
    Memory.read (Memory.write a v m) b = if b = a then v else Memory.read m b := by
  induction m with
  | nil =>
    unfold Memory.write
    have e' : a = b ↔ b = a := eq_comm
    split <;> by_cases hb : b = a <;> simp_all [Memory.read]
  | cons x m ih =>
    obtain ⟨hp, hz⟩ := h
    rw [List.pairwise_cons] at hp
    have hm : Memory.wf m := ⟨hp.2, fun c hc => hz c (List.mem_cons_of_mem _ hc)⟩
    have step : ∀ l : List Host.Cell, Memory.read (x :: l) b = if x.1 = b then x.2 else Memory.read l b := by
      intro l
      by_cases e : x.1 = b <;> simp [Memory.read, e]
    unfold Memory.write
    by_cases h1 : x.1 < a
    · rw [if_pos h1, step, step, ih hm]
      by_cases e : x.1 = b
      · have : b ≠ a := by omega
        simp [e, this]
      · simp [e]
    · rw [if_neg h1]
      by_cases h2 : x.1 = a
      · rw [if_pos h2, step]
        by_cases hv : v = 0
        · rw [if_pos hv]
          by_cases e : b = a
          · rw [if_pos e, hv, e]
            exact Memory.read_below a m fun c hc => h2 ▸ hp.1 c hc
          · rw [if_neg e, if_neg (by omega)]
        · rw [if_neg hv]
          by_cases e : b = a
          · simp [Memory.read, e]
          · rw [if_neg e, if_neg (by omega)]
            have e' : ¬ a = b := fun q => e q.symm
            simp [Memory.read, e']
      · rw [if_neg h2]
        have ha : a < x.1 := by omega
        by_cases hv : v = 0
        · rw [if_pos hv]
          by_cases e : b = a
          · rw [if_pos e, hv, e]
            refine Memory.read_below a _ fun c hc => ?_
            rcases List.mem_cons.mp hc with rfl | hc
            · exact ha
            · exact lt_trans ha (hp.1 c hc)
          · rw [if_neg e]
        · rw [if_neg hv]
          by_cases e : b = a
          · simp [Memory.read, e]
          · have e' : ¬ a = b := fun q => e q.symm
            simp [Memory.read, e, e']

/-- The memory of the volume map is canonical at reset. -/
theorem reset_mem_wf : Memory.wf State.reset.vmap.mem := by decide

/-- The two gates of one phase are never on together (R647). -/
theorem phaseGates_apart (deadTime : Nat) (before now : LegCommand) (held : Nat) :
    ((phaseGates deadTime before now held).1 && (phaseGates deadTime before now held).2) = false := by
  cases now <;> simp [phaseGates]

/-- Between the two gates of a phase both are off for DEAD_TIME (R647). -/
theorem phaseGates_dead (deadTime : Nat) (before now : LegCommand) (held : Nat) (hd : held < deadTime)
    (h : (before = .low ∧ now = .high) ∨ (before = .high ∧ now = .low)) :
    phaseGates deadTime before now held = (false, false) := by
  rcases h with ⟨rfl, rfl⟩ | ⟨rfl, rfl⟩ <;> simp [phaseGates] <;> omega

end Sys2Proof.Machine
end

