-- ==== Sys2Proof/Machine/Pins.lean ====
section
/-! DEFINITION. The balls, the supplies and what the outputs do at the pins in operation, in reset, gated and unpowered
(18_balls_supplies R627 to R629, R633, R634, R636, R637, R643, R644, R649, R652, R653). They are functions of the state that no
command reads. -/

namespace Sys2Proof

/-! The grid and the supplies (Tables 18.1 and 18.2). -/

/-- A position of the grid, rows and columns 1 to 42, carries a ball (R627). -/
def hasBall (row col : Nat) : Bool :=
  decide (1 ≤ row ∧ row ≤ 42 ∧ 1 ≤ col ∧ col ≤ 42) && !decide (18 ≤ row ∧ row ≤ 25 ∧ 18 ≤ col ∧ col ≤ 25)

/-- The supplies, in the order of Tables 17.2 and 18.2. -/
inductive Supply where
  | vcore | vafe | vpll | vddq | vpcie085 | vpcie12 | vio18 | vio33 | vaon
deriving DecidableEq, Repr

/-- The place of a supply in the order of Table 17.2. -/
def Supply.index (x : Supply) : Fin 9 :=
  match x with
  | .vcore => 0
  | .vafe => 1
  | .vpll => 2
  | .vddq => 3
  | .vpcie085 => 4
  | .vpcie12 => 5
  | .vio18 => 6
  | .vio33 => 7
  | .vaon => 8

/-- The nominal voltage of a supply in mV, and its balls (Table 18.2). -/
def Supply.nominal (x : Supply) : Nat × Nat :=
  match x with
  | .vcore => (750, 220)
  | .vafe => (1000, 80)
  | .vpll => (1000, 16)
  | .vddq => (1100, 64)
  | .vpcie085 => (850, 24)
  | .vpcie12 => (1200, 8)
  | .vio18 => (1800, 40)
  | .vio33 => (3300, 16)
  | .vaon => (1800, 2)

/-- A row of Table 18.1: the balls, the I/O supplies, the power domains, and the region as its first and last row and its
first and last column. -/
structure BallGroup where
  name : String
  balls : Nat
  supplies : List Supply
  domains : List Nat
  region : Nat × Nat × Nat × Nat
deriving DecidableEq, Repr

/-- The groups of the heads: head B as head A, in its own domains and region. -/
def headGroups (name : String) (gate dataLow dataHigh : Nat) (region : Nat × Nat × Nat × Nat) : List BallGroup :=
  [⟨name ++ " level codes", 108, [.vio18], [gate], region⟩, ⟨name ++ " laser control", 5, [.vio18], [gate], region⟩,
   ⟨name ++ " data photodiodes", 36, [.vafe], [dataLow, dataHigh], region⟩,
   ⟨name ++ " servo detectors", 7, [.vafe], [7], region⟩, ⟨name ++ " actuators and scale", 10, [.vio18], [7], region⟩]

/-- The groups of the west side. -/
def westGroups : List BallGroup :=
  let r := (10, 33, 1, 6)
  [⟨"Spindle gates", 6, [.vio33], [16], r⟩, ⟨"Spindle sense", 6, [.vafe], [16], r⟩,
   ⟨"Auxiliary analogue", 12, [.vio18], [7], r⟩, ⟨"Analogue references", 4, [.vafe], [7], r⟩,
   ⟨"Camera sync", 2, [.vio33], [7, 4], r⟩, ⟨"Interlocks", 4, [.vio33], [12, 13, 4], r⟩]

/-- The groups of the east side. -/
def eastGroups : List BallGroup :=
  let r := (10, 33, 37, 42)
  [⟨"Octal SPI", 12, [.vio18], [2], r⟩, ⟨"I2C controller", 2, [.vio18], [2], r⟩, ⟨"I2C target", 2, [.vio33], [2], r⟩,
   ⟨"UART", 2, [.vio33], [2], r⟩, ⟨"JTAG", 5, [.vio18], [2], r⟩, ⟨"System clock", 1, [.vio18], [2], r⟩,
   ⟨"Always-on", 9, [.vaon], [1], r⟩, ⟨"Test", 1, [.vio18], [2], r⟩]

/-- The groups of the south side. -/
def southGroups : List BallGroup :=
  [⟨"PCIe", 35, [.vpcie085, .vpcie12], [15], (34, 42, 29, 42)⟩, ⟨"PCIe sideband", 2, [.vio33], [15], (34, 42, 29, 42)⟩,
   ⟨"DDR5", 159, [.vddq], [14], (34, 42, 1, 28)⟩]

/-- Table 18.1 without its supply and ground balls (R628). -/
def ballGroups : List BallGroup :=
  headGroups "Head A" 12 8 9 (1, 9, 1, 21) ++ headGroups "Head B" 13 10 11 (1, 9, 22, 42) ++ westGroups ++ eastGroups ++ southGroups

/-- The balls of the supplies and of ground (Tables 18.1 and 18.2). -/
def supplyBalls : Nat := 470
def groundBalls : Nat := 634

/-! Outputs (Table 18.3). -/

/-- The outputs of the part. -/
inductive Out where
  | ldEn (h : Head)
  | level (h : Head) (b : Beam)
  | ldcfgSck (h : Head)
  | ldcfgCsN (h : Head)
  | ldcfgSdo (h : Head)
  | pdBias (h : Head)
  /-- FOC, TRK, TILT and SLED of head A, then of head B. -/
  | actuator (i : Fin 8)
  | auxOut (i : Fin 4)
  | actEn (h : Head)
  | gate (high : Bool) (phase : Fin 3)
  | pcieTx
  | clkreqN
  | ddrResetN
  | ospiCsN
  | ospiResetN
  | i2c (target : Bool)
  | uartTx
  | tdo
  | railCoreEn
  | railMainEn
deriving DecidableEq, Repr

/-- What an output shows. -/
inductive PinLevel where
  | low
  | high
  /-- High impedance, or an open drain released. -/
  | released
  /-- A level code on three pairs (Table 18.4). -/
  | code (c : BitVec 3)
  /-- An analogue drive, as its 14-bit code (R643). -/
  | analogue (n : Nat)
  | electricalIdle
  /-- It is driven by its unit in a way that the state does not hold: a bus or link transfer, a commutation phase, a bias. -/
  | driven
deriving DecidableEq, Repr

/-- One level of two. -/
def PinLevel.ofBool (b : Bool) : PinLevel := if b then .high else .low

/-- The I/O supply and the power domain of an output (Table 18.1); the transmit lanes stand on the lower PCIe supply. -/
def Out.place (o : Out) : Supply × Nat :=
  let gate := fun h : Head => if h = .a then 12 else 13
  match o with
  | .ldEn h | .level h _ | .ldcfgSck h | .ldcfgCsN h | .ldcfgSdo h => (.vio18, gate h)
  | .pdBias _ => (.vafe, 7)
  | .actuator _ | .auxOut _ | .actEn _ => (.vio18, 7)
  | .gate _ _ => (.vio33, 16)
  | .pcieTx => (.vpcie085, 15)
  | .clkreqN => (.vio33, 15)
  | .ddrResetN => (.vddq, 14)
  | .ospiCsN | .ospiResetN | .tdo => (.vio18, 2)
  | .i2c target => (if target then .vio33 else .vio18, 2)
  | .uartTx => (.vio33, 2)
  | .railCoreEn | .railMainEn => (.vaon, 1)

/-- The reset state of an output (Table 18.3). The rail enables follow the power state in reset too. -/
def Out.resetLevel (o : Out) : PinLevel :=
  match o with
  | .level _ _ => .code 0
  | .ldcfgCsN _ | .ospiCsN | .uartTx => .high
  | .actuator _ | .auxOut _ | .clkreqN | .i2c _ | .tdo => .released
  | .pcieTx => .electricalIdle
  | _ => .low

/-- The state of a gated output: its reset state, held by the isolation cells (R634), but for DDR5, which stands at its
self-refresh levels, with DDR_RESET_N high. -/
def Out.gatedLevel (o : Out) : PinLevel :=
  match o with
  | .ddrResetN => .high
  | _ => o.resetLevel

/-- The pull that the integrator fits (Table 18.3, R632): true for a pull-up. -/
def Out.pull (o : Out) : Option Bool :=
  match o with
  | .ldEn _ | .actEn _ | .gate _ _ | .railCoreEn | .railMainEn => some false
  | .ldcfgCsN _ | .ospiCsN | .i2c _ | .clkreqN => some true
  | _ => none

end Sys2Proof

namespace Sys2Proof.Machine

/-- What stands for a pin (18_balls_supplies, "Pin states"). -/
inductive PinMode where
  | operating
  | inReset
  | gated
  | unpowered
deriving DecidableEq, Repr

/-- The mode of an output: no supply, VCORE too low (R636), PERST_N asserted, its domain off in the power state, or its domain
not released. The always-on group has no reset but its supply. -/
def State.pinMode (s : State) (o : Out) : PinMode :=
  let p := o.place
  if !s.railOn p.1.index then .unpowered
  else if p.2 = 1 then .operating
  else if s.pins.vcoreLow || s.pins.perst then .inReset
  else if s.pwr.domains.getLsbD p.2 then .operating
  else if (domainsOf s.pwr.state).getLsbD p.2 then .inReset
  else .gated

/-- What an output selector is given (Table 10.4, R643): by the enabled slot that selects it, else by the generator of the
head loop it belongs to, else midscale. -/
def State.analogueOf (s : State) (selector : Nat) : PinLevel :=
  match (List.finRange 16).find? fun i => (s.slot i).enable && (s.slot i).cfg.output.toNat == selector with
  | some i => .analogue (dacCode (s.driveOf i))
  | none => .analogue (dacCode (if selector < 8 then s.driveOf (Fin.ofNat 16 selector) else 0))

/-- What an output drives in operation. -/
def State.operatingLevel (s : State) (o : Out) : PinLevel :=
  match o with
  | .ldEn h => .ofBool (s.ldEn h)
  | .level h b => .code (s.levelCode h b)
  | .ldcfgSck _ | .ldcfgSdo _ => .low
  | .ldcfgCsN _ | .ospiCsN | .ospiResetN | .ddrResetN | .uartTx => .high
  | .actuator i => s.analogueOf i.val
  | .auxOut i => s.analogueOf (16 + i.val)
  | .actEn h => .ofBool (s.actEn h)
  | .gate _ _ => if s.spin.gates = .off then .low else .driven
  | .clkreqN => if s.host.link.l1 then .released else .low
  | .i2c _ | .tdo => .released
  | .railCoreEn => .ofBool s.pwr.railCore
  | .railMainEn => .ofBool s.pwr.railMain
  | .pdBias _ | .pcieTx => .driven

/-- What an output shows (R633, Table 18.3). LD_EN loses its drive when VIO18 or VIO33 falls (R655). -/
def State.pinLevel (s : State) (o : Out) : PinLevel :=
  match s.pinMode o with
  | .unpowered => .released
  | .inReset => o.resetLevel
  | .gated => o.gatedLevel
  | .operating => s.operatingLevel o

/-- The level of the net at an output, with the integrator's pull on a pin that does not drive it (R652, R653). -/
def State.netLevel (s : State) (o : Out) : PinLevel :=
  match s.pinLevel o, o.pull with
  | .released, some up => .ofBool up
  | l, _ => l

/-- The interlock inputs with their wires open, through the parts of Table 18.3 (R649). -/
def PinState.openWires (p : PinState) : PinState :=
  { p with laserArm := false, doorSense := true, magPresent := false, pwrfail := false }

end Sys2Proof.Machine
end

