-- ==== Sys2Proof/WellFormed.lean ====
section
/-! DEFINITION. Which commands are well formed: operands that a part at its pins, its link or its mechanics could be
given. The operand types bound functions, queues, heads, beams, locks and slots already; these checks bound the rest. -/

namespace Sys2Proof

/-- A call carries at most one error of its host reads, and its scatter list is as long as SGL_COUNT says (R122, R692);
the segments are known only once the T36 has read the list. A place in the volume map lies in its 1,280 MiB (R204). -/
def Call.wf (c : Call) : Bool :=
  c.entry.segments.isEmpty && (c.listErr.isNone || c.dataErr.isNone) &&
    (!c.entry.sgl || c.listErr.isSome || c.sgl.length == 16 * c.entry.sglCount.toNat) &&
    decide (c.data.length ≤ c.entry.length.toNat) && decide (c.mapAddr.toNat < 0x50000000)

/-- A measurement names the eight codewords of a sector (Table 8.3). -/
def VerifyMeasure.wf (m : VerifyMeasure) : Bool :=
  m.cwErrs.length == 8 && decide (m.headerErrs ≤ 1088) && m.cwErrs.all (fun e => decide (e ≤ 39168))

/-- A time address that LTC at 24 to 30 frames per second can carry (R677). -/
def TimeAddress.wf (a : TimeAddress) : Bool :=
  decide (a.hours < 24) && decide (a.minutes < 60) && decide (a.seconds < 60) && decide (a.frames < 30)

/-- A command is well formed. -/
def Instr.wf : Instr → Bool
  | .commandFetch _ es => decide (es.length ≤ 4) && es.all (fun e => e.length == 64)
  | .identify _ c | .getPage _ c | .getParam _ c | .setParam _ c | .keyLoad _ c | .keyPurge _ c | .mount _ c
  | .unmount _ c | .clipOpen _ c | .clipClose _ c | .frameAppend _ c | .auxAppend _ c | .read _ c | .frameRead _ c
  | .metaRead _ c | .metaWrite _ c | .lockAcquire _ c | .lockRelease _ c | .lockClearAbandoned _ c
  | .powerState _ c | .spindle _ c | .calibrate _ c | .verifyCtl _ c | .fwStage _ c | .fwActivate _ c
  | .attest _ c | .jtagUnlock _ c | .undefinedOpcode _ c | .fenceCommandStart _ c | .dmaReadError _ c => c.wf
  | .verifyVerdict _ _ _ m => m.wf
  | .paceWindow _ cs => cs.length == 6
  | .capturedFieldRead _ _ o => decide (o < 0x10000)
  | .ldpcDecodeDone _ _ _ _ _ r _ => match r with
    | none => true
    | some bs => bs.length == 4096
  | .ddr5ReadCorrected _ _ bs _ | .scrubRead _ bs _ => bs.length == 16 && bs.all (fun b => b.length == 20)
  | .peerResetAssert _ n _ _ _ | .peerResetDeassert _ n _ | .bridgeOverflow _ n => decide (n < 0x5C)
  | .ltcFrameDecoded _ a _ => a.wf
  | .layerJump _ _ l => decide (l < 12)
  | .burrowProbe _ rows => rows.all (fun r => decide (r < 4160))
  | _ => true

end Sys2Proof
end

