-- ==== Sys2Proof/Tests/Slice0.lean ====
section
/-! SUPPORT. The model's own tests: the ill-formed operands that WellFormed refuses, worked cases of the spec, and for every
statement of Certificates/Slice0/Obligations.lean a concrete state and operands that meet its hypotheses. -/

namespace Sys2Proof.Machine

/-! ## A small bench -/

/-- An entry with an opcode, a LENGTH and its first parameter words. -/
def benchEntry (op len : Nat) (ps : List Nat) : Entry :=
  { opcode := BitVec.ofNat 8 op, cid := 7, length := BitVec.ofNat 32 len
    params := Vector.ofFn fun i => BitVec.ofNat 32 (ps.getD i.val 0) }

/-- A call of a function's queue pair 0. -/
def benchCall (fn : FnId) (e : Entry) : Call := { fn := fn, q := 0, entry := e }

/-- The same command as fetched. -/
def benchGot (fn : FnId) (e : Entry) : Fetched := { org := { fn := fn, q := 0 }, entry := e }

/-- Step 6 has passed on both heads, and everything else that a session needs. -/
def benchCal : Calib :=
  { beamsA := Vector.replicate 18 (Vector.replicate 6 { status := .passed })
    beamsB := Vector.replicate 18 (Vector.replicate 6 { status := .passed })
    headA := Vector.replicate 4 { status := .passed }
    headB := Vector.replicate 4 { status := .passed }
    device := Vector.replicate 2 { status := .passed }, groupM := true }

/-- A head whose tracks are decoded. -/
def benchHead : HeadState :=
  { parked := false, decoding := true, captured := true, release := true, laserEnable := true, actEnable := true }

/-- A part in RUN with a magazine in place, the spindle at record speed and queue pair 0 of every function enabled. -/
def bench : State :=
  let s := State.reset
  { s with
    now := 5000000000
    host := { s.host with
      funcs := Vector.replicate 4 { (s.func 1) with
        ready := true, queues := Vector.replicate 32 { (s.queue 1 0) with enable := true, active := true, depthLog2 := 6 } }
      link := { up := true, rate := 160, width := 8 } }
    quill := { s.quill with bootStep := 11, running := some 0, sequence := 41, motorRelease := true }
    pwr := { s.pwr with state := .run, domains := 0x1FFFC }
    vole := { s.vole with alive := true, boot := 1, integratorValid := true }
    pins := { perst := false, laserArm := true, doorSense := false, magPresent := true }
    cal := benchCal
    mnt := { s.mnt with magazine := 2 }
    spin := { s.spin with state := 3, target := 10800, rpm := 10800, gates := .commutating }
    loop := { s.loop with readyA := true, readyB := true }
    hdA := benchHead, hdB := benchHead
    dram := { s.dram with fillStart := some 0 }
    pace := { s.pace with rate := 3200 } }

/-- The bench with one command waiting in queue pair 0 of a function. -/
def State.offered (s : State) (fn : FnId) (e : Entry) : State :=
  s.updQueue fn 0 fun p => { p with waiting := [benchGot fn e] }

/-- The bench with a magazine mounted for reading and writing. -/
def benchRW : State := { bench with mnt := { bench.mnt with magazine := 4, mode := .readWrite, session := 1, nextLsn := 40 } }

/-- A profile of 24 frames of 64 KiB a second. -/
def benchProfile : Profile :=
  { clip := 5, frameBytes := 65536, rateNum := 24, rateDen := 1, holdAwake := false, user := [] }

/-- The bench with a clip open at frame 0. -/
def benchClip : State :=
  { benchRW with rcd := { benchRW.rcd with clip := some { prof := benchProfile } } }

/-- The bench with a magazine mounted for reading only. -/
def benchRO : State := { bench with mnt := { bench.mnt with magazine := 5, mode := .readOnly, nextLsn := 40 } }

/-- The bench with frame 0 of the clip in its slot, with LSNs 38 and 39, and its opening record. -/
def benchRead : State :=
  { benchClip with
    rcd := { benchClip.rcd with
      clip := some { prof := benchProfile, nextFrame := 1 }
      frames := [{ clip := 5, number := 0, bytes := 65536, data := [1, 2, 3], phase := .encoding 2, slot := 0, timecode := 0x80
                   firstLsn := some 38, org := { fn := 0, q := 0 }, entry := benchEntry 0x12 65536 [5, 0] }] }
    vmap := { benchClip.vmap with
      records := [mkRecord 2 5 0 []], burrow := { benchClip.vmap.burrow with degraded := true } } }

/-- The same with LSN 3 closed to F1. -/
def benchDenied : State :=
  { benchRead with vmap := { benchRead.vmap with
    burrow := { benchRead.vmap.burrow with ranges := [{ fn := 1, index := 0, first := 3, count := 1, deny := true }] } } }

/-- The bench with no attestation count left. -/
def benchSpent : State := { bench with quill := { bench.quill with epoch := 65535, attested := false } }

/-- A command that passes checks 1 to 6 on a state in which it is offered. -/
abbrev Offered (s : State) (o : Opcode) (fn : FnId) (e : Entry) : Prop :=
  Accepted (s.offered fn e) 0 o (benchCall fn e) (benchGot fn e) []

/-! ## The hypotheses of the statements about commands -/

/-- The bench with an entry offered to a function, the entry's call and the command that is checked. -/
abbrev offering (s : State) (o : Opcode) (fn : FnId) (e : Entry) : State × Deferred :=
  (popped (s.offered fn e) 0 (benchCall fn e) [], taken o (benchCall fn e) (benchGot fn e))

/-- The status with which a command is refused by its own checks. -/
def refusalOf (r : Ruling) : Option Status :=
  match r with
  | .refuse st _ => some st
  | _ => none

theorem test_hyp_RefusedCommandOnlyCompletes :
    Starts (bench.offered 1 (benchEntry 0x12 65536 [])) 0 .frameAppend (benchCall 1 (benchEntry 0x12 65536 []))
      (benchGot 1 (benchEntry 0x12 65536 [])) [] ∧
    (let x := offering bench .frameAppend 1 (benchEntry 0x12 65536 [])
     (x.1.firstChecks x.2).map (·.1) = some .functionDenied) ∧
    (let x := offering bench .unmount 0 (benchEntry 0x0B 0 [])
     x.1.firstChecks x.2 = none ∧ x.1.waitsFor x.2 = none ∧ (x.1.midChecks x.2).map (·.1) = some .stateConflict) ∧
    Offered bench .lockRelease 0 (benchEntry 0x29 0 [4]) ∧
    (let x := offering bench .lockRelease 0 (benchEntry 0x29 0 [4])
     refusalOf (x.1.ownRule x.2) = some .stateConflict) := by decide

theorem test_hyp_PagesAndParameters :
    Offered bench .identify 0 (benchEntry 0x01 4096 []) ∧ Offered bench .getPage 0 (benchEntry 0x02 52 [1]) ∧
    Offered bench .getParam 0 (benchEntry 0x03 0 [1]) ∧ Offered bench .setParam 3 (benchEntry 0x04 0 [3, 70]) := by decide

theorem test_hyp_KeysAreLoadedAndPurged :
    Offered bench .keyLoad 0 (benchEntry 0x08 40 [2]) ∧ Offered bench .keyPurge 0 (benchEntry 0x09 0 [2]) ∧
    bench.mnt.mode = .none ∧ bench.quill.lkUsable = false ∧ (parm (benchEntry 0x09 0 [0x80000000]) 0).getLsbD 31 = true := by
  decide

/-- The bytes up to which an identity band sector matters here: a magazine identity record with its CRC, and the begin of a
key record. -/
def benchBand : List Byte := bandRecord [0x11, 1, 0, 0] ++ [0x10, 0, 0, 0] ++ kwInit

/-- A scan of a magazine with that band. -/
def benchScan : MountScan := { markA := true, bandA := benchBand, nextLsn := 40 }

/-- The bench with a key in slot 2, and archive sets for head A's beams in layer 0. -/
def benchKeyed : State := (bench.updQuill fun q => { q with keys := Vec.upd q.keys 2 fun _ => some [] }).updVole fun v =>
  { v with keysInUse := (List.range 18).flatMap fun j =>
      [(3, j, 0, 0), (3, j, 0, 1), (3, j, 0, 2), (3, j, 0, 3), (4, j, 255, 255)] }

theorem test_hyp_MountAndUnmount :
    (let c := { benchCall 0 (benchEntry 0x0A 0 [33]) with scan := benchScan }
     Accepted (benchKeyed.offered 0 (benchEntry 0x0A 0 [33])) 0 .mount c (benchGot 0 (benchEntry 0x0A 0 [33])) [] ∧
       c.scan.blank = false ∧ c.scan.band = some benchBand ∧ Word.fieldLE benchBand 1 1 = 1 ∧
       benchKeyed.quill.keys[(2 : Fin 16)] = some [] ∧ mediaKeyOf [] benchBand = some [] ∧ benchKeyed.cal.bringup = false ∧
       benchKeyed.spin.state = 3 ∧ c.scan.highestSession < 0xFFFFFFFF) ∧
    (parm (benchEntry 0x0A 0 [33]) 0).getLsbD 0 = true ∧ (parm (benchEntry 0x0A 0 [32]) 0).getLsbD 0 = false ∧
    Offered benchKeyed .mount 0 (benchEntry 0x0A 0 [32]) ∧
    Offered benchRO .unmount 0 (benchEntry 0x0B 0 []) ∧ Offered benchRW .unmount 0 (benchEntry 0x0B 0 []) := by decide +kernel

theorem test_hyp_MountAndUnmount_room :
    (popped (benchKeyed.offered 0 (benchEntry 0x0A 0 [32])) 0 (benchCall 0 (benchEntry 0x0A 0 [32])) []).noRoom benchScan =
      false := by decide +kernel

theorem test_hyp_ClipsOpenAndTakeFrames :
    Offered benchRW .clipOpen 0 (benchEntry 0x10 0 [5, 65536, 24, 1]) ∧ benchProfile.rate ≤ benchRW.guarantee * 1000000 ∧
    benchRW.pace.lastStep + 500000 ≤ max benchRW.now 0 ∧ 720 ≤ benchRW.pace.vcore ∧
    Offered benchClip .clipClose 0 (benchEntry 0x11 0 [5]) ∧
    Offered benchClip .frameAppend 0 (benchEntry 0x12 65536 [5, 0]) ∧
    sectorsOf 65536 + benchClip.unencodedSectors + 3 ≤ benchClip.remainingSlots ∧
    (let x := offering benchClip .frameAppend 0 (benchEntry 0x12 65536 [5, 0])
     (x.1.slotFor x.2.cmd 65536).isSome = true) ∧
    Offered benchRead .auxAppend 2 (benchEntry 0x13 64 [5, 0]) ∧ benchRead.clipKnown 5 = true ∧
    0 < (benchRead.frameCount 5).getD 0 ∧ 1 + benchRead.unencodedSectors + 3 ≤ benchRead.remainingSlots := by decide

theorem test_hyp_ReadsDeliverTheirData :
    Offered benchRead .read 1 (benchEntry 0x20 32768 [3, 1]) ∧ benchRead.firstRefused 1 3 1 = none ∧
    3 + 1 ≤ benchRead.mnt.nextLsn ∧ benchRead.needsMedium [3] = true ∧ benchRead.needsMedium [38] = false ∧
    benchDenied.firstRefused 1 3 1 = some 3 ∧ Offered benchDenied .read 1 (benchEntry 0x20 32768 [3, 1]) ∧
    Offered benchRead .frameRead 1 (benchEntry 0x21 8 [5, 0, 4]) ∧
    (let x := offering benchRead .frameRead 1 (benchEntry 0x21 8 [5, 0, 4])
     x.1.appendAhead x.2.cmd.order 5 0 = false) ∧ benchRead.frameBytesOf 5 = some 65536 ∧
    (benchRead.findFrame 5 0).isSome = true ∧
    (benchRead.findFrame 5 0).bind (benchRead.slotRefused (benchGot 1 (benchEntry 0x21 8 [5, 0, 4]))) = none ∧
    Offered benchRead .metaRead 1 (benchEntry 0x22 16 [2, 5, 0, 0]) ∧
    (let x := offering benchRead .metaRead 1 (benchEntry 0x22 16 [2, 5, 0, 0])
     x.1.recordAhead x.2.cmd 2 5 0 = false) ∧ (benchRead.findRecord 2 5 0).isSome = true ∧
    Offered benchRead .metaWrite 2 (benchEntry 0x23 8 [7, 1, 2]) := by decide

/-- The bench with lock 4 held by queue pair 0 of F1. -/
def benchLock : State := bench.updLock 4 fun l => { l with held := true, ownerFn := 1 }

/-- The same lock with an acquire of F2 that waits. -/
def benchWaiter : State := benchLock.updLock 4 fun l =>
  { l with waiters := [{ org := { fn := 2, q := 0 }, cid := 9, opcode := 0x28, deadline := 10000000000 }] }

theorem test_hyp_LocksAreTakenAndFreed :
    Offered bench .lockAcquire 1 (benchEntry 0x28 0 [4]) ∧ (bench.lock 4).held = false ∧
    (bench.updLock 4 fun l => { l with abandoned := true }).lock 4 = { abandoned := true } ∧
    Offered (bench.updLock 4 fun l => { l with abandoned := true }) .lockAcquire 1 (benchEntry 0x28 0 [4]) ∧
    Offered benchLock .lockAcquire 2 (benchEntry 0x28 0 [4, 0]) ∧ Offered benchLock .lockAcquire 2 (benchEntry 0x28 0 [4, 5]) ∧
    (benchLock.lock 4).held = true ∧ (benchLock.lock 4).ownerFn = 1 ∧ (benchLock.lock 4).ownerQ = 0 ∧
    benchLock.waiterCount < 256 ∧ Offered benchLock .lockRelease 1 (benchEntry 0x29 0 [4]) ∧
    (benchLock.lock 4).waiters = [] ∧ Offered benchLock .lockClearAbandoned 1 (benchEntry 0x2A 0 [4]) := by decide

theorem test_hyp_LockConflictsChangeNoLock :
    Offered benchLock .lockAcquire 1 (benchEntry 0x28 0 [4]) ∧ Offered benchLock .lockRelease 2 (benchEntry 0x29 0 [4]) ∧
    Offered benchLock .lockClearAbandoned 2 (benchEntry 0x2A 0 [4]) ∧ (benchLock.lock 4).ownerFn = 1 ∧
    (benchLock.lock 4).held = true ∧ (benchLock.lock 4).ownerQ = 0 := by decide

theorem test_hyp_LockReleaseGrantsTheHeadWaiter :
    Offered benchWaiter .lockRelease 1 (benchEntry 0x29 0 [4]) ∧ (benchWaiter.lock 4).held = true ∧
    (benchWaiter.lock 4).waiters ≠ [] ∧
    ∀ y ∈ (benchWaiter.lock 4).waiters, (benchWaiter.queue y.org.fn y.org.q).policyHalt = false := by decide

/-- The bench with the rotor at rest. -/
def benchRest : State := bench.updSpin fun p => { p with state := 0, gates := .off, rpm := 0, target := 0 }

theorem test_hyp_DeviceCommandsTakeEffect :
    Offered bench .powerState 0 (benchEntry 0x30 0 [1]) ∧ (PowerState.ofNum 1).isSome = true ∧ bench.holdsAwake = false ∧
    Offered benchRest .spindle 3 (benchEntry 0x38 0 [0, 0]) ∧ benchRest.spin.state = 0 ∧ benchRest.spin.lockout = false ∧
    Offered bench .spindle 3 (benchEntry 0x38 0 [0, 10800]) ∧ bench.spin.state = 3 ∧ bench.spin.target = 10800 ∧
    bench.spin.reverse = false ∧ Offered benchRest .spindle 3 (benchEntry 0x38 0 [0, 10800]) ∧
    Offered bench .calibrate 3 (benchEntry 0x39 0 [6]) ∧
    (let x := offering bench .calibrate 3 (benchEntry 0x39 0 [6])
     x.1.calMask x.2.cmd.entry = 0) ∧
    Offered benchRW .verifyCtl 3 (benchEntry 0x3A 0 [1]) ∧ benchRW.cal.bringup = false := by decide

/-- A command that runs. -/
def benchRunning : Running := { org := { fn := 0, q := 1 }, entry := benchEntry 0x30 0 [1], op := .powerState }

/-- The bench with a slot staged and a command that runs. -/
def benchStaged : State := (bench.updQuill fun q => { q with staged := some 1 }).updHost fun h => { h with
  running := [benchRunning] }

theorem test_hyp_QuillCommandsTakeEffect :
    Offered bench .fwStage 3 (benchEntry 0x40 4096 [0]) ∧ bench.quill.stageInvalid 0 = false ∧
    Offered benchStaged .fwActivate 3 (benchEntry 0x41 0 []) ∧ benchStaged.quill.staged = some 1 ∧
    benchStaged.host.running ≠ [] ∧ Offered bench .attest 0 (benchEntry 0x42 4096 []) ∧
    bench.quill.nextCounter.isSome = true ∧
    Offered benchSpent .attest 0 (benchEntry 0x42 4096 []) ∧ benchSpent.quill.nextCounter = none ∧
    Offered bench .jtagUnlock 3 (benchEntry 0x43 1 []) ∧ bench.quill.refusals < 3 ∧
    bench.quill.tokenOk (benchEntry 0x43 1 []) [0] = false := by decide

theorem test_hyp_UndefinedFencedAndFailedCommands :
    ((bench.offered 0 (benchEntry 0x77 0 [])).at 0).front (benchCall 0 (benchEntry 0x77 0 [])) =
      some (benchGot 0 (benchEntry 0x77 0 []), []) ∧ Opcode.ofCode (benchEntry 0x77 0 []).opcode = none ∧
    (let e := { benchEntry 0x03 0 [1] with fence := true }
     Starts (bench.offered 0 e) 0 .getParam (benchCall 0 e) (benchGot 0 e) []) ∧
    (let e := benchEntry 0x12 65536 [5, 0]
     let r : Running := { org := { fn := 0, q := 0 }, entry := e, op := .frameAppend }
     (benchClip.updHost fun h => { h with running := [r] }).appendOf { benchCall 0 e with dataErr := some 64 } = some r) ∧
    (let e := benchEntry 0x40 4096 [0]
     bench.appendOf { benchCall 3 e with dataErr := some 64 } = none ∧
       Starts (bench.offered 3 e) 0 .fwStage { benchCall 3 e with dataErr := some 64 } (benchGot 3 e) []) := by decide

/-- The bench with a command that waits for a reason. -/
def benchWaits (why : WaitReason) : State := bench.updHost fun h => { h with
  deferred := [{ cmd := benchGot 1 (benchEntry 0x20 32768 [3, 1]), call := benchCall 1 (benchEntry 0x20 32768 [3, 1])
                 op := .read, reason := why }] }

theorem test_hyp_WaitingCommandsResume :
    (∀ why ∈ [WaitReason.overlap, .bringup, .power, .clipOpen],
      ((benchWaits why).host.deferred.find? fun x =>
        x.cmd.org.fn == 1 && x.cmd.org.q == 0 && x.cmd.entry.cid == 7 && x.reason == why).isSome = true) ∧
    bench.runs [.mount, .unmount] = false := by decide
/-- A key of 16 bytes only, under which the block decryption of the model gives a constant, so that a payload of 40 bytes
unwraps without the long evaluation that a key of 32 bytes takes. -/
def shortKey : List Byte := List.replicate 16 0xF4

theorem test_hyp_KeysAreLoadedAndPurged_unwraps :
    (let s := bench.updQuill fun q => { q with lk := some shortKey, lkLocked := true }
     Offered s .keyLoad 0 (benchEntry 0x08 40 [2]) ∧ s.quill.lkUsable = true ∧ s.quill.lk = some shortKey ∧
       (kwUnwrap shortKey (benchCall 0 (benchEntry 0x08 40 [2])).payload).isSome = true) := by decide +kernel

/-! ## The hypotheses of the statements about the host link and the part's resets -/

/-- The state that an outcome answers. -/
def answered (a : Answer) : Option State :=
  match a with
  | .next u => some u
  | _ => none

/-- Reset with one command waiting. -/
def benchOne : State := { State.reset with pending := [.streamDry 1] }

theorem test_hyp_queue_and_invariants :
    benchOne.pending = [.streamDry 1] ∧ (answered (step benchOne)).map (·.pending) = some [] ∧
    State.reset.pending = [] ∧ (State.reset.spin.lockout = false ∧ State.reset.spin.state ≤ 6) := by decide

theorem test_hyp_LockoutInvariantKept : SpinOk State.reset.spin ∧ SpinOk { lockout := true, state := 6 } := by
  constructor <;> simp [SpinOk, State.reset]

theorem test_hyp_encodings :
    (List.replicate 64 (0 : Byte)).length = 64 ∧ (11 < 12 ∧ 23 < 24 ∧ 511 < 512 ∧ 2 < 3) ∧
    (let l : CacheLine := { set := 511, way := 0, tag := 32767, dirty := false, data := [] }
     l.set < 512 ∧ l.tag < 32768) ∧ 4294967295 + 1 ≤ 4294967296 := by decide

/-- The bench with the tail doorbell of queue pair 0 of F0 at 3. -/
def benchTail (urgent : Bool) : State :=
  bench.updQueue 0 0 fun p => { p with sqTail := 3, urgent := urgent }

theorem test_hyp_DoorbellsMoveTheirIndex :
    (bench.func 0).ready = true ∧ (bench.queue 0 0).enable = true ∧ (63#32).toNat % 1024 < 2 ^ (bench.queue 0 0).depthLog2.toNat ∧
    2 ^ (bench.queue 0 0).depthLog2.toNat ≤ (64#32).toNat % 1024 ∧ (bench.queue 0 0).active = true ∧
    (bench.queue 0 0).held = [] ∧
    ((bench.updQueue 0 0 fun p => { p with enable := false, active := false }).queue 0 0).enable = false ∧
    ((bench.updQueue 0 0 fun p => { p with enable := false, active := false }).queue 0 0).active = false := by decide

theorem test_hyp_QueueEnableAndRestart :
    (bench.func 1).ready = true ∧ (0x86010100#32).getLsbD 31 = true ∧ (0x86010100#32).getLsbD 30 = false ∧
    (0x86010100#32).toNat / 16777216 % 16 = 6 ∧ (0x8B010100#32).toNat / 16777216 % 16 = 11 ∧
    (0x83010100#32).toNat / 16777216 % 16 = 3 ∧ (0xC6010100#32).getLsbD 30 = true ∧ (bench.queue 1 0).enable = true ∧
    (let s := bench.updQueue 1 0 fun p => { p with enable := false, active := false }
     (s.queue 1 0).enable = false ∧ (s.queue 1 0).active = false) := by decide

theorem test_hyp_QueueDeletionFreesItsLocks :
    (benchWaiter.func 1).ready = true ∧ (0#32).getLsbD 31 = false ∧ (benchWaiter.queue 1 0).enable = true ∧
    (benchWaiter.lock 4).held = true ∧ (benchWaiter.lock 4).ownerFn = 1 ∧ (benchWaiter.lock 4).ownerQ = 0 ∧
    (let s := bench.updQueue 1 0 fun p => { p with enable := false }
     (s.queue 1 0).active = true ∧ (s.queue 1 0).enable = false ∧ s.queueBusy 1 0 = false ∧ (s.queue 1 0).held = []) := by
  decide

theorem test_hyp_FetchMovesEntriesOffTheRing :
    ((benchTail false).at 0).arbitrate.map (·.1) = some (0, 0) ∧ ((benchTail false).at 0).fetchable 0 0 = true ∧
    (((benchTail false).at 0).allotSpace 0 (benchEntry 0x03 0 [1]) false).isSome = true ∧
    (((benchClip.updDrey fun d => { d with ring := [{ slot := some 0, bytes := Config.framePool }] }).at 0).allotSpace 0
      (benchEntry 0x12 65536 [5, 0]) false) = none := by decide

theorem test_hyp_UrgentQueuesAreServedFirst :
    ((benchTail true).queue 0 0).urgent = true ∧ (benchTail true).fetchable 0 0 = true := by decide

/-- The bench with a FRAME_APPEND held at fetch. -/
def benchHeld : State := (bench.updQueue 0 0 fun p => { p with
  heldFetch := some { entry := benchEntry 0x12 65536 [5, 0], since := 1000000000, waitMs := 500 } }).updHost fun h =>
  { h with heldOrder := [(0, 0)] }

theorem test_hyp_HeldEntriesResumeOrTimeOut :
    ((benchHeld.queue 0 0).heldFetch).isSome = true ∧ (benchHeld.queue 0 0).halted = false ∧
    benchHeld.host.fetchStopped = false ∧ (benchEntry 0x12 65536 [5, 0]).opcode = 0x12 ∧
    ((benchHeld.at 0).allotSpace 0 (benchEntry 0x12 65536 [5, 0]) (benchHeld.host.heldOrder.head? == some (0, 0))).isSome = true ∧
    1000000000 + 500 * 1000000 ≤ max benchHeld.now 0 ∧
    (let s := bench.updDrey fun d => { d with
       lastRaise := some 1000000000, ring := [{ slot := some 0, bytes := Config.framePool }] }
     s.rcd.drey.lastRaise = some 1000000000 ∧ s.warnLevel ≤ s.occupancy ∧ 1000000000 + 100000000 ≤ max s.now 0) := by decide

theorem test_hyp_HostLinkTimers :
    (let s := bench.updQueue 1 0 fun p => { p with firstUnsignalled := some 4000000000, coalTime := 5 }
     (s.queue 1 0).firstUnsignalled = some 4000000000 ∧ (s.queue 1 0).coalTime ≠ 0 ∧
       4000000000 + (s.queue 1 0).coalTime.toNat * 10000 ≤ max s.now 0) ∧
    benchClip.rcd.clip.isSome = true ∧ bench.rcd.clip = none ∧ bench.host.link.up = true ∧ bench.linkBusy = false ∧
    bench.host.link.idleSince + 100000 ≤ max bench.now 0 := by decide

theorem test_hyp_resets :
    (State.reset.func 2).ready = false ∧ (bench.func 2).ready = true ∧ bench.host.link.up = true ∧
    State.reset.host.link.up = false ∧
    (let s := bench.updHost fun h => { h with link := { h.link with up := false } }
     s.quill.stopped = false ∧ s.quill.recovery = false ∧ s.quill.bootStep = 11 ∧ s.host.link.up = false) ∧
    (100000 ≤ 100000 ∧ bench.pwr.state ≠ .torpor ∧ bench.pwr.state ≠ .hibernate ∧ bench.pwr.pfStep = 0) ∧
    (let s := bench.updPwr fun w => { w with perstDeferred := true, pfStep := 6 }
     s.pwr.perstDeferred = true ∧ s.pwr.pfStep = 6) ∧
    (let s := bench.updQuill fun q => { q with activating := true }
     s.quill.activating = true ∧ s.host.running = []) ∧
    State.reset.quill.bootStep = 0 ∧ State.reset.pwr.state = .park ∧ State.reset.pwr.running = none ∧
    (let best := ({ State.reset.quill with measures := Vector.replicate 8 (Word.zeros 48) } : QuillState).measureRom
     (best.choose best.candidates).1 = none) := by decide

/-! ## The hypotheses of the statements about posting and about the data paths -/

theorem test_hyp_CompletionEntryIsPosted :
    (bench.queue 0 0).active = true ∧ (bench.queue 0 0).held = [] ∧
    ((bench.queue 0 0).cqTail + 1) % 2 ^ (bench.queue 0 0).depthLog2.toNat ≠ (bench.queue 0 0).cqHead ∧
    (let s := bench.updQueue 0 0 fun p => { p with cqTail := 63 }
     (s.queue 0 0).active = true ∧ ((s.queue 0 0).cqTail + 1) % 2 ^ (s.queue 0 0).depthLog2.toNat = (s.queue 0 0).cqHead) ∧
    (1 : QId) ≠ 0 := by decide

/-- A frame whose DMA runs, or that is full. -/
def benchFrame (phase : FramePhase) (data : List Byte) : Frame :=
  { clip := 5, number := 0, bytes := 2, data := data, phase := phase, slot := 0, timecode := 0x80
    org := { fn := 0, q := 0 }, entry := benchEntry 0x12 2 [5, 0] }

/-- The bench with a frame whose FRAME_APPEND runs. -/
def benchDma : State := (benchClip.updRcd fun r => { r with frames := [benchFrame .dma []] }).updHost fun h => { h with
  running := [{ org := { fn := 0, q := 0 }, entry := benchEntry 0x12 2 [5, 0], op := .frameAppend, alloc := .frame 0 }] }

theorem test_hyp_FramesArriveAndClipsClose :
    benchDma.findFrame 5 0 = some (benchFrame .dma []) ∧ [1, 2].length = (benchFrame .dma []).bytes ∧
    (benchDma.host.running.find? (Running.appends (benchFrame .dma []))).isSome = true ∧
    (let c : ClosingClip := { clip := 5, frames := 1, reason := 0, frameBytes := 2 }
     let s := benchRW.updRcd fun r => { r with closing := [c], frames := [benchFrame .full [1, 2]] }
     s.rcd.closing = [c] ∧ s.rcd.frames.any c.waits = false) := by decide

/-- The bench while it records: a group open on head A. -/
def benchRec : State := benchClip.updRcd fun r => { r with
  stopped := false, frames := [benchFrame .full [1, 2]]
  headA := { r.headA with open3 := some (0, 1, 2) }
  stripes := [0, 1, 2].map fun q =>
    { seq := q, head := .a, layer := 0, zone := 0, group := 0, member := q, live := 18, dead := none } }

theorem test_hyp_EncodingAndSystemSectors :
    benchRec.encoding = true ∧ benchRec.rcd.stopped = false ∧ benchRec.nextFrame = some (benchFrame .full [1, 2], 0) ∧
    ((benchRec.at 0).endRebuilds.encodeOne (benchFrame .full [1, 2]) 0 0).isSome = true ∧
    (let s := (benchRec.updWh .a fun w => { w with rewrites := [(.system 3, [])] })
     ((s.at 0).sealIfDue).mountedRW = true ∧ (((s.at 0).sealIfDue).placeRewrite .a).isSome = true) ∧
    (let s := benchRec.updRcd fun r => { r with auxQueue := [(3, [], 0)] }
     let u := (s.at 0).sealIfDue
     u.mountedRW = true ∧ u.placeRewrite .a = none ∧ u.placeRewrite .b = none ∧ u.encoding = true ∧ u.placeRecords = none ∧
       u.placeAux.isSome = true) := by decide +kernel
/-- A sector in flight, or staged, of a beam of head A. -/
def benchSector (flight : Bool) (doomed : Nat) : Sector :=
  { kind := .pad, head := .a, layer := 0, zone := 0, group := 0, member := 0, beam := 3, pos := 0, index := 3
    psa := psaOf .a 0 0 0 0 3 0, lsn := 0xFFFFFFFF, seq := 0, counter := 0, header := [], payload := []
    inFlight := flight, doomed := doomed }

/-- A measurement that passes every criterion. -/
def benchGood : VerifyMeasure :=
  { markFound := true, markOffset := 0, syncsFound := true, headerErrs := 0, cwErrs := List.replicate 8 0, beta := 1024 }

/-- The bench with sectors on the lanes of head A. -/
def benchLanes (l : List Sector) : State := benchRec.updWh .a fun w => { w with sectors := l }

theorem test_hyp_SlotsAndVerdicts :
    (benchRec.wh .a).open3.isSome = true ∧ benchRec.mountedRW = true ∧ (benchRec.wh .a).slot + 1 < 36 ∧
    (let s := benchRec.updWh .a fun w => { w with slot := 35 }
     36 ≤ (s.wh .a).slot + 1) ∧
    ((benchLanes [benchSector true 0]).wh .a).sectors.find? (fun y => y.beam == 3 && y.inFlight) = some (benchSector true 0) ∧
    (benchRec.beam .a 3).passes .pad benchGood = true ∧
    (benchRec.beam .a 3).passes .pad { benchGood with markFound := false } = false ∧ (benchSector true 4).doomed ≠ 0 ∧
    ((benchLanes [benchSector true 4]).wh .a).sectors.find? (fun y => y.beam == 3 && y.inFlight) = some (benchSector true 4) := by
  decide

theorem test_hyp_RecordingStopsAndResumes :
    (let s := benchRec.updRcd fun r => { r with frames := [] }
     s.mountedRW = true ∧ s.rcd.stopped = false ∧ s.dry = true) ∧
    (benchClip.encoding = true ∧ benchClip.rcd.stopped = true ∧ benchClip.rd.excursion = none ∧
      (bothHeads.all fun h => benchClip.mayWrite h && (benchClip.wh h).open3.isNone) = true) ∧
    (let s := (benchClip.updRcd fun r => { r with stopped := false }).updHost fun h => { h with
       running := [{ benchRunning with need := [3] }] }
     s.rd.excursion = none ∧ (s.wh .a).open3 = none ∧ s.reviewWaits = true ∧ s.rcd.clip.isSome = true ∧
       s.occupancy + benchProfile.rate + s.params.reviewMarginMib * 1048576 ≤ s.warnLevel ∧ s.mountedRW = true) ∧
    (let s := benchClip.updRd fun r => { r with excursion := some 0 }
     s.rd.excursion.isSome = true ∧ s.encoding = true ∧ s.rcd.stopped = true) := by decide

theorem test_hyp_ChipParityErrorsAreContained :
    ((benchLanes [benchSector false 0]).wh .a).sectors.find? (fun y => y.beam == 3 && !y.inFlight) =
      some (benchSector false 0) ∧
    benchRec.encoding = true ∧ benchRec.nextFrame.isSome = true ∧
    (let s := bench.updRd fun r => { r with holding := [(5, [], [])] }
     s.rd.holding.any (fun x => x.1 == 5) = true) ∧
    (let w : PoolWord := { head := .a, beam := 3, psa := 5, index := 0, speculative := false }
     let s := bench.updRd fun r => { r with pool := [w] }
     s.rd.pool.find? (fun x => x.head == .a && x.beam == 3) = some w) ∧
    ((benchRec.groupStripes .a)[2]?).isSome = true := by decide

theorem test_hyp_CodewordsAreDecoded :
    (benchRO.at 0).readable .a = true ∧ psaHead (psaOf .a 0 0 0 0 3 0) = .a ∧ psaBeam (psaOf .a 0 0 0 0 3 0) = 3 ∧
    benchRO.channelReads .a 3 = true ∧ (benchRO.chan .a 3).markMissed 0 0 = false ∧
    (((benchRO.at 0).overrunBeam .a 3).bridge (chanBridge .a 3)).armed = true ∧ benchRO.rd.holding.length < 128 ∧
    benchRO.codecOn = true ∧
    (let s := benchRO.updBridge 3 fun b => { b with armed := false }
     (((s.at 0).overrunBeam .a 3).bridge (chanBridge .a 3)).armed = false) ∧
    (let s := benchRO.updChan .a 3 fun c => { c with stream := List.replicate 256 (-1) }
     (s.chan .a 3).markMissed 0 0 = true) ∧
    (let w : PoolWord := { head := .a, beam := 3, psa := 5, index := 0, speculative := false }
     let s := benchRO.updRd fun r => { r with pool := [w] }
     s.rd.taken.find? (fun x => x.head == .a && x.beam == 3 && x.index == (0 : Fin 8).val) = some w ∧
       s.cal.bringup = false ∧ 12 ≤ s.rd.limNormal ∧ s.rd.limNormal < 13) := by decide +kernel

/-- A stripe in assembly of which every sector is an erasure. -/
def benchAssembly (ladder : Bool) : Assembly :=
  { seq := 4, head := .a, layer := 0, zone := 0, group := 0, member := 0, live := 18
    parts := (List.range 216).map fun k => (k, PartState.erased), ladder := ladder }

theorem test_hyp_StripesAreRecovered :
    (let s := benchRO.updRd fun r => { r with holding := [(5, [], [0])] }
     let s1 := s.updMnt fun m => { m with mediaKey := some [] }
     s1.rd.holding.find? (fun x => x.1 == 5) = some (5, [], [0]) ∧ s1.mnt.mediaKey = some [] ∧
       openSector [] [] [0] = some [] ∧ openSector [] (Word.zeros 40) [0] = none) ∧
    (let s := benchRO.updRd fun r => { r with assembly := [benchAssembly false] }
     s.rd.assembly.find? (fun x => x.seq == 4) = some (benchAssembly false) ∧ (benchAssembly false).ladder = false ∧
       s.stripeComplete (benchAssembly false) = true) ∧
    (let s := benchRO.updRd fun r => { r with ladderA := 5 }
     s.ladder .a ≠ 0 ∧ (s.at 0).mediumFree = true ∧ 5 ≤ s.ladder .a ∧ (s.at 0).ladderLeft .a = []) := by decide +kernel

/-- The bench with defect spans open on two beams of head A in field 7. -/
def benchSpans : State := ((benchRO.updChan .a 0 fun c => { c with spans := [{ start := (7, 0) }] }).updChan .a 1
  fun c => { c with spans := [{ start := (7, 9) }] }).updRd fun r => { r with assembly := [benchAssembly false] }

theorem test_hyp_FieldsDefectsAndBackgroundReads :
    benchRO.channelReads .a 3 = true ∧ benchRO.stripeAt 5 = none ∧
    (let u := benchSpans.updChan .a 2 fun c => { c with spans := c.spans ++ [{ start := (7, 5) }], defectPsa := 5 }
     3 ≤ (allBeams.filter fun x => (u.chan .a x).spans.any fun d => d.start.1 == 7).length ∧
       benchSpans.channelReads .a 2 = true ∧ benchSpans.rd.radialLogged.contains 4 = false ∧
       benchSpans.rd.assembly.any (fun a => a.seq == 4) = true) ∧
    (let s := benchRO.updRd fun r => { r with scurryA := true, mediaScrub := true }
     s.scurryOn .a = true ∧ (s.hd .a).captured = true ∧ (s.hd .a).layer < 11 ∧ s.scrubbing = true) := by decide

/-- The bench while it records, its stream known to start at a moment, with archive sets for head A. -/
def benchStream : State := (benchRec.updRcd fun r => { r with layerAt := some 5000000000 }).updVole fun v =>
  { v with keysInUse := (List.range 18).flatMap fun j =>
      [(3, j, 0, 0), (3, j, 0, 1), (3, j, 0, 2), (3, j, 0, 3), (4, j, 255, 255)] }

/-- A sector of head A whose last bit has passed, and one staged for the slot that comes. -/
theorem test_hyp_SlotsAndVerdicts_more :
    (benchStream.slotDue .a 0).isSome = true ∧ benchStream.rcd.stopped = false ∧
    (∃ d, benchStream.slotDue .a 0 = some d ∧ (d - ((max 5000000000 d.toNat : Nat) : Int)).natAbs ≤ 4823 ∧
      4823 < (d - ((max 5000000000 (d.toNat + 9000) : Nat) : Int)).natAbs) ∧
    (let x := { benchSector true 0 with ends := 5000000000 }
     (let s := benchStream.updWh .a fun w => { w with sectors := [x] }
      (s.wh .a).sectors.find? (fun y => y.beam == 3 && y.inFlight && (decide (y.ends ≤ max s.now 0) || y.doomed != 0)) = some x ∧
        s.valid50 .a 3 = true) ∧
     (let s := benchLanes [x]
      s.valid50 .a 3 = false)) ∧
    (let x := benchSector false 0
     let s := benchLanes [x]
     (s.staging .a).find? (fun y => y.beam == 3 && !y.inFlight) = some x ∧ (s.at 0).encodesFor .a 0 = true ∧
       (s.at 0).encodesFor .a 17 = false ∧ s.counterRoom = true ∧ oddParity 3 ≠ false ∧ oddParity 3 = true) := by
  refine ⟨by decide +kernel, by decide, ⟨(benchStream.slotDue .a 0).getD 0, by decide +kernel⟩, by decide +kernel, by decide +kernel⟩

theorem test_hyp_links_and_functions_more :
    (bench.host.arb.window < max bench.now 0 / 1000000 ∧ benchClip.rcd.clip.isSome = true) ∧
    (let s := bench.updHost fun h => { h with arb := { h.arb with window := 5000 } }
     max s.now 0 / 1000000 ≤ s.host.arb.window) ∧
    (let s := bench.updQuill fun q => { q with bootStep := 10 }
     s.quill.stopped = false ∧ s.quill.recovery = false ∧ s.quill.bootStep = 10) ∧
    (let s := bench.updQuill fun q => { q with bootStep := 5, recovery := true }
     s.quill.recovery = true ∧ s.quill.bootStep = 5) ∧
    (let s := bench.updFunc 2 fun u => { u with ready := false, inReset := true }
     s.quill.bootStep = 11 ∧ s.host.link.up = true ∧ (s.func 2).inReset = true) ∧
    (let e := benchEntry 0x38 0 [1, 6000]
     Offered bench .spindle 3 e ∧ (parm e 0).getLsbD 0 = true ∧ 300 ≤ bench.spin.rpm) := by decide

/-! ## The hypotheses of the statements about loops, spindle and heads -/

/-- The configuration of the worked case of the control law (R379). -/
def benchCfg : LoopCfg :=
  { kp := 0x2000, ki := 0x0100, kd := 0x1000, af := 0x4000, uMax := 0x7FFF, uMin := 0x8001, iLim := 0x7FFF, div := 1 }

/-- A slot that runs. -/
def benchSlot : LoopSlot := { enable := true, cfg := benchCfg, mode := .run }

theorem test_hyp_loops :
    bench.loopOn = true ∧ State.reset.loopOn = false ∧ bench.loop.cleared = [] ∧ (bench.bridge 39).armed = true ∧
    loopBridge 3 = some 39 ∧ ((bench.updBridge 39 fun b => { b with armed := false }).bridge 39).armed = false ∧
    (bench.slot 3).active = false ∧ (bench.updSlot 3 fun _ => benchSlot).slot 3 = benchSlot ∧ benchSlot.active = true ∧
    max 1 benchSlot.cfg.div.toNat ≤ benchSlot.events + 1 ∧
    (let k := { benchSlot with cfg := { benchCfg with div := 4 } }
     k.active = true ∧ k.events + 1 < max 1 k.cfg.div.toNat) ∧
    benchSlot.missedRun < 8 ∧ 8 ≤ ({ benchSlot with missedRun := 8 } : LoopSlot).missedRun ∧
    benchCfg.valid = true ∧ (0 : Int) ≤ 32768 ∧ -32768 ≤ q benchCfg.uMax ∧ q benchCfg.uMin ≤ 32768 ∧
    (-benchCfg.iMax ≤ benchSlot.iPrev ∧ benchSlot.iPrev ≤ benchCfg.iMax) ∧
    (bench.slot 3).enable = false ∧ ({ benchCfg with supervision := 2 } : LoopCfg).valid = true ∧
    ({ benchCfg with uMin := 0x7FFF, uMax := 0x8001 } : LoopCfg).valid = false ∧ slotHead 8 = none := by decide

/-- What a good start senses. -/
def benchStart : StartSense := { keMeas := 50 }

/-- The bench at rest with a start due, and a nominal back-EMF constant. -/
def benchDue : State := benchRest.updSpin fun p => { p with
  startDue := true, retryDue := true, restartDue := true, gatesAt := 1000000000, params := { p.params with keNom := 50 } }

theorem test_hyp_SpindleStarts :
    benchDue.spin.startDue = true ∧ benchDue.mayStart = true ∧ benchDue.spin.state = 0 ∧ benchStart.turning = none ∧
    benchStart.synced = true ∧ keCheck benchStart.keMeas benchDue.spin.params.keNom ≠ .fault ∧ benchDue.spin.retryDue = true ∧
    benchDue.spin.gatesAt + 1000000000 ≤ (benchDue.at 0).now ∧ benchDue.spin.restartDue = true ∧
    (benchDue.updSpin fun p => { p with attempts := 2 }).spin.attempts = 2 ∧
    (let s := bench.updSpin fun p => { p with state := 1 }
     s.spin.gates = .commutating ∧ s.spin.state = 1) := by decide

/-- A spindle whose gates are driven in some way since the start. -/
def benchGates (g : GateDrive) (state : Nat) : State := bench.updSpin fun p => { p with gates := g, state := state, gatesAt := 0 }

theorem test_hyp_SpindleStopsAndTrips :
    bench.spin.gates = .commutating ∧ (bench.at 0).highSideOff = false ∧ bench.spin.state ≠ 0 ∧ bench.spin.state ≠ 5 ∧
    bench.runs [.spindle] = false ∧ bench.spin.lockout = false ∧ bench.quill.motorRelease = true ∧
    (let s := benchGates .braking 5
     s.spin.gates = .braking ∧ s.spin.gatesAt + 10000000000 ≤ (s.at 10000000000).now ∧ 300 ≤ 300) ∧
    (let s := benchGates .lowSide 5
     s.spin.gates = .lowSide ∧ s.spin.gatesAt + 1000000000 ≤ (s.at 0).now) ∧
    (let s := benchGates .off 6
     s.spin.state = 6 ∧ s.spin.gatesAt + 100000000 ≤ (s.at 0).now) ∧
    bench.hdA.decoding = true ∧ bench.spin.wedgeLock = false ∧ State.reset.hdA.decoding = false ∧
    State.reset.hdB.decoding = false := by decide

theorem test_hyp_SpindleStopsAndTrips_stall :
    (let s := bench.updSpin fun p => { p with params := { p.params with fPwm := 1 }
                                              tripPeriods := (List.range 80).map fun k => 5000 - k }
     (s.at 0).stalled = true ∧ s.spin.gates = .commutating) := by decide +kernel

theorem test_hyp_HeadsMove :
    bench.servoOn = true ∧ bench.spin.reverse = false ∧ (bench.calUnit 6 .a 0).status = .passed ∧
    (30500000 ≤ 30500000 ∧ 70500000 ≤ 70500000) ∧
    (let s := bench.updHd .a fun d => { d with sledMode := .seek, seekBand := some 100, quiet := 32 }
     (s.hd .a).sledMode = .seek ∧ (s.hd .a).seekAt + (s.hd .a).seekTime ≤ (s.at 0).now ∧ 32 ≤ (s.hd .a).quiet ∧
       beforeBand (outward .a (s.hd .a).layer) 100 98 = true ∧ beforeBand (outward .a (s.hd .a).layer) 100 97 = false) ∧
    bench.canSweep .a = true ∧ (bench.hd .a).captured = true ∧ 11 ≠ (bench.hd .a).layer ∧
    (let s := bench.updHd .a fun d => { d with captured := false, needRecapture := true }
     s.canSweep .a = true ∧ (s.hd .a).captured = false ∧ (s.hd .a).needRecapture = true) ∧
    (([{ locked := true, layer := 0 }] : List CaptureSense).take 3).find? (·.locked) = some { locked := true, layer := 0 } ∧
    ((List.replicate 3 ({ locked := false, layer := 0 } : CaptureSense)).take 3).any (·.locked) = false ∧
    (bench.updRd fun r => { r with ladderA := 5 }).ladder .a = 5 := by decide

/-- The bench with beam 3 of head A at READ and calibrated. -/
def benchTrim : State := bench.updBeam .a 3 fun u => { u with
  level := .read, readCode := 500, calRead := 500, readTarget := 400, calSlope := 100, calWrite := 500, writeCode := 500 }

theorem test_hyp_TurnaroundsAndTrims :
    (let s := (benchRec.updWh .a fun w => { w with atEnd := true }).updWh .b fun w => { w with atEnd := true }
     s.mountedRW = true ∧ s.atLayerEnd .a = true ∧ s.atLayerEnd .b = true ∧ (s.wh .a).atEnd = true ∧ (s.wh .a).layer < 11 ∧
       s.rd.excursion = none) ∧
    (let s := bench.updRcd fun r => { r with turnAt := some 0 }
     s.rcd.turnAt = some 0 ∧ 0 + 290000000 ≤ (s.at 0).now ∧ s.servoReady .a = true ∧ s.servoReady .b = true) ∧
    State.reset.servoReady .a = false ∧ benchTrim.trims .a 3 = true ∧
    (let u := benchTrim.beam .a 3
     392 * 100 ≤ u.readTarget * 102 ∧ u.readTarget * 98 ≤ 392 * 100 ∧ 391 * 100 < u.readTarget * 98 ∧
       u.readTarget * 102 < 409 * 100 ∧ 100 * ((min 1023 (u.readCode + 1) : Nat) - (u.calRead : Int)).natAbs ≤ 15 * u.calRead ∧
       100 * ((100 : Int) - u.calSlope).natAbs ≤ 30 * u.calSlope ∧
       30 * u.calSlope < 100 * ((131 : Int) - u.calSlope).natAbs) ∧
    (0 - (benchTrim.beam .a 3).calOffset).natAbs ≤ 32 ∧
    (let u := { benchTrim.beam .a 3 with adcOffset := 32, readCode := 575 }
     32 < (u.adcOffset + 1 - u.calOffset).natAbs ∧
       15 * u.calRead < 100 * (((u.readCode + 1 : Nat) : Int) - u.calRead).natAbs) := by decide
/-! ## The hypotheses of the statements about the units and about power -/

theorem test_hyp_LaserChainCommands :
    (bench.pins.doorSince + 5000000 ≤ (bench.at 0).now ∧ bench.pins.armSince + 5000000 ≤ (bench.at 0).now ∧
      (bench.hd .a).release = true ∧ bench.pwr.domains.getLsbD (laneDomain .a) = true ∧ bench.spin.reverse = false ∧
      bench.pwr.pfStep < 5 ∧ bench.pins.vcoreLow = false ∧ bench.ioFallen = false) ∧
    (let s := bench.updPins fun p => { p with doorSense := true }
     s.pins.doorSense = true ∧ s.pins.doorRose + 5000000 ≤ (s.at 0).now) ∧
    State.reset.pins.magPresent = false ∧ bench.pins.magPresent = true ∧ (Level.read ≠ .off) ∧
    ldcfgWord 3 .read 500 ≠ 0 := by decide

theorem test_hyp_OpeningTheChainDarkensEveryLane :
    (let s := bench.updSlot 0 fun _ => benchSlot
     (s.slot (headSlot .a 0)).active = true) ∧ (benchSector true 0).inFlight = true := by decide

/-- The two beats of a symbol pair in which all 20 devices drive 0, and those in which two symbols differ from it. -/
def zeroBeats : List (List (BitVec 4)) := List.replicate 16 (List.replicate 20 0)

/-- The same burst with the symbols of two devices wrong in the first codeword. -/
def twoWrong : List (List (BitVec 4)) := ([1, 2] ++ List.replicate 18 0) :: List.replicate 15 (List.replicate 20 0)

theorem test_hyp_DreyErrorsAndSelfTest :
    150994944 ≤ 150994944 ∧ 150994943 < 150994944 ∧ bench.pwr.domains.getLsbD 14 = true ∧ bench.dram.selfRefresh = false ∧
    bench.pwr.pllLost.contains .ddr5 = false ∧
    (bench.at 0).filled bench.dram.patrol = true ∧
    bench.dram.lastScrub + (bench.at 0).scrubInterval ≤ (bench.at 0).now ∧
    (let s := bench.updDram fun d => { d with lastScrub := 5000000000 }
     (s.at 0).now < s.dram.lastScrub + (s.at 0).scrubInterval) ∧
    (areaOf 119013375 = .frames ∧ areaOf 119013376 = .review ∧ areaOf 127401984 = .scurry ∧ areaOf 131596288 = .side ∧
      areaOf 133693440 = .assembly ∧ areaOf 134217728 = .volumeMap ∧ areaOf 144703488 = .lists ∧ areaOf 145752064 = .working ∧
      areaOf 150994943 = .selfTest) ∧
    (let s := bench.updQuill fun q => { q with bootStep := 9 }
     s.quill.bootStep = 9 ∧ s.dram.lost = none) := by decide +kernel

/-- The bench with a row in Burrow and a line in the cache. -/
def benchMap : State :=
  { benchRO with vmap := { benchRO.vmap with
      cache := { benchRO.vmap.cache with lines := [{ set := 24, way := 2, tag := 3, dirty := true, data := Word.zeros 128 }],
                                           eviction := [(0, Word.zeros 128)] } } }

theorem test_hyp_DreyErrorsAndSelfTest_words :
    ((ddrWords zeroBeats).mapM (ddrDecode none)).isSome = true ∧
    (let s := bench.updDram fun d => { d with lost := some 0 }
     (ddrWords twoWrong).mapM (ddrDecode s.dram.lost) = none) := by decide +kernel

theorem test_hyp_CacheAndBurrowKeepTheirTables :
    (benchMap.vmap.cache.lines.find? (fun x => x.set == 24 && x.way == 2)).isSome = true ∧ benchMap.vmap.cache.miss = none ∧
    (benchMap.at 0).dramServed = true ∧ benchMap.vmap.cache.eviction ≠ [] ∧
    ({ benchMap.vmap.cache with miss := some { addr := 0, write := false } } : CacheState).miss.isSome = true ∧
    oddParity 0 = true ∧ oddParity 1 = false ∧ benchMap.pwr.domains.getLsbD 4 = true ∧ benchMap.quill.recovery = false ∧
    benchMap.rcd.drey.outOfService = false ∧ dueAgain benchMap.vmap.burrow.readAt 10000 (benchMap.at 0).now = true ∧
    dueAgain benchMap.vmap.burrow.probeAt 50000 (benchMap.at 0).now = true ∧
    benchMap.vmap.burrow.suspects.contains benchMap.vmap.burrow.scanRow = false ∧
    benchMap.vmap.burrow.removed.contains benchMap.vmap.burrow.scanRow = false ∧
    benchMap.vmap.burrow.urgent.contains 5 = false ∧ benchMap.vmap.burrow.badResult.contains 5 = false ∧
    ({ benchMap.vmap.burrow with urgent := [5] } : BurrowState).urgent = [5] ∧
    benchMap.vmap.burrow.urgent = [] ∧ benchMap.vmap.burrow.rebuilding.contains benchMap.vmap.burrow.scanRow = false ∧
    (let w := benchMap.vmap.burrow.shadowRow benchMap.vmap.burrow.scanRow
     (w.valid = w.valid ∧ w.key = w.key ∧ w.mask = w.mask) ∧ w.valid ≠ !w.valid) ∧
    benchMap.vmap.burrow.probe + 1 < benchMap.vmap.burrow.probeKeys.length := by decide +kernel

/-- A row with every bit cared for. -/
def benchRow (k : DWord) : BurrowRow := { key := k, mask := 0xFFFFFFFFFFFFFFFF, result := 0 }

/-- A Burrow of `n` live rows alike. -/
def benchRows (n : Nat) (k : DWord) : BurrowState := { rows := List.replicate n (0, benchRow k) }

theorem benchRows_live (n : Nat) (k : DWord) : (benchRows n k).live = List.replicate n (0, benchRow k) := by
  simp [BurrowState.live, benchRows, benchRow, BurrowState.logical]

theorem benchRows_free (n : Nat) (k : DWord) : (benchRows n k).freeCount = 4096 - n := by
  have h : (benchRows n k).removed = [] := rfl
  simp [BurrowState.freeCount, benchRows_live, h, Config.burrowRows]

theorem benchRows_block0 (n : Nat) : (benchRows n 0).block = none := by
  simp only [BurrowState.block, benchRows_live, List.filter_replicate]
  rw [if_neg (by decide)]
  simp [firstSome, least]

theorem benchRows_block1 (n : Nat) (hn : 8 ≤ n) : (benchRows n 0x1000000000000000).block.isSome = true := by
  have h : (benchRows n 0x1000000000000000).inBlock 20 0 = List.replicate n 0 := by
    simp only [BurrowState.inBlock, benchRows_live, List.filter_replicate]
    rw [if_pos (by decide)]
    simp
  simp only [BurrowState.block, benchRows_live, List.filter_replicate]
  rw [if_pos (by decide)]
  simp only [List.map_replicate, List.filter_replicate, firstSome]
  rw [show (benchRow 0x1000000000000000).key.toNat % 2 ^ 32 / 2 ^ (32 - 20) = 0 from by decide, h]
  obtain ⟨m, rfl⟩ : ∃ m, n = m + 1 := ⟨n - 1, by omega⟩
  simp [hn, least, List.replicate_succ]

theorem test_hyp_CacheAndBurrowKeepTheirTables_consolidate :
    ((benchRows 4040 0).freeCount < 64 ∧ (benchRows 4040 0).block = none) ∧
    (benchRows 4040 0x1000000000000000).freeCount < 64 ∧ (benchRows 4040 0x1000000000000000).block.isSome = true :=
  ⟨⟨by rw [benchRows_free]; decide, benchRows_block0 _⟩, by rw [benchRows_free]; decide, benchRows_block1 _ (by decide)⟩

theorem test_hyp_PaceAndBridges :
    (let u := bench.updPace fun x => { x with chains := Vector.replicate 6 { since := 0 } }
     u.chainOn 0 = true ∧ (u.pace.chains[(0 : Fin 6)]).since + 10000 ≤ u.now ∧ (u.pace.chains[(0 : Fin 6)]).faulty = false ∧
       0 < 4000) ∧
    State.reset.chainOn 0 = false ∧ bridgeExists 1 = true ∧ bench.pwr.pllLost.contains .afe = false ∧
    (let s := bench.updPwr fun w => { w with pllLost := [.afe] }
     s.pwr.pllLost.contains .afe = true ∧ s.islandHeld 1 = true) ∧ bench.islandHeld 1 = false ∧
    (canOverflow 1 = true ∧ (bench.bridge 1).armed = true ∧ bench.receiverPace 1 < 1000) ∧
    (let u := bench.updPace fun x => { x with chains := Vector.replicate 6 { latest := 1000 } }
     1000 ≤ u.receiverPace 1) ∧
    (({ number := 1, armed := true } : Bridge).words.length + [1, 2].length ≤ bridgeDepth 1) ∧
    ({ number := 1, armed := true, words := List.replicate 32 0 } : Bridge).full = true := by decide

theorem test_hyp_PowerTransitions :
    (bench.pwr.running = none ∧ bench.pwr.wake = none ∧ bench.pwr.pfStep = 0) ∧
    (bench.updPwr fun w => { w with pend := some .doze }).pwr.pend = some .doze ∧
    (let s := bench.updPwr fun w => { w with pending := some .doze }
     s.pwr.pend = none ∧ s.pwr.pending = some .doze) ∧
    (let s := bench.updPwr fun w => { w with step := some .dozeToRun }
     s.pwr.step = some .dozeToRun ∧ (s.at 0).stepDone .dozeToRun = true) ∧
    (let s := bench.updPwr fun w => { w with step := some .dozeToPark }
     s.pwr.step = some .dozeToPark ∧ (s.at 0).stepDone .dozeToPark = false) ∧
    (let s := (State.reset.updPwr fun w => { w with step := some (.exiting true) }).updPins fun p => { p with pgood := false }
     s.pwr.step = some (.exiting true) ∧ s.pwr.railMain = true ∧ s.pins.pgood = false ∧
       s.pwr.exitAt + 10000000 ≤ (s.at 10000000).now ∧ s.pwr.railFails = 0 ∧ linkTrains 160 8 = true) ∧
    (1999 < 2000 ∧ ((bench.at 0).pinEdge 0 2000).2 = true ∧ State.reset.pwr.running = none ∧ State.reset.pwr.state ≠ .run ∧
      ((State.reset.at 0).pinEdge 0 2000).2 = true ∧ State.reset.pwr.pfStep = 0) ∧
    (((bench.at 0).updPins fun p => { p with pssel := true }).pinEdge 2 2000).2 = true ∧ bench.holdsAwake = false ∧
    (benchClip.updRcd fun r => { r with clip := r.clip.map fun c => { c with prof := { c.prof with holdAwake := true } } }
      ).holdsAwake = true ∧
    (let s := State.reset.updPwr fun w => { w with wake := some .wake1 }
     s.pwr.wake = some .wake1 ∧ s.pwr.running = none ∧ s.pwr.state ≠ .run ∧ s.pwr.pending ≠ some .run) ∧
    (bench.func 3).ready = true ∧ (2 : FnId) ≠ 3 ∧
    (let s := State.reset.updPwr fun w => { w with railRetry := true }
     s.pwr.railRetry = true ∧ s.pwr.exitAt + 100000000 ≤ (s.at 100000000).now) := by decide

theorem test_hyp_PowerFailures :
    (499 < 500 ∧ 1000 ≤ 1000 ∧ bench.pwr.pfStep = 0 ∧ bench.pwr.state = .run) ∧
    (State.reset.pwr.pfStep = 0 ∧ State.reset.pwr.state ≠ .run ∧ State.reset.pwr.state ≠ .doze) ∧
    (let s := bench.updPwr fun w => { w with pfStep := 4 }
     s.pwr.pfStep = 4 ∧ s.pwr.pfAt + 5500000 ≤ (s.at 0).now) ∧
    (bench.updPins fun p => { p with pwrfail := true }).pins.pwrfail = true ∧
    (let s := bench.updPwr fun w => { w with railCore := true, railMain := true }
     s.pins.pgood = true ∧ s.pwr.railsUp ≠ [] ∧ s.pwr.state ≠ .torpor ∧ s.pwr.state ≠ .hibernate ∧
       (s.at 0).inPowerFail = false) := by decide

/-- 32 bytes of a link key with their CRC. -/
def benchLk : List Byte := Word.zeros 32 ++ Word.toBytesLE 4 (crc32 (Word.zeros 32)).toNat

theorem test_hyp_QuillAndVoleKeepTheirRecords :
    (bench.portsServed = true ∧ bench.vole.uartBusy = false) ∧
    (bench.updQuill fun q => { q with lkLocked := true }).quill.lkLocked = true ∧ bench.quill.lkLocked = false ∧
    bench.quill.lkBad = false ∧ benchLk.length = 36 ∧ (crc32 (benchLk.take 32)).toNat = Word.fieldLE benchLk 32 4 ∧
    bench.quill.rbgOk = true ∧ bench.vole.windowAt + 1000000000 ≤ (bench.at 0).now ∧
    bench.quill.unlock = 0 ∧ (bench.updQuill fun q => { q with unlock := 1 }).quill.unlock ≠ 0 ∧ bench.vole.alive = true ∧
    ((-320 : Int) ≤ -320 ∧ (959 : Int) < 960) ∧
    (let r : LogRecord := { seq := 1, boot := 1, timeUs := 0, code := 0x0102, count := 1, args := [] }
     let s := bench.updVole fun v => { v with queue := [r] }
     s.vole.queue = [r] ∧ s.vole.alive = true ∧ s.vole.frozen = false ∧ s.vole.badCount ≤ 16) ∧
    bench.vole.windowDropped = 0 ∧ (bench.updVole fun v => { v with windowDropped := 1 }).vole.windowDropped ≠ 0 := by
  decide +kernel

/-- A section that is its header alone: mark, version, length and the CRC of nothing. -/
def benchArchive : List Byte :=
  Word.toBytesLE 4 0x52434C41 ++ Word.toBytesLE 4 1 ++ Word.toBytesLE 4 16 ++ Word.toBytesLE 4 (crc32 []).toNat

theorem test_hyp_ManagementPortsAnswer :
    bench.portsServed = true ∧ bench.vole.uartBusy = false ∧ bench.vole.pointer.toNat < 128 ∧ bench.vole.alive = true ∧
    (bench.updVole fun v => { v with unreachable := [0x48] }).vole.unreachable.contains 0x48 = true ∧
    (bench.updVole fun v => { v with uartBusy := true }).portsServed = true ∧
    ({ bench.vole with pmic := some (0x48, 0, 2, 0, 1) } : VoleState).pmic = some (0x48, 0, 2, 0, 1) ∧
    (Word.toBytesLE 4 921600).length = 4 ∧ Word.fieldLE (Word.toBytesLE 4 921600) 0 4 = 921600 ∧ bench.mounted = false ∧
    benchRO.mounted = true ∧ (5 ≤ (Word.zeros 5).length ∧ Word.fieldLE (Word.zeros 5) 0 4 + (5 - 4) ≤ 262144) ∧
    regionValid (({ bench.vole with archiveData := [(0, Word.zeros 16)] } : VoleState).archiveImage) = false ∧
    regionValid (({ bench.vole with archiveData := [(0, benchArchive)] } : VoleState).archiveImage) = true ∧ bench.uartServed = true ∧ bench.host.fetchStopped = false := by
  decide +kernel

theorem test_hyp_CalibrationTimeAndRegisters :
    (let s := bench.setUnit 1 .a 3 .pending
     (s.calUnit 1 .a 3).status.waits = true ∧ (s.at 0).needsDone 1 .a 3 = true ∧ s.pwr.state = .run ∧
       s.pwr.step ≠ some .runToDoze ∧ (s.at 0).failing 1 .a ≠ 0 ∧ (s.at 0).failing 6 .a = 0) ∧
    (let s := bench.setUnit 6 .a 0 .running
     (s.calUnit 6 .a 0).status.runs = true ∧ (s.at 0).discards 6 .a 0 { vals := [0] } = false ∧
       (s.at 0).discards 6 .a 0 { vals := [0], flag := true } = true ∧ (s.at 0).calibrateOf 6 .a 0 = none ∧
       Nat.land (Nat.land 128 (Nat.lor (stepNeeds 6) 0)) (Nat.lor ((s.at 0).falseMask .a) 16) = 0) ∧
    (let s := (bench.setUnit 6 .a 0 .running).updQuill fun q => { q with motorRelease := false }
     Nat.land (Nat.land 128 (Nat.lor (stepNeeds 6) 0)) (Nat.lor ((s.at 0).falseMask .a) 16) ≠ 0) ∧
    (let s := bench.updCal fun c => { c with groupM := false }
     (s.at 0).doorClosed.doorHolds = true ∧ 2 ≤ (s.at 0).doorClosed.mnt.magazine ∧
       (s.at 0).doorClosed.cal.groupM = false ∧ (s.at 0).doorClosed.quill.bootStep = 11 ∧
       (s.at 0).doorClosed.quill.recovery = false) ∧
    (let s := bench.updSync fun y => { y with lastEdge := some 4996000000, syncAt := some 0, bitRate := 2000 }
     4996000000 + 4000000 ≤ (s.at 0).now ∧ (s.at 0).now < 4996000001 + 4000000 ∧ s.sync.syncAt = some 0 ∧
       0 + bitTime 240 s.sync.bitRate ≤ (s.at 0).now) ∧
    (1700 ≤ 1700 ∧ 2700 ≤ 2700) ∧ bench.coreOn = true ∧ (1 % 4 ≠ 0 ∧ 1 < 0x10000) ∧
    (bench.at 0).stepWorked 6 = true ∧ (0x1000 ≤ 0x1000 ∧ 0x9000 ≤ 0x9000) ∧ (bench.func 3).ready = true ∧ (State.reset.func 3).ready = false ∧ (0 : FnId) ≠ 3 ∧
    (let s := bench.updFunc 1 fun u => { u with captures := { u.captures with commitFrames := some 9 } }
     (s.func 1).captures.commitFrames = some 9) ∧ bench.servoOn = true := by decide +kernel
/-! ## Worked cases of the spec -/

/-- Slot 0 of the worked case of 10_loop_engine. -/
def focusSlot : LoopSlot :=
  { enable := true, mode := .run, ePrev := 1000, dPrev := 500, iPrev := 2000000
    cfg := { supervision := 2, derivOn := true, outShift := 3, kp := 12288, ki := 64, kd := 24576, af := 19661
             uMax := 32767, uMin := 0x8001, iLim := 8192, supTime := 64, rdyLim := 3277, div := 1 } }

/-- First sample of the worked case: u = 7,707, I = 2,076,800, D = 450, SUP_COUNT 0. -/
theorem test_loop_first_sample :
    let r := (focusSlot.sample (-1200) 0 32768).1
    q r.out = 7707 ∧ r.iPrev = 2076800 ∧ r.dPrev = 450 ∧ r.supCount = 0 := by decide

/-- Second sample: the output saturates, the integral does not move, SUP_COUNT becomes 1. -/
theorem test_loop_second_sample :
    let r := ((focusSlot.sample (-1200) 0 32768).1.sample (-14000) 0 32768).1
    q r.out = 32767 ∧ r.iPrev = 2076800 ∧ r.supCount = 1 := by decide

/-- The drive of the worked case of 18_balls_supplies. -/
theorem test_actuator_code : dacCode 7707 = 10118 ∧ dacCode 32767 = 16383 := by decide

/-- The worked case of 01_hendun_medium: slot 1,452 of Z05 and the sector's address. -/
theorem test_slot_and_address :
    slotStart 5 1452 = (115777, 472) ∧ posOf 1452 = 4 ∧ memberOf 1452 7 = 1 ∧ psaOf .a 0 5 40 1 7 4 = 0x014509D0 := by decide

/-- The sector of the worked case of 08_write_lanes. -/
theorem test_verify_address : psaOf .a 0 5 40 2 11 2 = 0x014512C8 ∧ memberOf 1446 11 = 2 ∧ posOf 1446 = 2 := by decide

/-- The cache sets of the worked case of 06_volume_map_burrow. -/
theorem test_cache_sets :
    cacheSet 0x3579BD80 = 24 ∧ cacheTag 0x3579BD80 = 0x3579 ∧ cacheSet 0x357ABD80 = 27 ∧ cacheTag 0x357ABD80 = 0x357A := by
  decide

/-- The rate of the worked case of 12_handshake_fabric. -/
theorem test_pace_rate : paceRate 968 = 3171 ∧ paceRate 1001 = 3280 ∧ paceRate 1100 = 3604 := by decide

/-- The seek of the worked case of 11_spindle_sled_moves: 20.5 mm take 76.25 ms. -/
theorem test_sled_profile : profileTime {} 20500000 = 76250000 := by decide

/-- The check value of CRC-32 that the standard publishes for the digits 1 to 9. -/
theorem test_crc : crc32 [0x31, 0x32, 0x33, 0x34, 0x35, 0x36, 0x37, 0x38, 0x39] = 0xCBF43926 := by decide +kernel

/-- Frame of the worked case of 01_hendun_medium: 61,931,520 bytes are 1,890 sectors. -/
theorem test_frame_sectors : sectorsOf 61931520 = 1890 := by decide

/-- The timecode field of the worked case of 19_electrical_timing: 10:42:17:08. -/
theorem test_timecode_field : timecodeField { hours := 10, minutes := 42, seconds := 17, frames := 8, drop := false } = 0x10421708 := by
  decide

/-- Table 18.1: 1,700 balls, of which 470 are supply and 634 ground. -/
theorem test_balls : (ballGroups.map (·.balls)).sum + supplyBalls + groundBalls = 1700 := by decide

/-- A pattern is found at its place in a window, without a difference (R335). -/
theorem test_pattern_is_found :
    findPattern [true, false, false, true] 0 4 [false, false, true, false, false, true, false] = some 2 := by decide

/-- The doorbells read 0, and the weights read through every function (R84, R91). -/
theorem test_reads :
    bench.readBar0 0 0x1000 = 0 ∧ bench.readBar0 1 0x400 = 0x01020408 := by decide

/-- The lock of the worked case of 03_host_link_tenants: F2 queue 3 holds lock 12 with epoch 5, F1 queue 0 waits. -/
def benchGuard : State := (bench.updFunc 2 fun u => { u with epoch := 5 }).updLock 12 fun l => { l with
  held := true, ownerFn := 2, ownerQ := 3, ownerEpoch := 5
  waiters := [{ org := { fn := 1, q := 0 }, cid := 9, opcode := 0x28, deadline := 5500000000 }] }

/-- The FLR of F2 frees the lock with ABANDONED set and grants it to F1 queue 0. -/
theorem test_flr_grants_the_lock :
    ((answered (exec (.functionLevelReset 5040000000 2) benchGuard)).map fun u =>
      ((u.lock 12).held, (u.lock 12).abandoned, (u.lock 12).ownerFn, (u.lock 12).ownerQ, (u.func 2).epoch)) =
      some (true, true, 1, 0, 6) := by decide +kernel

/-- The FSYNC edges of the worked case of 19_electrical_timing: one 2.5 ms after an accepted one is ignored. -/
theorem test_fsync_spurious_edge :
    ((answered (exec (.fsyncEdge 5022500000 1000 0) (bench.updSync fun y => { y with
      lastEdge := some 5020000000 }))).map fun u => (u.sync.ignored, u.sync.lastEdge)) = some (1, some 5020000000) := by decide

/-- A tail doorbell beyond the depth is ignored with DBERR (R85). -/
theorem test_doorbell_beyond_depth :
    ((answered (exec (.sqTailDoorbell 0 0 0 64) bench)).map fun u => ((u.queue 0 0).dberr, (u.queue 0 0).sqTail)) =
      some (true, 0) := by decide

/-- A step on reset with a doorbell of a function that is not ready: the write is discarded (R698). -/
theorem test_not_ready_discards :
    ((answered (step { State.reset with pending := [.sqTailDoorbell 0 0 0 1] })).map fun u =>
      ((u.queue 0 0).sqTail, u.host.sent)) = some (0, [.discarded 0]) := by decide

/-! ## Operands that WellFormed refuses -/

/-- A call with a SGL flag and two elements. -/
def benchList (count : Nat) : Call :=
  { benchCall 0 { benchEntry 0x12 65536 [5, 0] with sgl := true, sglCount := BitVec.ofNat 32 count } with
    sgl := Word.toBytesLE 8 0 ++ Word.toBytesLE 8 32768 ++ Word.toBytesLE 8 65536 ++ Word.toBytesLE 8 32768 }

theorem test_wf_calls :
    (benchList 2).wf = true ∧ (benchList 3).wf = false ∧
    ({ benchCall 0 (benchEntry 0x08 40 []) with data := List.replicate 41 0 } : Call).wf = false ∧
    ({ benchCall 0 (benchEntry 0x08 40 []) with mapAddr := 0x50000000 } : Call).wf = false ∧
    ({ benchCall 0 (benchEntry 0x08 40 []) with listErr := some 0, dataErr := some 0 } : Call).wf = false ∧
    (Instr.keyLoad 0 { benchCall 0 (benchEntry 0x08 40 []) with data := List.replicate 41 0 }).wf = false := by decide

theorem test_wf_fetch :
    (Instr.commandFetch 0 [entryBytes (benchEntry 1 4096 [])]).wf = true ∧ (Instr.commandFetch 0 [[]]).wf = false ∧
    (Instr.commandFetch 0 (List.replicate 5 (entryBytes (benchEntry 1 4096 [])))).wf = false := by decide

theorem test_wf_measures :
    (Instr.verifyVerdict 0 .a 3 benchGood).wf = true ∧
    (Instr.verifyVerdict 0 .a 3 { benchGood with cwErrs := [] }).wf = false ∧
    (Instr.verifyVerdict 0 .a 3 { benchGood with headerErrs := 1089 }).wf = false ∧
    (Instr.verifyVerdict 0 .a 3 { benchGood with cwErrs := List.replicate 8 39169 }).wf = false ∧
    (Instr.ldpcDecodeDone 0 .a 3 0 5 (some [1]) []).wf = false ∧ (Instr.ldpcDecodeDone 0 .a 3 0 5 none []).wf = true ∧
    (Instr.ldpcDecodeDone 0 .a 3 0 5 (some (Word.zeros 4096)) []).wf = true ∧
    (Instr.ddr5ReadCorrected 0 5 zeroBeats false).wf = true ∧
    (Instr.ddr5ReadCorrected 0 5 (List.replicate 15 (List.replicate 20 0)) false).wf = false ∧
    (Instr.scrubRead 0 (List.replicate 16 [0]) false).wf = false := by decide +kernel

theorem test_wf_numbers :
    (Instr.paceWindow 0 [1, 2, 3, 4, 5]).wf = false ∧ (Instr.paceWindow 0 [1, 2, 3, 4, 5, 6]).wf = true ∧
    (Instr.capturedFieldRead 0 0 0x104).wf = true ∧ (Instr.capturedFieldRead 0 0 0x10000).wf = false ∧
    (Instr.peerResetAssert 0 0x5C .fabric 0 true).wf = false ∧ (Instr.peerResetDeassert 0 0x5C .fabric).wf = false ∧
    (Instr.bridgeOverflow 0 0x5C).wf = false ∧ (Instr.layerJump 0 .a 12).wf = false ∧ (Instr.layerJump 0 .a 11).wf = true ∧
    (Instr.burrowProbe 0 [4160]).wf = false ∧ (Instr.burrowProbe 0 [4159]).wf = true ∧
    (Instr.ltcFrameDecoded 0 { hours := 23, minutes := 59, seconds := 59, frames := 29, drop := true } 2400).wf = true ∧
    (Instr.ltcFrameDecoded 0 { hours := 23, minutes := 59, seconds := 59, frames := 30, drop := false } 2400).wf = false := by
  decide

end Sys2Proof.Machine
end

/-! PROOF. The medium family (01_hendun_medium): the physical sector address, the codec and its system sectors, slots and
verdicts, stops and resumptions, turnarounds and gap trims. -/

namespace Sys2Proof.Machine

/-! ### The fields of a physical sector address (R30, Table 1.7) -/

section SectorAddress

variable {layer zone group member k : Nat} (h : Head) (b : Beam) (hl : layer < 12) (hz : zone < 24) (hg : group < 512)
  (hm : member < 3) (hk : k < 12)
include hl hz hg hm hk

/-- Every field keeps within its bits, so the address is the plain sum of the shifted fields. -/
theorem psaOf_toNat : (psaOf h layer zone group member b k).toNat =
    Head.num h * 2147483648 + layer * 134217728 + zone * 4194304 + group * 8192 + member * 2048 + b.val * 64 + k * 4 := by
  have hh : Head.num h ≤ 1 := by cases h <;> decide
  have hb : b.val < 18 := b.isLt
  simp only [psaOf, BitVec.toNat_ofNat]
  omega

theorem psaHead_psaOf : psaHead (psaOf h layer zone group member b k) = h := by
  rw [psaHead, psaOf_toNat h b hl hz hg hm hk]
  have hb : b.val < 18 := b.isLt
  cases h with
  | a => exact if_pos (by simp only [Head.num]; omega)
  | b => exact if_neg (by simp only [Head.num]; omega)

theorem psaLayer_psaOf : psaLayer (psaOf h layer zone group member b k) = layer := by
  rw [psaLayer, psaOf_toNat h b hl hz hg hm hk]
  have hb : b.val < 18 := b.isLt
  omega

theorem psaZone_psaOf : psaZone (psaOf h layer zone group member b k) = zone := by
  rw [psaZone, psaOf_toNat h b hl hz hg hm hk]
  have hb : b.val < 18 := b.isLt
  omega

theorem psaGroup_psaOf : psaGroup (psaOf h layer zone group member b k) = group := by
  rw [psaGroup, psaOf_toNat h b hl hz hg hm hk]
  have hb : b.val < 18 := b.isLt
  omega

theorem psaMember_psaOf : psaMember (psaOf h layer zone group member b k) = member := by
  rw [psaMember, psaOf_toNat h b hl hz hg hm hk]
  have hb : b.val < 18 := b.isLt
  omega

theorem psaBeam_psaOf : psaBeam (psaOf h layer zone group member b k) = b := by
  have hb : b.val < 18 := b.isLt
  apply Fin.ext
  rw [psaBeam, psaOf_toNat h b hl hz hg hm hk, Fin.val_ofNat]
  omega

theorem psaPos_psaOf : psaPos (psaOf h layer zone group member b k) = k := by
  rw [psaPos, psaOf_toNat h b hl hz hg hm hk]
  omega

theorem psaOf_reservedBits : (psaOf h layer zone group member b k).toNat % 4 = 0 := by
  rw [psaOf_toNat h b hl hz hg hm hk]
  omega

end SectorAddress

/-- Settles O7, field by field from the sum that the address is. -/
theorem sectorAddressRoundTrip : Obligations.SectorAddressRoundTrip := by
  intro h layer zone group member k b hl hz hg hm hk
  exact ⟨psaHead_psaOf h b hl hz hg hm hk, psaLayer_psaOf h b hl hz hg hm hk, psaZone_psaOf h b hl hz hg hm hk,
    psaGroup_psaOf h b hl hz hg hm hk, psaMember_psaOf h b hl hz hg hm hk, psaBeam_psaOf h b hl hz hg hm hk,
    psaPos_psaOf h b hl hz hg hm hk, psaOf_reservedBits h b hl hz hg hm hk⟩

/-! ### What the time leaves of the views of the record path

`State.at` moves `now` alone, and none of these views reads it. -/

section ViewsAtATime

variable (s : State) (t : Time) (h : Head) (b : Beam)

@[simp] theorem State.at_wh : (s.at t).wh h = s.wh h := by cases h <;> rfl
@[simp] theorem State.at_beam : (s.at t).beam h b = s.beam h b := by cases h <;> rfl
@[simp] theorem State.at_mountedRW : (s.at t).mountedRW = s.mountedRW := rfl
@[simp] theorem State.at_encoding : (s.at t).encoding = s.encoding := rfl
@[simp] theorem State.at_slotDue (n : Nat) : (s.at t).slotDue h n = s.slotDue h n := by cases h <;> rfl
@[simp] theorem State.at_valid50 : (s.at t).valid50 h b = s.valid50 h b := by cases h <;> rfl
@[simp] theorem State.at_dry : (s.at t).dry = s.dry := rfl
@[simp] theorem State.at_reviewWaits : (s.at t).reviewWaits = s.reviewWaits := rfl
@[simp] theorem State.at_excursionFits : (s.at t).excursionFits = s.excursionFits := rfl
@[simp] theorem State.at_servoReady : (s.at t).servoReady h = s.servoReady h := by cases h <;> rfl
@[simp] theorem State.at_atLayerEnd : (s.at t).atLayerEnd h = s.atLayerEnd h := by cases h <;> rfl
@[simp] theorem State.at_trims : (s.at t).trims h b = s.trims h b := by cases h <;> rfl

end ViewsAtATime

/-! ### The LSN counter (R31, R33)

Opening a group and staging sectors leave the LSN due; only a new data sector takes it. -/

@[simp] theorem State.addRecord_mnt (s : State) (r : VolRecord) : (s.addRecord r).mnt = s.mnt := rfl

@[simp] theorem State.stage_nextLsn (s : State) (h : Head) (st : Stripe) (i : Nat) (kind : SectorKind) (lsn : Nat)
    (text : List Byte) : (s.stage h st i kind lsn text).mnt.nextLsn = s.mnt.nextLsn := rfl

@[simp] theorem State.placeCopies_nextLsn (s : State) (h : Head) (n : Nat) :
    (s.placeCopies h n).mnt.nextLsn = s.mnt.nextLsn := by
  induction n generalizing s with
  | zero => rfl
  | succ n ih =>
    rw [State.placeCopies]
    split
    · rfl
    · dsimp only
      repeat' split
      all_goals simp [ih]

@[simp] theorem State.catchUp_mnt (s : State) (h : Head) : (s.catchUp h).mnt = s.mnt := by
  rw [State.catchUp]
  split <;> rfl

@[simp] theorem State.beginGroup_nextLsn (s : State) (h : Head) : (s.beginGroup h).mnt.nextLsn = s.mnt.nextLsn := by
  simp [State.beginGroup]

@[simp] theorem State.openGroup_nextLsn (s : State) (h : Head) : (s.openGroup h).mnt.nextLsn = s.mnt.nextLsn := by
  rw [State.openGroup]
  split <;> simp

theorem State.ensureGroup_nextLsn {s u : State} {h : Head} (he : s.ensureGroup = some (h, u)) :
    u.mnt.nextLsn = s.mnt.nextLsn := by
  rw [State.ensureGroup] at he
  split at he
  · cases he; rfl
  · split at he
    · dsimp only at he
      split at he
      · cases he; simp
      · cases he
    · cases he

@[simp] theorem State.fixOpening_mnt (s : State) (f : Frame) (lsn : Nat) : (s.fixOpening f lsn).mnt = s.mnt := by
  rw [State.fixOpening]
  split <;> rfl

/-- A sector that is encoded takes the LSN due. -/
theorem State.encodeOne_nextLsn {s u : State} {f : Frame} {i lost : Nat} (he : s.encodeOne f i lost = some u) :
    u.mnt.nextLsn = s.mnt.nextLsn + 1 := by
  rw [State.encodeOne] at he
  split at he
  · cases he
  · next h s1 hs1 =>
    have hlsn := State.ensureGroup_nextLsn hs1
    dsimp only at he
    repeat' split at he
    all_goals cases he
    all_goals simp [hlsn]

/-! ### Encoding and system sectors (R51, R53, R210, R274) -/

/-- FRAME_ENCODE where the codec may encode and a frame's data are complete. -/
theorem exec_frameEncode_next (t : Time) (discards : List Nat) {s : State} {f : Frame} {i : Nat} (he : s.encoding = true)
    (hs : s.rcd.stopped = false) (hf : s.nextFrame = some (f, i)) :
    exec (.frameEncode t discards) s =
      .next (((s.at t).endRebuilds.encodeFrame f discards i (sectorsOf f.bytes - i)).publish) := by
  have he1 : (s.at t).endRebuilds.encoding = true := he
  have hs1 : (s.at t).endRebuilds.rcd.stopped = false := hs
  have hf1 : (s.at t).endRebuilds.nextFrame = some (f, i) := hf
  show execFrameEncode t discards s = _
  simp [execFrameEncode, he1, hs1, hf1]

theorem firstSome_nil {α β : Type} (f : α → Option β) : firstSome f [] = none := rfl

theorem firstSome_cons {α β : Type} (f : α → Option β) (x : α) (l : List α) :
    firstSome f (x :: l) = (f x).or (firstSome f l) := by
  rw [firstSome]
  cases f x <;> rfl

/-- SYSTEM_SECTOR_WRITE of a read-write mount: the order in which the sectors that wait are tried (log entry 70). -/
theorem exec_systemSectorWrite (t : Time) {s u : State} (hu : (s.at t).sealIfDue = u) (hm : u.mountedRW = true) :
    exec (.systemSectorWrite t) s = .next (((u.placeRewrite .a).or ((u.placeRewrite .b).or
      (if u.encoding then u.placeRecords.or u.placeAux else none))).getD u) := by
  subst hu
  show execSystemSectorWrite t s = _
  cases he : (s.at t).sealIfDue.encoding <;> simp [execSystemSectorWrite, hm, he, firstSome_cons, firstSome_nil]

/-- Settles O36: the first two clauses are FRAME_ENCODE and the LSN counter, the third the order of SYSTEM_SECTOR_WRITE. -/
theorem encodingAndSystemSectors : Obligations.EncodingAndSystemSectors := by
  intro t s
  refine ⟨fun discards f i he hs hf => exec_frameEncode_next t discards he hs hf,
    fun f i lost u he => State.encodeOne_nextLsn he, fun u => ?_⟩
  intro s2 hm hu
  rw [exec_systemSectorWrite (u := s2) t rfl hm]
  rcases hu with ha | ⟨ha, hb⟩ | ⟨ha, hb, he, hr⟩ | ⟨ha, hb, he, hr, hx⟩
  · simp [ha]
  · simp [ha, hb]
  · simp [ha, hb, he, hr]
  · simp [ha, hb, he, hr, hx]

/-! ### Slots (R19, R24, R65, R690) -/

/-- SLOT_BEGIN with a group open opens no other, and begins the slot where its time has come. -/
theorem exec_slotBegin_open (t : Time) {h : Head} {s : State} (ho : (s.wh h).open3.isSome = true) :
    exec (.slotBegin t h) s =
      .next (if s.mountedRW && (s.at t).slotInTime h then (s.at t).beginSlot h else s.at t) := by
  have hn : (s.wh h).open3.isNone = false := by rw [← Option.not_isSome, ho]; rfl
  show execSlotBegin t h s = _
  simp [execSlotBegin, ho, hn]

/-- The slot is in time while padding after a stop, before the layer's start is known, or within one wedge of its due
moment. -/
theorem State.at_slotInTime_iff (s : State) (t : Time) (h : Head) : (s.at t).slotInTime h = true ↔
    s.rcd.stopped = true ∨ ∀ d, s.slotDue h (s.wh h).slot = some d → (d - ((max s.now t : Nat) : Int)).natAbs ≤ 4823 := by
  simp [State.slotInTime, wedgeNs, Option.all_eq_true]

theorem State.slotDue_of_layerAt_none {s : State} (hl : s.rcd.layerAt = none) (h : Head) (n : Nat) :
    s.slotDue h n = none := by
  rw [State.slotDue, hl]; rfl

/-- A slot in time begins on every beam. -/
theorem exec_slotBegin_inTime (t : Time) {h : Head} {s : State} (ho : (s.wh h).open3.isSome = true)
    (hm : s.mountedRW = true)
    (hd : s.rcd.stopped = true ∨ s.rcd.layerAt = none ∨
      ∃ d, s.slotDue h (s.wh h).slot = some d ∧ (d - ((max s.now t : Nat) : Int)).natAbs ≤ 4823) :
    exec (.slotBegin t h) s = .next ((s.at t).beginSlot h) := by
  have hin : (s.at t).slotInTime h = true := by
    rw [State.at_slotInTime_iff]
    rcases hd with hs | hl | ⟨d, hd, hle⟩
    · exact .inl hs
    · exact .inr fun d hd => by rw [State.slotDue_of_layerAt_none hl] at hd; cases hd
    · exact .inr fun e he => by rw [hd] at he; cases he; exact hle
  rw [exec_slotBegin_open t ho, hm, hin]
  rfl

/-- A slot out of its time does not begin. -/
theorem exec_slotBegin_elsewhen (t : Time) {h : Head} {s : State} {d : Int} (ho : (s.wh h).open3.isSome = true)
    (hs : s.rcd.stopped = false) (hd : s.slotDue h (s.wh h).slot = some d)
    (hgt : 4823 < (d - ((max s.now t : Nat) : Int)).natAbs) : exec (.slotBegin t h) s = .next (s.at t) := by
  have hout : (s.at t).slotInTime h = false := by
    rw [← Bool.not_eq_true, State.at_slotInTime_iff]
    rintro (hs' | hle)
    · rw [hs] at hs'; cases hs'
    · exact absurd (hle d hd) (Nat.not_le.2 hgt)
  rw [exec_slotBegin_open t ho, hout, Bool.and_false]
  rfl

/-! ### Verdicts (R49, R303, R304, R309, R322) -/

/-- A judged sector leaves its head's staging (R54). -/
def State.leaveStaging (s : State) (h : Head) (x : Sector) : State :=
  s.updWh h fun w => { w with sectors := w.sectors.erase x }

section Verdicts

variable {s : State} {t : Time} {h : Head} {b : Beam} {m : VerifyMeasure} {x : Sector}
  (hx : (s.wh h).sectors.find? (fun y => y.beam == b && y.inFlight && y.judged (max s.now t)) = some x)
include hx

theorem exec_verifyVerdict_invalid (hv : s.valid50 h b = false) :
    exec (.verifyVerdict t h b m) s = .next (((s.at t).retireBeam h b 3).publish.settleUnmount) := by
  show execVerifyVerdict t h b m s = _
  simp [execVerifyVerdict, hx, hv]

theorem exec_verifyVerdict_passes (hv : s.valid50 h b = true) (hd : x.doomed = 0)
    (hp : (s.beam h b).passes x.kind m = true) :
    exec (.verifyVerdict t h b m) s = .next (((((s.at t).leaveStaging h x).passSector x).countVerdict h b false 0).trimBeta
      h b m.beta).publish.settleUnmount := by
  show execVerifyVerdict t h b m s = _
  simp [execVerifyVerdict, hx, hv, hd, hp, State.leaveStaging]

theorem exec_verifyVerdict_fails (hv : s.valid50 h b = true) (hd : x.doomed = 0)
    (hp : (s.beam h b).passes x.kind m = false) :
    exec (.verifyVerdict t h b m) s = .next (((((s.at t).leaveStaging h x).failSector x 1).countVerdict h b true 1).trimBeta
      h b m.beta).publish.settleUnmount := by
  show execVerifyVerdict t h b m s = _
  simp [execVerifyVerdict, hx, hv, hd, hp, State.leaveStaging]

theorem exec_verifyVerdict_doomed (hv : s.valid50 h b = true) (hd : x.doomed ≠ 0) :
    exec (.verifyVerdict t h b m) s = .next ((((s.at t).leaveStaging h x).failSector x x.doomed).countVerdict h b true
      x.doomed).publish.settleUnmount := by
  have hb : (x.doomed == 0) = false := beq_eq_false_iff_ne.2 hd
  show execVerifyVerdict t h b m s = _
  simp [execVerifyVerdict, hx, hv, hd, hb, State.leaveStaging]

end Verdicts

/-- Settles O37, from the moments at which a slot begins and the four verdicts. -/
theorem slotsAndVerdicts : Obligations.SlotsAndVerdicts := by
  intro t h s n
  refine ⟨fun ho hm hd => ⟨fun hlt => ?_, fun hge => ?_⟩,
    fun d ho hs hd hgt => exec_slotBegin_elsewhen t ho hs hd hgt,
    fun b m x hx => ⟨exec_verifyVerdict_invalid hx, fun hv => ⟨exec_verifyVerdict_passes hx hv,
      exec_verifyVerdict_fails hx hv, exec_verifyVerdict_doomed hx hv⟩⟩⟩
  · rw [exec_slotBegin_inTime t ho hm hd, State.beginSlot, State.at_wh, if_pos hlt]
  · rw [exec_slotBegin_inTime t ho hm hd, State.beginSlot, State.at_wh, if_neg (Nat.not_lt.2 hge)]

/-! ### Stops, resumptions and excursions (R40, R41, R575 to R577) -/

theorem exec_streamDry_dry (t : Time) {s : State} (hm : s.mountedRW = true) (hs : s.rcd.stopped = false)
    (hd : s.dry = true) : exec (.streamDry t) s = .next (s.at t).stopRecording := by
  show execStreamDry t s = _
  simp [execStreamDry, hm, hs, hd]

/-- Both heads are able to write and have no group in progress (R41). -/
def State.headsIdle (s : State) : Bool := bothHeads.all fun h => s.mayWrite h && (s.wh h).open3.isNone

theorem exec_recordingResume_idle (t : Time) {s : State} (he : s.encoding = true) (hs : s.rcd.stopped = true)
    (hx : s.rd.excursion = none) (hi : (s.at t).headsIdle = true) :
    exec (.recordingResume t) s = .next (s.at t).resume := by
  show execRecordingResume t s = _
  rw [State.headsIdle] at hi
  simp only [execRecordingResume, hi]
  simp [he, hs, hx]

theorem State.excursionFits_of_clip {s : State} {c : OpenClip} (hc : s.rcd.clip = some c)
    (hf : s.occupancy + c.prof.rate + s.params.reviewMarginMib * 1048576 ≤ s.warnLevel) : s.excursionFits = true := by
  rw [State.excursionFits, hc]
  exact decide_eq_true hf

theorem State.boundary_of_idle {s : State} (hb : (s.wh .a).open3 = none ∨ (s.wh .b).open3 = none) :
    (bothHeads.any fun h => (s.wh h).open3.isNone) = true := by
  rcases hb with ha | hb
  · simp [bothHeads, ha]
  · simp [bothHeads, hb]

theorem exec_excursionStart_fits (t : Time) {s : State} (hx : s.rd.excursion = none)
    (hb : (s.wh .a).open3 = none ∨ (s.wh .b).open3 = none) (hw : s.reviewWaits = true) (hf : s.excursionFits = true)
    (hm : s.mountedRW = true) :
    exec (.excursionStart t) s = .next (((s.at t).stopRecording.updRcd fun r => { r with turnAt := none }).updRd fun r =>
      { r with excursion := some (max s.now t), scurryA := false, scurryB := false }) := by
  show execExcursionStart t s = _
  simp [execExcursionStart, hx, State.boundary_of_idle hb, hw, hf, hm]

/-- EXCURSION_END in an excursion: recording goes on where it may. -/
theorem exec_excursionEnd_some (t : Time) {s : State} (hx : s.rd.excursion.isSome = true) :
    exec (.excursionEnd t) s = .next (if s.encoding && s.rcd.stopped && (s.at t).headsIdle then
      ((s.at t).updRd fun r => { r with excursion := none }).resume
      else (s.at t).updRd fun r => { r with excursion := none }) := by
  have hn : (s.at t).rd.excursion.isNone = false := by rw [State.at_rd, ← Option.not_isSome, hx]; rfl
  show execExcursionEnd t s = _
  rw [execExcursionEnd]
  simp only [hn]
  rfl

/-- Settles O38, from the guards of the four commands. -/
theorem recordingStopsAndResumes : Obligations.RecordingStopsAndResumes := by
  intro t s stopped ready early
  refine ⟨exec_streamDry_dry t, exec_recordingResume_idle t,
    fun c hx hb hw hc hf hm => exec_excursionStart_fits t hx hb hw (State.excursionFits_of_clip hc hf) hm,
    fun hx => ⟨fun hno => ?_, fun he hs hi => ?_⟩⟩
  · have hgo : (s.encoding && s.rcd.stopped && (s.at t).headsIdle) = false := by
      rcases hno with he | hs | hi
      · rw [he]; rfl
      · rw [hs, Bool.and_false]; rfl
      · exact Bool.and_eq_false_iff.2 (.inr hi)
    rw [exec_excursionEnd_some t hx, hgo]
    rfl
  · have hi' : (s.at t).headsIdle = true := hi
    rw [exec_excursionEnd_some t hx, he, hs, hi']
    rfl

/-! ### The layer turnaround (R29, R432, R433) -/

/-- The start of the new layer lies 54 revolutions after the last band of the old one: 8,742 revolutions in ns (R29). -/
theorem turnaroundNs_eq : turnaroundNs = 48566666666 := by norm_num [turnaroundNs]

theorem exec_layerTurnaround_atEnd (t : Time) (okA okB : Bool) (gains : List (LoopId × Nat)) {s : State}
    (hm : s.mountedRW = true) (ha : s.atLayerEnd .a = true) (hb : s.atLayerEnd .b = true)
    (he : (s.wh .a).atEnd = true ∨ (s.wh .b).atEnd = true) (hl : (s.wh .a).layer < 11) (hx : s.rd.excursion = none) :
    exec (.layerTurnaround t okA okB gains) s =
      .next ((gains.foldl State.gainTrim (((s.at t).turnHead .a okA).turnHead .b okB)).updRcd fun r => { r with
        turnAt := some (r.turnAt.getD (s.at t).now), layerAt := r.layerAt.map (· + 48566666666) }) := by
  have he' : ((s.wh .a).atEnd || (s.wh .b).atEnd) = true := by rw [Bool.or_eq_true]; exact he
  show execLayerTurnaround t okA okB gains s = _
  simp only [execLayerTurnaround, State.at_mountedRW, State.at_atLayerEnd, State.at_wh, State.at_rd, hm, ha, hb, he',
    decide_eq_true hl, hx, Option.isNone_none, Bool.and_true, if_true, turnaroundNs_eq]
  rfl

theorem exec_turnaroundTimeout_late (t : Time) {s : State} {a : Time} (ha : s.rcd.turnAt = some a)
    (hle : a + 290000000 ≤ (s.at t).now) :
    exec (.turnaroundTimeout t) s = .next (if s.servoReady .a && s.servoReady .b then
      (s.at t).updRcd fun r => { r with turnAt := none }
      else ((s.at t).updRcd fun r => { r with turnAt := none }).stopIfRecording) := by
  have hle' : a + Config.ms 290 ≤ (s.at t).now := hle
  show execTurnaroundTimeout t s = _
  simp only [execTurnaroundTimeout, State.at_rcd, ha, if_pos hle']
  rfl

/-! ### Gap trims (R299, R300, R550, Table 15.4) -/

section Trims

variable {s : State} (t : Time) {h : Head} {b : Beam} (ht : s.trims h b = true)
include ht

/-- AFE_OFFSET_TRIM puts the code asked for in force where it lies within 32 LSB of the calibrated one (log entry 97). -/
theorem exec_afeOffsetTrim (dev want : Int)
    (hw : want = if 32 < dev then (s.beam h b).adcOffset - 1 else if dev < -32 then (s.beam h b).adcOffset + 1
      else (s.beam h b).adcOffset) :
    exec (.afeOffsetTrim t h b dev) s = .next (if 32 < (want - (s.beam h b).calOffset).natAbs then (s.at t).trimLost h b 0
      else ((s.at t).updBeam h b fun x => { x with adcOffset := want }).trimKept h b 0) := by
  subst hw
  show execAfeOffsetTrim t h b dev s = _
  simp only [execAfeOffsetTrim, State.at_trims, State.at_beam, ht, Bool.not_true, Bool.false_eq_true, if_false]

/-- A mean within 2 % of the target needs no step. -/
theorem exec_readPowerTrim_near (mean : Nat) (hhi : mean * 100 ≤ (s.beam h b).readTarget * 102)
    (hlo : (s.beam h b).readTarget * 98 ≤ mean * 100) :
    exec (.readPowerTrim t h b mean) s =
      .next (((s.at t).updBeam h b fun x => { x with readCode := (s.beam h b).readCode }).trimKept h b 1) := by
  have hoff : ¬ 2 * (s.beam h b).readTarget < 100 * ((mean : Int) - (s.beam h b).readTarget).natAbs := by omega
  show execReadPowerTrim t h b mean s = _
  simp [execReadPowerTrim, ht, hoff]

/-- A mean more than 2 % off the target asks for one step of the code towards it. -/
theorem exec_readPowerTrim_off (mean want : Nat)
    (hoff : mean * 100 < (s.beam h b).readTarget * 98 ∨ (s.beam h b).readTarget * 102 < mean * 100)
    (hw : want = if mean < (s.beam h b).readTarget then min 1023 ((s.beam h b).readCode + 1)
      else (s.beam h b).readCode - 1) :
    exec (.readPowerTrim t h b mean) s =
      .next (if 15 * (s.beam h b).calRead < 100 * ((want : Int) - (s.beam h b).calRead).natAbs then (s.at t).trimLost h b 1
        else ((s.at t).updBeam h b fun x => { x with readCode := want }).trimKept h b 1) := by
  have hoff' : 2 * (s.beam h b).readTarget < 100 * ((mean : Int) - (s.beam h b).readTarget).natAbs := by omega
  subst hw
  show execReadPowerTrim t h b mean s = _
  simp only [execReadPowerTrim, State.at_trims, State.at_beam, ht, decide_eq_true hoff', Bool.not_true,
    Bool.false_eq_true, if_false, Bool.true_and, decide_eq_true_eq]

theorem exec_laserReferenceTrim_lost (slope : Nat)
    (hs : 30 * (s.beam h b).calSlope < 100 * ((slope : Int) - (s.beam h b).calSlope).natAbs) :
    exec (.laserReferenceTrim t h b slope) s = .next ((s.at t).trimLost h b 2) := by
  show execLaserReferenceTrim t h b slope s = _
  simp only [execLaserReferenceTrim, State.at_trims, State.at_beam, ht, Bool.not_true, Bool.false_eq_true, if_false,
    if_pos hs]

/-- A slope within 30 % sets the starting codes, or retires the beam whose WRITE code departs by more than 12 % (R301). -/
theorem exec_laserReferenceTrim_kept (slope w m : Nat)
    (hs : 100 * ((slope : Int) - (s.beam h b).calSlope).natAbs ≤ 30 * (s.beam h b).calSlope)
    (hw : w = min 1023 (Config.startCode slope (s.beam h b).calSlope (s.beam h b).writeCode))
    (hm : m = min 1023 (Config.startCode slope (s.beam h b).calSlope (s.beam h b).midCode)) :
    exec (.laserReferenceTrim t h b slope) s =
      .next (if 12 * (s.beam h b).calWrite < 100 * ((w : Int) - (s.beam h b).calWrite).natAbs then
        ((s.at t).trimKept h b 2).retireBeam h b 2
        else ((s.at t).trimKept h b 2).updBeam h b fun x => { x with writeCode := w, midCode := m }) := by
  subst hw hm
  show execLaserReferenceTrim t h b slope s = _
  simp only [execLaserReferenceTrim, State.at_trims, State.at_beam, ht, Bool.not_true, Bool.false_eq_true, if_false,
    if_neg (Nat.not_lt.2 hs)]

end Trims

/-- Settles O49, from the turnaround, its timeout and the three trims. -/
theorem turnaroundsAndTrims : Obligations.TurnaroundsAndTrims := by
  intro t h b s s1 u
  refine ⟨fun okA okB gains => exec_layerTurnaround_atEnd t okA okB gains, fun a ha hle => ⟨fun hra hrb => ?_, fun hno => ?_⟩,
    fun ht => ⟨fun dev => ⟨fun hk => ?_, fun hl => ?_⟩,
      fun mean => ⟨exec_readPowerTrim_near t ht mean, fun hlo => ?_, fun hhi => ?_⟩,
      fun slope => ⟨fun hs hk => ?_, fun hs hl => ?_, exec_laserReferenceTrim_lost t ht slope⟩⟩⟩
  · rw [exec_turnaroundTimeout_late t ha hle, hra, hrb]
    rfl
  · have hr : (s.servoReady .a && s.servoReady .b) = false := Bool.and_eq_false_iff.2 hno
    rw [exec_turnaroundTimeout_late t ha hle, hr]
    rfl
  · rw [exec_afeOffsetTrim t ht dev _ rfl, if_neg (Nat.not_lt.2 hk)]
  · rw [exec_afeOffsetTrim t ht dev _ rfl, if_pos hl]
  · intro want
    have hw : want = if mean < u.readTarget then min 1023 (u.readCode + 1) else u.readCode - 1 :=
      (if_pos (by omega)).symm
    rw [exec_readPowerTrim_off t ht mean want (.inl hlo) hw]
    exact ⟨fun hk => by rw [if_neg (Nat.not_lt.2 hk)], fun hl => by rw [if_pos hl]⟩
  · intro want
    have hw : want = if mean < u.readTarget then min 1023 (u.readCode + 1) else u.readCode - 1 :=
      (if_neg (by omega)).symm
    rw [exec_readPowerTrim_off t ht mean want (.inr hhi) hw]
    exact ⟨fun hk => by rw [if_neg (Nat.not_lt.2 hk)], fun hl => by rw [if_pos hl]⟩
  · rw [exec_laserReferenceTrim_kept t ht slope _ _ hs rfl rfl, if_neg (Nat.not_lt.2 hk)]
  · rw [exec_laserReferenceTrim_kept t ht slope _ _ hs rfl rfl, if_pos hl]

end Sys2Proof.Machine

/-! PROOF. The frame path family (02_frame_path): the switching of loop slots, the codewords of the read path, and the
commands that read data and records. -/

namespace Sys2Proof.Machine

/-! ### What the shared operations leave of the Loop Engine

Clearing SERVO_READY may stop calibration steps and end a CALIBRATE, which posts completions, may halt a queue, logs and
raises events; none of that moves a slot. -/

section KeepLoop

variable (s : State)

@[simp] theorem keepFold_loop {α : Type} (f : State → α → State) (l : List α) (hf : ∀ u x, (f u x).loop = u.loop) :
    (l.foldl f s).loop = s.loop := foldl_keeps State.loop f hf l s

@[simp] theorem keepIte_loop (c : Prop) [Decidable c] (a b : State) :
    (if c then a else b).loop = if c then a.loop else b.loop := apply_ite State.loop c a b

@[simp] theorem State.msix_loop (fn : FnId) (v : BitVec 6) : (s.msix fn v).loop = s.loop := rfl

@[simp] theorem State.raiseIn_loop (n : Nat) (fn : FnId) : (s.raiseIn n fn).loop = s.loop := by
  simp [State.raiseIn]

@[simp] theorem State.raise_loop (n : Nat) : (s.raise n).loop = s.loop := by
  simp [State.raise]

@[simp] theorem State.writeCompletion_loop (fn : FnId) (q : QId) (c : Completion) :
    (s.writeCompletion fn q c).loop = s.loop := by
  simp [State.writeCompletion]

@[simp] theorem State.touchLink_loop : s.touchLink.loop = s.loop := rfl

@[simp] theorem State.post_loop (fn : FnId) (q : QId) (c : Completion) : (s.post fn q c).loop = s.loop := by
  simp [State.post]

@[simp] theorem State.watchOccupancy_loop : s.watchOccupancy.loop = s.loop := by
  simp [State.watchOccupancy, State.rateDeficit]

@[simp] theorem State.freeAlloc_loop (fn : FnId) (a : Alloc) : (s.freeAlloc fn a).loop = s.loop := by
  cases a with
  | none => rfl
  | frame slot => simp [State.freeAlloc, State.freeSlot]
  | review own shared => simp [State.freeAlloc]
  | side u => simp [State.freeAlloc]

@[simp] theorem State.logError_loop (fn : FnId) (q i : BitVec 16) (op : BitVec 8) (halted : Bool) (st : Status)
    (cid : BitVec 16) (v : DWord) : (s.logError fn q i op halted st cid v).loop = s.loop := rfl

@[simp] theorem State.sendData_loop (fn : FnId) (e : Entry) (d : List Byte) : (s.sendData fn e d).loop = s.loop := by
  simp [State.sendData]

@[simp] theorem State.setHalted_loop (fn : FnId) (q : QId) : (s.setHalted fn q).loop = s.loop := rfl

@[simp] theorem State.haltQueue_loop (fn : FnId) (q : QId) (i : Nat) : (s.haltQueue fn q i).loop = s.loop := by
  simp [State.haltQueue, State.dropWaiters, State.dropUnstarted]

@[simp] theorem State.complete_loop (org : Origin) (e : Entry) (st : Status) (v : DWord) (d : List Byte) :
    (s.complete org e st v d).loop = s.loop := by
  simp [State.complete]

@[simp] theorem State.endRunning_loop (r : Running) (st : Status) (v : DWord) (d : List Byte) :
    (s.endRunning r st v d).loop = s.loop := by
  simp [State.endRunning, State.finish, State.dropRunning]

@[simp] theorem State.endAll_loop (p : Running → Bool) (st : Status) (v : DWord) : (s.endAll p st v).loop = s.loop := by
  simp [State.endAll]

@[simp] theorem State.setUnit_loop (step : Nat) (h : Head) (b : Beam) (st : StepStatus) :
    (s.setUnit step h b st).loop = s.loop := by
  simp only [State.setUnit]
  (repeat' split) <;> simp

@[simp] theorem State.followBringup_loop : s.followBringup.loop = s.loop := by
  simp [State.followBringup, State.writeBank]

@[simp] theorem State.abortSteps_loop (mask : Nat) (p : Nat → Head → Bool) : (s.abortSteps mask p).loop = s.loop := by
  simp [State.abortSteps]

@[simp] theorem State.stopCalibrate_loop (mask : Nat) : (s.stopCalibrate mask).loop = s.loop := by
  simp [State.stopCalibrate]

end KeepLoop

/-! ### One slot of the Loop Engine -/

section Slots

variable (s : State) {i j : LoopId}

theorem Vec.upd_congr {α : Type} {n : Nat} (v : Vector α n) (i : Fin n) {f g : α → α} (h : f v[i] = g v[i]) :
    Vec.upd v i f = Vec.upd v i g := by
  rw [Vec.upd, Vec.upd, h]

@[simp] theorem State.at_slot (t : Time) (i : LoopId) : (s.at t).slot i = s.slot i := rfl

/-- A change of a slot is what it makes of the slot that stands there. -/
theorem State.updSlot_congr {f g : LoopSlot → LoopSlot} (h : f (s.slot i) = g (s.slot i)) :
    s.updSlot i f = s.updSlot i g := by
  rw [State.updSlot, State.updSlot, Vec.upd_congr _ i h]

@[simp] theorem State.slot_updSlot_same (i : LoopId) (f : LoopSlot → LoopSlot) :
    (s.updSlot i f).slot i = f (s.slot i) := by
  simp [State.slot, State.updSlot, Vec.upd]

theorem State.slot_updSlot_ne (h : j ≠ i) (f : LoopSlot → LoopSlot) : (s.updSlot i f).slot j = s.slot j := by
  have hv : i.val ≠ j.val := fun e => h (Fin.ext e.symm)
  simp [State.slot, State.updSlot, Vec.upd, Vector.getElem_set_ne, hv]

/-- A slot is read from the Loop Engine alone. -/
theorem State.slot_congr {s u : State} (h : u.loop = s.loop) (i : LoopId) : u.slot i = s.slot i := by
  rw [State.slot, State.slot, h]

@[simp] theorem State.setGenerator_loop (i : LoopId) (v : Int) : (s.setGenerator i v).loop = s.loop := by
  rw [State.setGenerator]
  split
  · rfl
  · exact State.updHd_loop _ _ _

@[simp] theorem State.clearReady_slots (h : Head) : (s.clearReady h).loop.slots = s.loop.slots := by
  cases h <;> simp only [State.clearReady] <;> split <;> simp

/-- Clearing ENABLE changes the slot it names, by `LoopSlot.disable`, and no other (Table 10.3). -/
theorem State.disableSlot_slots (i : LoopId) :
    (s.disableSlot i).loop.slots = (s.updSlot i LoopSlot.disable).loop.slots := by
  simp only [State.disableSlot, State.updSlot]
  cases slotHead i <;> split <;> simp [apply_ite LoopEngine.slots]

theorem State.slot_disableSlot (i j : LoopId) :
    (s.disableSlot i).slot j = (s.updSlot i LoopSlot.disable).slot j := by
  rw [State.slot, State.slot, State.disableSlot_slots]

end Slots

/-! ### ENABLE, APPLY and trips (Table 10.3, R380, R393, R398) -/

theorem State.enableSlot_enabled {s : State} {i : LoopId} (he : (s.slot i).enable = true) : s.enableSlot i = s := by
  simp [State.enableSlot, he]

theorem State.enableSlot_invalid {s : State} {i : LoopId} (he : (s.slot i).enable = false)
    (hv : (s.slot i).cfg.valid = false) :
    s.enableSlot i = s.updSlot i fun x => { x with enable := true, cfgErr := true, mode := .idle } := by
  simp [State.enableSlot, he, hv]

/-- A slot that starts: its counts and its cause clear, and its next valid sample sets its initial state (R381, R398). -/
def LoopSlot.started (out : Q15) (k : LoopSlot) : LoopSlot :=
  { k with enable := true, mode := if k.cfg.rampLen = 0 ∨ k.cfg.refExt = true then .run else .ramp, cause := 0
           missed := 0, overrun := 0, fresh := true, events := 0, inWindow := 0, out := out }

/-- ENABLE of a valid configuration starts the slot, from the output of its generator, if it has one. -/
theorem State.enableSlot_valid {s : State} {i : LoopId} (he : (s.slot i).enable = false)
    (hv : (s.slot i).cfg.valid = true) : ∃ out, s.enableSlot i = s.updSlot i (LoopSlot.started out) := by
  simp only [State.enableSlot, he, hv, Bool.false_eq_true, Bool.not_true, if_false]
  exact ⟨_, s.updSlot_congr rfl⟩

theorem LoopSlot.apply_valid {k : LoopSlot} (hv : k.shadow.valid = true) :
    k.apply.cfg = k.shadow ∧ k.apply.out = k.out ∧ k.apply.mode = k.mode ∧ k.apply.iPrev = k.iPrev := by
  simp [LoopSlot.apply, hv]

theorem LoopSlot.apply_invalid {k : LoopSlot} (hv : k.shadow.valid = false) : k.apply = { k with cfgErr := true } := by
  simp [LoopSlot.apply, hv]

section Powered

variable {s : State} (t : Time) (i : LoopId) (hd : s.pwr.domains.getLsbD 7 = true)
include hd

theorem exec_loopSlotEnable_set : exec (.loopSlotEnable t i true) s = .next ((s.at t).enableSlot i) := by
  show execLoopSlotEnable t i true s = _
  simp only [execLoopSlotEnable, State.at_pwr, hd, Bool.not_true, Bool.false_eq_true, if_false, if_true]

theorem exec_loopSlotEnable_clear : exec (.loopSlotEnable t i false) s =
    .next (if (s.slot i).enable then (s.at t).disableSlot i else s.at t) := by
  show execLoopSlotEnable t i false s = _
  simp only [execLoopSlotEnable, State.at_pwr, hd, Bool.not_true, Bool.false_eq_true, if_false]
  rfl

theorem exec_loopApply : exec (.loopApply t i) s = .next ((s.at t).updSlot i LoopSlot.apply) := by
  show execLoopApply t i s = _
  simp only [execLoopApply, State.at_pwr, hd, if_true]

theorem exec_loopParityError : exec (.loopParityError t i) s =
    .next (if (s.slot i).active then ((s.at t).updSlot i (LoopSlot.trip 6)).afterTrip i 6 else s.at t) := by
  show execLoopParityError t i s = _
  simp only [execLoopParityError, State.tripSlot, State.at_pwr, hd, if_true]
  rfl

theorem exec_stoppedSourceReport (h : Head) : exec (.stoppedSourceReport t h) s =
    .next (((((s.at t).updHd h fun d => { d with decoding := false, captured := false }).disableSlot
      (headSlot h 0)).disableSlot (headSlot h 1)).disableSlot (headSlot h 2)) := by
  show execStoppedSourceReport t h s = _
  simp only [execStoppedSourceReport, State.at_pwr, hd, Bool.not_true, Bool.false_eq_true, if_false, List.foldl_cons,
    List.foldl_nil]

end Powered

/-- 100 ms without an FSYNC, or none at all so far, brings an active slot 9 to IDLE with its output kept (R390). -/
theorem exec_slot9FsyncTimeout_due (t : Time) {s : State} (ha : (s.slot 9).active = true)
    (hl : ∀ e, s.sync.lastEdge = some e → e + 100000000 ≤ (s.at t).now) :
    exec (.slot9FsyncTimeout t) s = .next ((s.at t).updSlot 9 fun x => { x.disable with out := x.out }) := by
  show execSlot9FsyncTimeout t s = _
  simp only [execSlot9FsyncTimeout, State.at_slot, State.at_sync, ha, Bool.true_and]
  cases he : s.sync.lastEdge with
  | none => rfl
  | some e =>
    have hle : e + Config.ms 100 ≤ (s.at t).now := hl e he
    simp only [decide_eq_true hle, if_true]

/-- Settles O45, from what ENABLE, APPLY, a parity error and the two timeouts make of their slots. -/
theorem loopSlotsAreSwitched : Obligations.LoopSlotsAreSwitched := by
  intro t i s s1 k hd
  refine ⟨fun he => ?_, fun he hv => ?_, fun he hv => ?_, fun he => ?_, fun he => ?_, fun he => ⟨?_, fun j hj => ?_, rfl, rfl⟩,
    fun hv => ⟨LoopSlot.apply, exec_loopApply t i hd, LoopSlot.apply_valid hv⟩, fun hv => ?_, fun ha => ?_, fun ha => ?_,
    fun ha hl => exec_slot9FsyncTimeout_due t ha hl, fun h => exec_stoppedSourceReport t hd h⟩
  · rw [exec_loopSlotEnable_set t i hd, State.enableSlot_enabled (s := s.at t) he]
  · rw [exec_loopSlotEnable_set t i hd, State.enableSlot_invalid (s := s.at t) he hv]
  · obtain ⟨out, hu⟩ := State.enableSlot_valid (s := s.at t) he hv
    refine ⟨(s.at t).updSlot i (LoopSlot.started out), by rw [exec_loopSlotEnable_set t i hd, hu],
      fun j hj => State.slot_updSlot_ne _ hj _, ?_⟩
    rw [State.slot_updSlot_same]
    exact ⟨rfl, rfl, rfl, rfl, rfl, rfl, rfl, rfl⟩
  · rw [exec_loopSlotEnable_clear t i hd, he]
    rfl
  · rw [exec_loopSlotEnable_clear t i hd, he]
    rfl
  · rw [State.slot_disableSlot, State.slot_updSlot_same, State.at_slot]
  · rw [State.slot_disableSlot, State.slot_updSlot_ne _ hj, State.at_slot]
  · have hx : ((s.at t).slot i).apply = { (s.at t).slot i with cfgErr := true } := LoopSlot.apply_invalid hv
    rw [exec_loopApply t i hd, State.updSlot_congr (s.at t) (g := fun x => { x with cfgErr := true }) hx]
  · rw [exec_loopParityError t i hd, if_pos ha]
  · rw [exec_loopParityError t i hd, ha]
    rfl

/-! ### Codewords of the read path (R266, R342 to R348, R455, R461, R546) -/

@[simp] theorem State.at_channelReads (s : State) (t : Time) (h : Head) (b : Beam) :
    (s.at t).channelReads h b = s.channelReads h b := by cases h <;> rfl

@[simp] theorem State.at_chan (s : State) (t : Time) (h : Head) (b : Beam) : (s.at t).chan h b = s.chan h b := by
  cases h <;> rfl

/-- A codeword as its detector gives it: the soft values of the beam's stream at its place (R344). -/
def State.detectedWord (s : State) (h : Head) (b : Beam) (psa : Word) (index : Fin 8) (speculative : Bool) : PoolWord :=
  { head := h, beam := b, psa := psa, index := index.val, speculative := speculative
    soft := ((s.chan h b).codeword (psaZone psa) (psaSlot psa) index.val).getD [] }

/-- The state in which a codeword is taken up: its stripe has its place in stripe assembly, unless it is speculative, and the
beam's buffer is its own (R346, R347). -/
def State.beforeWord (s : State) (h : Head) (b : Beam) (psa : Word) (speculative : Bool) : State :=
  (if speculative then s else s.openAssembly psa).overrunBeam h b

/-- Where the channel reads, the sector's mark and the channel's bridge decide what becomes of a codeword. -/
theorem exec_codewordDetected_reads {s u : State} {w : PoolWord} (t : Time) {h : Head} {b : Beam} {psa : Word}
    (index : Fin 8) (spec : Bool) (hr : (s.at t).readable h = true) (hh : psaHead psa = h) (hb : psaBeam psa = b)
    (hc : s.channelReads h b = true) (hu : (s.at t).beforeWord h b psa spec = u)
    (hw : s.detectedWord h b psa index spec = w) :
    exec (.codewordDetected t h b psa index spec) s = .next (
      if (s.chan h b).markMissed (psaZone psa) (psaSlot psa) then u.wordFailed w
      else if !(u.bridge (chanBridge h b)).armed then
        (u.crossWord (chanBridge h b) (8 * psa.toNat + index.val)).wordFailed w
      else (u.crossWord (chanBridge h b) (8 * psa.toNat + index.val)).updRd fun r => { r with pool := r.pool ++ [w] }) := by
  subst hu hw
  have hgo : (!(s.at t).readable h || psaHead psa != h || psaBeam psa != b || !(s.at t).channelReads h b) = false := by
    simp [hr, hh, hb, hc]
  show execCodewordDetected t h b psa index spec s = _
  simp only [execCodewordDetected, hgo, Bool.false_eq_true, if_false, State.at_chan]
  rfl

/-- The limit of iterations of a codeword's decode (R343, R365). -/
def ReadPath.limitOf (r : ReadPath) (w : PoolWord) : Nat := if w.extended then r.limExtended else r.limNormal

/-- A codeword leaves its engine: it is out of the pool, and its iterations are counted, at most its limit, unless it is
speculative (R62, R343, R357). -/
def State.leaveEngine (s : State) (w : PoolWord) (h : Head) (b : Beam) (iters : Nat) : State :=
  (s.updRd fun r => { r with pool := r.pool.filter fun x => x != w }).updBeam h b fun v =>
    { v with iterations := if w.speculative then v.iterations else (min iters (s.rd.limitOf w) :: v.iterations).take 4096 }

/-- Decrypt holding has room and the codec its domains: a codeword does not stay where it is (R163). -/
theorem State.decodeWaits_false {s : State} (t : Time) (hroom : s.rd.holding.length < 128) (hon : s.codecOn = true) :
    (decide (Config.holdingSectors ≤ s.rd.holding.length) || !(s.at t).codecOn) = false := by
  have hon' : (s.at t).codecOn = true := hon
  rw [hon', Bool.not_true, Bool.or_false, decide_eq_false_iff_not]
  exact Nat.not_le.2 hroom

section Decoded

variable {s : State} (t : Time) {h : Head} {b : Beam} {index : Fin 8} {iters : Nat} {result : Option (List Byte)}
  (header : List Byte) {w : PoolWord}
  (hw : s.rd.taken.find? (fun x => x.head == h && x.beam == b && x.index == index.val) = some w)
  (hroom : s.rd.holding.length < 128) (hon : s.codecOn = true)
include hw hroom hon

/-- A taken codeword that converged within its limit gives its sector its data (R343). -/
theorem exec_ldpcDecodeDone_converged {d : List Byte} (hd : result = some d) (hle : iters ≤ s.rd.limitOf w) :
    exec (.ldpcDecodeDone t h b index iters result header) s = .next (((s.at t).leaveEngine w h b iters).wordResult w
      (some d) (if header.isEmpty then none else some header)) := by
  rw [ReadPath.limitOf] at hle
  show execLdpcDecodeDone t h b index iters result header s = _
  simp only [execLdpcDecodeDone, State.at_rd, hw, State.decodeWaits_false t hroom hon, Bool.false_eq_true, if_false,
    if_pos hle, hd]
  rfl

/-- One that did not is decoded once more, extended, during bring-up, and otherwise fails (R343, R546). -/
theorem exec_ldpcDecodeDone_failed (hno : result = none ∨ s.rd.limitOf w < iters) {u : State}
    (hu : (s.at t).leaveEngine w h b iters = u) :
    exec (.ldpcDecodeDone t h b index iters result header) s = .next (if s.cal.bringup && !w.extended then
      u.updRd fun r => { r with pool := r.pool ++ [{ w with extended := true }] } else u.wordFailed w) := by
  subst hu
  have hgot : (if iters ≤ s.rd.limitOf w then result else none) = none := by
    rcases hno with hn | hl
    · rw [hn, ite_self]
    · exact if_neg (Nat.not_le.2 hl)
  rw [ReadPath.limitOf] at hgot
  show execLdpcDecodeDone t h b index iters result header s = _
  simp only [execLdpcDecodeDone, State.at_rd, hw, State.decodeWaits_false t hroom hon, Bool.false_eq_true, if_false, hgot]
  rfl

end Decoded

/-- Settles O40, from what becomes of a detected codeword and of one that its engine gives back. -/
theorem codewordsAreDecoded : Obligations.CodewordsAreDecoded := by
  intro t h b index s
  refine ⟨fun psa spec hr hh hb hc => ?_, fun iters result header w hw hroom hon => ?_⟩
  · have hx := exec_codewordDetected_reads t index spec hr hh hb hc rfl rfl
    refine ⟨fun hm ha => ?_, fun hm ha => ?_, fun hm => ?_⟩
    · rw [hx, hm, show (((s.at t).beforeWord h b psa spec).bridge (chanBridge h b)).armed = true from ha]
      rfl
    · rw [hx, hm, show (((s.at t).beforeWord h b psa spec).bridge (chanBridge h b)).armed = false from ha]
      rfl
    · rw [hx, hm]
      rfl
  · refine ⟨fun d hd hle => exec_ldpcDecodeDone_converged t header hw hroom hon hd hle, fun hno hb he => ?_,
      fun hno hbe => ?_⟩
    · have hmore : (s.cal.bringup && !w.extended) = true := by rw [hb, he]; rfl
      rw [exec_ldpcDecodeDone_failed t header hw hroom hon hno rfl, hmore]
      rfl
    · have hlast : (s.cal.bringup && !w.extended) = false := by
        rcases hbe with hb | he
        · rw [hb, Bool.false_and]
        · rw [he, Bool.not_true, Bool.and_false]
      rw [exec_ldpcDecodeDone_failed t header hw hroom hon hno rfl, hlast]
      rfl

/-! ### A command that is accepted (R139)

What is left of an accepted command is the ruling of its opcode. -/

section AcceptedCommand

variable {s : State} {t : Time} {o : Opcode} {c : Call} {f : Fetched} {rest : List Fetched}

/-- A scatter list that has been read changes no opcode. -/
@[simp] theorem Fetched.withList_opcode (g : Fetched) (c : Call) : (g.withList c).entry.opcode = g.entry.opcode := by
  rw [Fetched.withList]
  split <;> rfl

/-- The command that starts is served: it leaves its queue and is settled. -/
theorem State.serve_starts (hs : Starts s t o c f rest) :
    (s.at t).serve o c = ((popped s t c rest).settle (taken o c f)).drain := by
  obtain ⟨hfront, hop⟩ := hs
  obtain ⟨⟨g, rest'⟩, hg, he⟩ := Option.map_eq_some_iff.1 hfront
  obtain ⟨rfl, rfl⟩ := Prod.mk.inj he
  rw [Fetched.withList_opcode] at hop
  simp only [State.serve, hg, if_pos hop]

theorem State.rule_accepted (ha : Accepted s t o c f rest) :
    (popped s t c rest).rule (taken o c f) = (popped s t c rest).ownRule (taken o c f) := by
  obtain ⟨-, hfirst, hwaits, hmid⟩ := ha
  simp only [State.rule, hfirst, hwaits, hmid]

theorem State.serve_apply {u : State} (ha : Accepted s t o c f rest)
    (hr : (popped s t c rest).ownRule (taken o c f) = .apply u) : (s.at t).serve o c = u.drain := by
  rw [State.serve_starts ha.1, State.settle, State.rule_accepted ha, hr]

theorem State.serve_refuse {st : Status} {v : DWord} (ha : Accepted s t o c f rest)
    (hr : (popped s t c rest).ownRule (taken o c f) = .refuse st v) :
    (s.at t).serve o c = completed (popped s t c rest) f st v [] := by
  rw [State.serve_starts ha.1, State.settle, State.rule_accepted ha, hr]

end AcceptedCommand

/-! ### READ and FRAME_READ (R63, R75, R156, R226, R418, R545) -/

theorem fieldOf_zero (w : Word) (hi : Nat) : fieldOf w hi 0 = w.toNat % 2 ^ (hi + 1) := by
  simp [fieldOf]

theorem fieldOf_7_0 (w : Word) : fieldOf w 7 0 = w.toNat % 256 := fieldOf_zero w 7
theorem fieldOf_13_0 (w : Word) : fieldOf w 13 0 = w.toNat % 16384 := fieldOf_zero w 13

theorem State.ruleLsns_held {s : State} {r : Running} (hn : s.needsMedium r.lsns = false) :
    s.ruleLsns r = .apply (s.startRead r) := by
  simp only [State.ruleLsns, hn, Bool.not_false, if_true]

theorem State.ruleLsns_medium {s : State} {r : Running} (hn : s.needsMedium r.lsns = true)
    (hl : s.spin.lockout = false) (hb : s.cal.bringup = false) :
    s.ruleLsns r = .apply (s.wakeSpindle.startRead r) := by
  simp [State.ruleLsns, State.lockedOut, State.bringupHolds, hn, hl, hb]

/-- The command that a READ becomes as it runs: over LSN_COUNT LSNs from LSN on. -/
def Fetched.readRun (f : Fetched) : Running :=
  { (f.run .read) with lsns := (List.range ((parm f.entry 1).toNat % 16384)).map ((parm f.entry 0).toNat + ·) }

section Read

variable {s : State} {f : Fetched}

theorem State.ruleRead_denied {l : Nat}
    (hl : s.firstRefused f.org.fn (parm f.entry 0).toNat ((parm f.entry 1).toNat % 16384) = some l) :
    s.ruleRead f = .refuse .accessDenied (BitVec.ofNat 64 l) := by
  simp only [State.ruleRead, fieldOf_13_0, hl]
  rfl

theorem State.ruleRead_allowed
    (ha : s.firstRefused f.org.fn (parm f.entry 0).toNat ((parm f.entry 1).toNat % 16384) = none)
    (hw : (parm f.entry 0).toNat + (parm f.entry 1).toNat % 16384 ≤ s.mnt.nextLsn) :
    s.ruleRead f = s.ruleLsns f.readRun := by
  simp only [State.ruleRead, fieldOf_13_0, ha, if_neg (Nat.not_lt.2 hw)]
  rfl

/-- A FRAME_READ of a frame that still lies in its slot returns its bytes (R63). -/
theorem State.ruleFrameRead_slot {fr : Frame} {bytes : Nat}
    (ha : s.appendAhead f.order (parm f.entry 0) (parm f.entry 1) = false) (hb : s.frameBytesOf (parm f.entry 0) = some bytes)
    (hlen : (parm f.entry 2).toNat + f.entry.length.toNat ≤ bytes)
    (hf : s.findFrame (parm f.entry 0) (parm f.entry 1).toNat = some fr) (hp : fr.phase ≠ .dma)
    (hr : s.slotRefused f fr = none) : s.ruleFrameRead f = s.readSlot f fr := by
  simp only [State.ruleFrameRead, ha, hb, if_neg (Nat.not_lt.2 hlen), hf, if_neg hp, hr, Bool.false_eq_true, if_false]

end Read

/-! ### META_READ and META_WRITE (R206, R207, R705) -/

/-- The bytes of a record that a META_READ returns: from OFFSET on, at most LENGTH of them. -/
def State.metaData (s : State) (f : Fetched) (c : Call) (r : VolRecord) : List Byte :=
  ((s.recordData c r).1.drop (parm f.entry 3).toNat).take f.entry.length.toNat

section MetaRead

variable {s : State} {f : Fetched} {c : Call} {r : VolRecord}
  (ha : s.recordAhead f (BitVec.ofNat 8 ((parm f.entry 0).toNat % 256)) (parm f.entry 1) (parm f.entry 2) = false)
  (hr : s.findRecord (BitVec.ofNat 8 ((parm f.entry 0).toNat % 256)) (parm f.entry 1) (parm f.entry 2) = some r)
  (ho : (parm f.entry 3).toNat < r.bytes.length + (if r.rtype = 0x0A then Word.fieldLE r.bytes 16 4 else 0))
include ha hr ho

theorem State.ruleMetaRead_all (hd : (s.recordData c r).2 = none ∨ (s.metaData f c r).length = f.entry.length.toNat) :
    s.ruleMetaRead f c =
      (s.cacheAccess c.mapAddr.toNat r false).doneWith f (s.metaData f c r).length (s.metaData f c r) := by
  have hgot : (if (s.metaData f c r).length < f.entry.length.toNat then (s.recordData c r).2 else none) = none := by
    rcases hd with hn | hl
    · rw [hn, ite_self]
    · exact if_neg (by omega)
  rw [State.metaData] at hgot
  simp only [State.ruleMetaRead, fieldOf_7_0, ha, hr, hgot, beq_iff_eq, if_neg (Nat.not_le.2 ho),
    Bool.false_eq_true, if_false]
  rfl

theorem State.ruleMetaRead_cut {x : Status × Nat × Nat} (hx : (s.recordData c r).2 = some x)
    (hl : (s.metaData f c r).length < f.entry.length.toNat) :
    s.ruleMetaRead f c = (s.cacheAccess c.mapAddr.toNat r false).metaReadFails f (s.recordData c r).1 x := by
  rw [State.metaData] at hl
  simp only [State.ruleMetaRead, fieldOf_7_0, ha, hr, if_pos hl, hx, beq_iff_eq, if_neg (Nat.not_le.2 ho),
    Bool.false_eq_true, if_false]

end MetaRead

/-- META_WRITE of type 7 adds the record that its data make. -/
theorem State.ruleMetaWrite_host {s : State} {f : Fetched} {c : Call} (hd : c.dataErr = none)
    (h7 : (parm f.entry 0).toNat % 256 = 7) :
    s.ruleMetaWrite f c = (((s.addRecord (hostRecord 7 (parm f.entry 1) (parm f.entry 2) c.payload)).cacheAccess
      c.mapAddr.toNat (hostRecord 7 (parm f.entry 1) (parm f.entry 2) c.payload) true).wakeSpindle).done f 0 := by
  have h5 : ¬ fieldOf (parm f.entry 0) 7 0 = 5 := by rw [fieldOf_7_0]; omega
  simp only [State.ruleMetaWrite, withData, hd, if_neg h5]

/-- Settles O27, from the rulings of the four commands once they are accepted: taking a command from its queue changes
nothing that these rulings read. -/
theorem readsDeliverTheirData : Obligations.ReadsDeliverTheirData := by
  intro t c f rest s u e
  refine ⟨fun ha => ⟨fun l hl => ?_, fun hok hw hn => ?_, fun hok hw hn hlock hup => ?_⟩,
    fun fr bytes ha hap hb hlen hf hp hr => ?_, fun r ha => ?_, fun ha hd h7 => ?_⟩
  · exact congrArg _ (State.serve_refuse ha (State.ruleRead_denied (s := u) hl))
  · exact congrArg _ (State.serve_apply ha ((State.ruleRead_allowed (s := u) hok hw).trans (State.ruleLsns_held hn)))
  · exact congrArg _ (State.serve_apply ha
      ((State.ruleRead_allowed (s := u) hok hw).trans (State.ruleLsns_medium hn hlock hup)))
  · exact congrArg _ (State.serve_apply ha (State.ruleFrameRead_slot (s := u) hap hb hlen hf hp hr))
  · intro ty hap hr ho d v
    refine ⟨fun hd => ?_, fun st lsn psa hx hl => ?_⟩
    · exact congrArg _ (State.serve_apply ha (State.ruleMetaRead_all (s := u) hap hr ho hd))
    · exact congrArg _ (State.serve_apply ha (State.ruleMetaRead_cut (s := u) hap hr ho hx hl))
  · exact congrArg _ (State.serve_apply ha (State.ruleMetaWrite_host (s := u) hd h7))

end Sys2Proof.Machine

/-! PROOF. The host link family (03_host_link_tenants): functions, queue pairs, doorbells, completions, arbitration and
fetch, the locks, resets of functions and of the part, and the registers of the host's windows. -/

namespace Sys2Proof.Machine

/-! ### Functions, queue pairs and locks under an update -/

section HostViews

variable (s : State) (t : Time) {fn g : FnId} {q r : QId} {l j : LockId}

theorem Vec.getElem_upd_same {α : Type} {n : Nat} (v : Vector α n) (i : Fin n) (f : α → α) :
    (Vec.upd v i f)[i] = f v[i] := by
  simp [Vec.upd]

theorem Vec.getElem_upd_ne {α : Type} {n : Nat} (v : Vector α n) {i k : Fin n} (h : k ≠ i) (f : α → α) :
    (Vec.upd v i f)[k] = v[k] := by
  have hv : i.val ≠ k.val := fun e => h (Fin.ext e.symm)
  simp [Vec.upd, Vector.getElem_set_ne, hv]

theorem Vec.upd_upd {α : Type} {n : Nat} (v : Vector α n) (i : Fin n) (f k : α → α) :
    Vec.upd (Vec.upd v i f) i k = Vec.upd v i fun x => k (f x) := by
  simp [Vec.upd]

@[simp] theorem State.at_func : (s.at t).func = s.func := rfl
@[simp] theorem State.at_queue : (s.at t).queue = s.queue := rfl
@[simp] theorem State.at_lock : (s.at t).lock = s.lock := rfl
@[simp] theorem State.at_fetchable : (s.at t).fetchable = s.fetchable := rfl

@[simp] theorem State.func_updFunc_same (fn : FnId) (f : Func → Func) : (s.updFunc fn f).func fn = f (s.func fn) :=
  Vec.getElem_upd_same _ _ _

theorem State.func_updFunc_ne (h : g ≠ fn) (f : Func → Func) : (s.updFunc fn f).func g = s.func g :=
  Vec.getElem_upd_ne _ h _

/-- Two changes of one function are one change. -/
theorem State.updFunc_updFunc (fn : FnId) (f k : Func → Func) :
    (s.updFunc fn f).updFunc fn k = s.updFunc fn fun u => k (f u) := by
  simp [State.updFunc, State.updHost, Vec.upd_upd]

@[simp] theorem State.queue_updQueue_same (fn : FnId) (q : QId) (f : QueuePair → QueuePair) :
    (s.updQueue fn q f).queue fn q = f (s.queue fn q) := by
  simp only [State.queue, State.updQueue, State.func_updFunc_same]
  exact Vec.getElem_upd_same _ _ _

theorem State.queue_updQueue_ne (h : ¬(g = fn ∧ r = q)) (f : QueuePair → QueuePair) :
    (s.updQueue fn q f).queue g r = s.queue g r := by
  by_cases hg : g = fn
  · subst hg
    have hr : r ≠ q := fun e => h ⟨rfl, e⟩
    simp only [State.queue, State.updQueue, State.func_updFunc_same]
    exact Vec.getElem_upd_ne _ hr _
  · simp only [State.queue, State.updQueue, State.func_updFunc_ne s hg]

/-- Queue pairs are read from their function alone. -/
theorem State.queue_congr {s u : State} (h : u.host.funcs = s.host.funcs) : u.queue = s.queue := by
  funext fn q
  rw [State.queue, State.queue, State.func, State.func, h]

@[simp] theorem State.lock_updLock_same (l : LockId) (f : Lock → Lock) : (s.updLock l f).lock l = f (s.lock l) :=
  Vec.getElem_upd_same _ _ _

theorem State.lock_updLock_ne (h : j ≠ l) (f : Lock → Lock) : (s.updLock l f).lock j = s.lock j :=
  Vec.getElem_upd_ne _ h _

theorem State.lock_congr {s u : State} (h : u.host.locks = s.host.locks) : u.lock = s.lock := by
  funext l
  rw [State.lock, State.lock, h]

end HostViews

/-! ### Writes to a BAR, and doorbells (R84 to R87, R698) -/

section Doorbells

variable {s : State} {fn : FnId} {q : QId}

theorem State.barWrite_ready (h : (s.func fn).ready = true) (k : State → State) : s.barWrite fn k = k s := by
  rw [State.barWrite, if_pos h]

theorem State.barWrite_notReady (h : (s.func fn).ready = false) (k : State → State) :
    s.barWrite fn k = s.emit (.discarded fn) := by
  rw [State.barWrite, h]
  rfl

theorem fieldOf_9_0 (w : Word) : fieldOf w 9 0 = w.toNat % 1024 := fieldOf_zero w 9

/-- R85: the doorbell write is ignored where its queue pair is off or its index lies beyond the ring. -/
theorem State.sqDoorbell_ignored {v : Word}
    (h : (s.queue fn q).enable = false ∨ (s.queue fn q).depth ≤ v.toNat % 1024) :
    sqDoorbell fn q v s = s.doorbellError fn q (v.toNat % 1024) := by
  have hb : (!(s.queue fn q).enable || decide ((s.queue fn q).depth ≤ v.toNat % 1024)) = true := by
    rcases h with h | h <;> simp [h]
  rw [sqDoorbell, fieldOf_9_0, if_pos hb]

theorem State.sqDoorbell_moves {v : Word} (he : (s.queue fn q).enable = true)
    (hi : v.toNat % 1024 < (s.queue fn q).depth) :
    sqDoorbell fn q v s = s.wakeLink.updQueue fn q fun u => { u with sqTail := v.toNat % 1024 } := by
  rw [sqDoorbell, fieldOf_9_0, if_neg]
  simpa [he] using hi

theorem State.cqDoorbell_ignored {v : Word}
    (h : (s.queue fn q).active = false ∨ (s.queue fn q).depth ≤ v.toNat % 1024) :
    cqDoorbell fn q v s = s.doorbellError fn q (v.toNat % 1024) := by
  have hb : (!(s.queue fn q).active || decide ((s.queue fn q).depth ≤ v.toNat % 1024)) = true := by
    rcases h with h | h <;> simp [h]
  rw [cqDoorbell, fieldOf_9_0, if_pos hb]

theorem State.cqDoorbell_moves {v : Word} (ha : (s.queue fn q).active = true)
    (hi : v.toNat % 1024 < (s.queue fn q).depth) :
    cqDoorbell fn q v s = (s.wakeLink.updQueue fn q fun u => { u with cqHead := v.toNat % 1024 }).flushHeld fn q
      (s.queue fn q).depth := by
  rw [cqDoorbell, fieldOf_9_0, if_neg]
  simpa [ha] using hi

/-- With no completion held there is nothing to write. -/
theorem State.flushHeld_nil (h : (s.queue fn q).held = []) (n : Nat) : s.flushHeld fn q n = s := by
  cases n with
  | zero => rfl
  | succ n => simp only [State.flushHeld, h]

@[simp] theorem State.wakeLink_queue : s.wakeLink.queue = s.queue := State.queue_congr rfl

end Doorbells

section DoorbellRows

variable {s : State} {fn : FnId} (t : Time) (q : QId) (v : Word) (hr : (s.func fn).ready = true)
include hr

theorem exec_sqTailDoorbell_ready : exec (.sqTailDoorbell t fn q v) s = .next (sqDoorbell fn q v (s.at t)) :=
  congrArg _ (State.barWrite_ready (s := s.at t) hr _)

theorem exec_cqHeadDoorbell_ready : exec (.cqHeadDoorbell t fn q v) s = .next (cqDoorbell fn q v (s.at t)) :=
  congrArg _ (State.barWrite_ready (s := s.at t) hr _)

end DoorbellRows

/-- Settles O9, from the doorbell writes that move their index and those that are ignored. -/
theorem doorbellsMoveTheirIndex : Obligations.DoorbellsMoveTheirIndex := by
  intro t fn q v s hr idx p ignored awake
  refine ⟨fun he hi => ?_, fun ha hi hh => ?_, fun hno => ?_, fun hno => ?_⟩
  · rw [exec_sqTailDoorbell_ready t q v hr, State.sqDoorbell_moves (s := s.at t) he hi]
    rfl
  · rw [exec_cqHeadDoorbell_ready t q v hr, State.cqDoorbell_moves (s := s.at t) ha hi,
      State.flushHeld_nil (by simpa using hh)]
    rfl
  · rw [exec_sqTailDoorbell_ready t q v hr, State.sqDoorbell_ignored (s := s.at t) hno]
    rfl
  · rw [exec_cqHeadDoorbell_ready t q v hr, State.cqDoorbell_ignored (s := s.at t) hno]
    rfl

/-! ### Completions (R81, R86, R87, R124, R135) -/

section Completions

variable (s : State) (fn : FnId) (q : QId) (c : Completion)

@[simp] theorem State.emit_queue (x : Sent) : (s.emit x).queue = s.queue := State.queue_congr rfl
@[simp] theorem State.msix_queue (v : BitVec 6) : (s.msix fn v).queue = s.queue := State.queue_congr rfl
@[simp] theorem State.touchLink_queue : s.touchLink.queue = s.queue := State.queue_congr rfl

/-- A written completion moves CQTAIL on, and the phase where it wraps to 0; it counts as unsignalled or sends the queue's
message. -/
theorem State.writeCompletion_queue : ∃ n f, (s.writeCompletion fn q c).queue fn q = { s.queue fn q with
    cqTail := ((s.queue fn q).cqTail + 1) % (s.queue fn q).depth
    phase := if ((s.queue fn q).cqTail + 1) % (s.queue fn q).depth = 0 then !(s.queue fn q).phase else (s.queue fn q).phase
    unsignalled := n, firstUnsignalled := f } := by
  simp only [State.writeCompletion]
  split
  · exact ⟨0, none, by simp⟩
  · exact ⟨_, _, by simp; exact ⟨rfl, rfl⟩⟩

theorem State.writeCompletion_queue_ne {g : FnId} {r : QId} (h : ¬(g = fn ∧ r = q)) :
    (s.writeCompletion fn q c).queue g r = s.queue g r := by
  simp only [State.writeCompletion]
  split <;> simp [State.queue_updQueue_ne _ h]

/-- What is written is the completion in the slot of CQTAIL, with the phase of the pass and the commit point. -/
theorem State.writeCompletion_sent : Sent.completion fn q (s.queue fn q).cqTail (s.queue fn q).phase c s.mnt.commitClip
    (BitVec.ofNat 32 s.mnt.commitFrames) ∈ (s.writeCompletion fn q c).host.sent := by
  simp only [State.writeCompletion]
  split
  · exact List.mem_cons_of_mem _ List.mem_cons_self
  · exact List.mem_cons_self

theorem QueuePair.cqRoom_iff (p : QueuePair) : p.cqRoom = true ↔ (p.cqTail + 1) % p.depth ≠ p.cqHead := by
  simp [QueuePair.cqRoom]

variable {s fn q c}

theorem State.post_written (ha : (s.queue fn q).active = true) (hh : (s.queue fn q).held = [])
    (hr : (s.queue fn q).cqRoom = true) : s.post fn q c = (s.writeCompletion fn q c).touchLink := by
  simp [State.post, ha, hh, hr]

theorem State.post_held (ha : (s.queue fn q).active = true)
    (hr : (s.queue fn q).held ≠ [] ∨ (s.queue fn q).cqRoom = false) :
    s.post fn q c = s.updQueue fn q fun u => { u with held := u.held ++ [c] } := by
  have hb : ((s.queue fn q).held.isEmpty && (s.queue fn q).cqRoom) = false := by
    rcases hr with h | h
    · simp [h]
    · simp [h]
  simp [State.post, ha, hb]

/-- A completion on one queue pair leaves the registers of every other. -/
theorem State.post_queue_ne {g : FnId} {r : QId} (h : ¬(g = fn ∧ r = q)) : (s.post fn q c).queue g r = s.queue g r := by
  simp only [State.post]
  split
  · rfl
  · split
    · rw [State.touchLink_queue, State.writeCompletion_queue_ne s fn q c h]
    · exact State.queue_updQueue_ne s h _

end Completions

/-- Settles O22, from what a written completion leaves of its queue pair and what holding one leaves. -/
theorem completionEntryIsPosted : Obligations.CompletionEntryIsPosted := by
  intro fn q c s ha p d u
  refine ⟨fun hh hne => ?_, fun hno => State.post_held ha ?_, fun r hr => State.post_queue_ne fun e => hr e.2⟩
  · have hu : u = (s.writeCompletion fn q c).touchLink := State.post_written ha hh ((QueuePair.cqRoom_iff p).2 hne)
    obtain ⟨n, f, hq⟩ := State.writeCompletion_queue s fn q c
    rw [hu, State.touchLink_queue, hq]
    exact ⟨State.writeCompletion_sent s fn q c, rfl, rfl, hh⟩
  · refine hno.imp id fun he => ?_
    rw [← Bool.not_eq_true, QueuePair.cqRoom_iff]
    exact fun hne => hne he

/-- How many completions a ring takes before it is full (R87). -/
def QueuePair.free (p : QueuePair) : Nat := (p.cqHead + p.depth - (p.cqTail + 1) % p.depth) % p.depth

/-- From its place on, a tail reaches the head after as many steps as there are free slots. -/
theorem ring_free_step {d h t : Nat} (hh : h < d) (ht : t < d) :
    ((h + d - t) % d = 0 ↔ t = h) ∧ (t ≠ h → (h + d - (t + 1) % d) % d + 1 = (h + d - t) % d) := by
  have hle : (h + d - t) % d = if t ≤ h then h - t else h + d - t := by
    split
    · next hth => rw [show h + d - t = h - t + d by omega, Nat.add_mod_right, Nat.mod_eq_of_lt (by omega)]
    · next hth => exact Nat.mod_eq_of_lt (by omega)
  refine ⟨by rw [hle]; split <;> omega, fun hne => ?_⟩
  rw [hle]
  rcases Nat.lt_or_ge (t + 1) d with hlt | hge
  · rw [Nat.mod_eq_of_lt hlt]
    rcases Nat.lt_or_ge h t with hth | hth
    · rw [if_neg (by omega), Nat.mod_eq_of_lt (by omega)]
      omega
    · rw [if_pos hth, show h + d - (t + 1) = h - (t + 1) + d by omega, Nat.add_mod_right, Nat.mod_eq_of_lt (by omega)]
      omega
  · rw [show t + 1 = d by omega, Nat.mod_self, if_neg (by omega), Nat.sub_zero, Nat.add_mod_right, Nat.mod_eq_of_lt hh]
    omega

section Free

variable {p : QueuePair} (hh : p.cqHead < p.depth)
include hh

theorem QueuePair.cqTail_next_lt : (p.cqTail + 1) % p.depth < p.depth := Nat.mod_lt _ (Nat.zero_lt_of_lt hh)

theorem QueuePair.cqRoom_of_free_eq_zero (hf : p.free = 0) : p.cqRoom = false := by
  rw [← Bool.not_eq_true, QueuePair.cqRoom_iff, not_not]
  exact (ring_free_step hh (QueuePair.cqTail_next_lt hh)).1.1 hf

/-- A written completion takes one of the free slots. -/
theorem QueuePair.free_step (hr : p.cqRoom = true) :
    QueuePair.free { p with cqTail := (p.cqTail + 1) % p.depth } + 1 = p.free :=
  (ring_free_step hh (QueuePair.cqTail_next_lt hh)).2 ((QueuePair.cqRoom_iff p).1 hr)

end Free

/-- Fuel for every free slot is enough: `flushHeld` goes on until no completion is held or the ring is full, and leaves
the head. -/
theorem State.flushHeld_done (fn : FnId) (q : QId) (n : Nat) (s : State)
    (hhead : (s.queue fn q).cqHead < (s.queue fn q).depth) (hn : (s.queue fn q).free ≤ n) :
    ((s.flushHeld fn q n).queue fn q).cqHead = (s.queue fn q).cqHead ∧
      (((s.flushHeld fn q n).queue fn q).held = [] ∨ ((s.flushHeld fn q n).queue fn q).cqRoom = false) := by
  induction n generalizing s with
  | zero => exact ⟨rfl, .inr (QueuePair.cqRoom_of_free_eq_zero hhead (Nat.le_zero.1 hn))⟩
  | succ n ih =>
    rw [State.flushHeld]
    split
    · next hh => exact ⟨rfl, .inl hh⟩
    · next c rest hh =>
      split
      · next hr =>
        obtain ⟨k, f, hq⟩ := State.writeCompletion_queue (s.updQueue fn q fun u => { u with held := rest }) fn q c
        rw [State.queue_updQueue_same, ← State.touchLink_queue] at hq
        have hfree := QueuePair.free_step hhead hr
        have hnext := ih ((s.updQueue fn q fun u => { u with held := rest }).writeCompletion fn q c).touchLink
        rw [hq] at hnext
        exact hnext hhead (Nat.le_of_succ_le_succ (hfree.trans_le hn))
      · next hr => exact ⟨rfl, .inr (Bool.not_eq_true _ ▸ hr)⟩

/-- Settles O10: the depth of the ring is fuel enough to write every completion for which there is a slot. -/
theorem headDoorbellWritesHeldCompletions : Obligations.HeadDoorbellWritesHeldCompletions := by
  intro t fn q v s hr ha hi
  refine ⟨_, exec_cqHeadDoorbell_ready t q v hr, ?_⟩
  rw [State.cqDoorbell_moves (s := s.at t) ha hi]
  have hq : (((s.at t).wakeLink.updQueue fn q fun u => { u with cqHead := v.toNat % 1024 }).queue fn q) =
      { s.queue fn q with cqHead := v.toNat % 1024 } := by simp
  obtain ⟨hhead, hdone⟩ := State.flushHeld_done fn q (s.queue fn q).depth
    ((s.at t).wakeLink.updQueue fn q fun u => { u with cqHead := v.toNat % 1024 }) (by rw [hq]; exact hi)
    (by rw [hq]; exact (Nat.mod_lt _ (Nat.two_pow_pos _)).le)
  rw [hq] at hhead
  refine ⟨hhead, hdone.imp id fun hfull => ?_⟩
  rw [← Bool.not_eq_true, QueuePair.cqRoom_iff, not_not] at hfull
  exact hfull

/-! ### Reset values (R77, R78, R91, R95a, R159, R700) -/

theorem State.reset_queue (fn : FnId) (q : QId) : State.reset.queue fn q = { policyHalt := fn == 0 } := by
  match fn with
  | 0 | 1 | 2 | 3 => exact Vector.getElem_replicate _

theorem State.reset_lock (l : LockId) : State.reset.lock l = {} := Vector.getElem_replicate _

/-- Settles O5, from the queue pairs and the locks right after reset. -/
theorem resetLeavesStatedValues : Obligations.ResetLeavesStatedValues := by
  refine ⟨rfl, rfl, rfl, rfl, fun fn => ?_, fun fn q => ?_, fun l => ?_, rfl, rfl, rfl⟩
  · match fn with
    | 0 | 1 | 2 | 3 => exact ⟨rfl, rfl, rfl⟩
  · rw [State.reset_queue]
    exact ⟨rfl, rfl, rfl, beq_iff_eq⟩
  · rw [State.reset_lock]
    exact ⟨rfl, rfl⟩

/-! ### Arbitration (R90) -/

/-- A round robin over all 32 queues finds a queue that satisfies its test where there is one. -/
theorem roundRobin_some {p : QId → Bool} {q : QId} (hq : p q = true) (start : Nat) :
    ∃ r, roundRobin start p = some r ∧ p r = true := by
  have hmem : q ∈ (List.range 32).map fun i => (Fin.ofNat 32 (start + i) : QId) := by
    refine List.mem_map.2 ⟨(q.val + 32 - start % 32) % 32, List.mem_range.2 (Nat.mod_lt _ (by decide)), Fin.ext ?_⟩
    rw [Fin.val_ofNat]
    have := q.isLt
    omega
  obtain ⟨r, hr⟩ := Option.isSome_iff_exists.1 (List.find?_isSome.2 ⟨q, hmem, hq⟩)
  exact ⟨r, hr, List.find?_some hr⟩

/-- Settles O14: the urgent round robin comes first, and finds the queue or one like it. -/
theorem urgentQueuesAreServedFirst : Obligations.UrgentQueuesAreServedFirst := by
  intro s q hu hf
  obtain ⟨r, hr, hp⟩ := roundRobin_some (p := fun q => (s.queue 0 q).urgent && s.fetchable 0 q) (q := q) (by simp [hu, hf])
    s.host.arb.nextUrgent
  obtain ⟨hur, hfr⟩ := Bool.and_eq_true_iff.1 hp
  exact ⟨r, { s.host.arb with nextUrgent := (r.val + 1) % 32 }, by simp only [State.arbitrate, hr], hur, hfr, rfl, rfl⟩

/-! ### Fetch (R84, R88, R90, R691) -/

/-- A change of a function is what it makes of the function that stands there. -/
theorem State.updFunc_congr (s : State) {fn : FnId} {f k : Func → Func} (h : f (s.func fn) = k (s.func fn)) :
    s.updFunc fn f = s.updFunc fn k := by
  rw [State.updFunc, State.updFunc, State.updHost, State.updHost, Vec.upd_congr _ fn h]

section Fetch

variable {s : State} {fn : FnId} {q : QId}

theorem State.fetchable_available (hf : s.fetchable fn q = true) : 0 < (s.queue fn q).available := by
  simp only [State.fetchable, Bool.and_eq_true, decide_eq_true_eq] at hf
  exact hf.1.1.1.2

/-- A fetch of one entry takes the space it needs, or holds the entry (R88). -/
theorem State.fetchAll_one (hf : s.fetchable fn q = true) (bytes : List Byte) :
    s.fetchAll fn q [bytes] = match s.allotSpace fn (entryOf bytes) false with
      | some (a, s1) => s1.pushFetched fn q (entryOf bytes) a
      | none => s.holdFetch fn q (entryOf bytes) := by
  simp only [State.fetchAll, hf, if_true] <;> rfl

theorem exec_commandFetch_one {a : Arbiter} (t : Time) (bytes : List Byte)
    (ha : (s.at t).arbitrate = some ((fn, q), a)) (hav : 0 < (s.queue fn q).available) :
    exec (.commandFetch t [bytes]) s = .next (((s.at t).updHost fun h => { h with arb := a }).fetchAll fn q [bytes]) := by
  have hmin : min 4 (s.queue fn q).available = (min 4 (s.queue fn q).available - 1) + 1 := by omega
  show execCommandFetch t [bytes] s = _
  simp only [execCommandFetch, ha, State.at_queue]
  rw [hmin, List.take_succ_cons, List.take_nil]

/-- The error log entry of a failed read of a submission entry (R109, R691). -/
def State.fetchErrorEntry (s : State) (fn : FnId) (q : QId) (addr : DWord) : ErrEntry :=
  { seq := (s.func fn).errSeq, queue := BitVec.ofNat 16 q.val, sqIndex := BitVec.ofNat 16 (s.queue fn q).sqHead, opcode := 0
    halted := true, status := 0x0013, cid := 0, stateCode := s.stateCode, detail := addr, timeUs := s.perstUs }

/-- What a failed read of a submission entry of a queue makes of its function. -/
def Func.fetchFailed (order : Nat) (e : ErrEntry) (q : QId) (u : Func) : Func :=
  { u with
    queues := Vec.upd u.queues q fun p => { p with halted := true, haltOrder := order, fetcherr := true }
    errSeq := u.errSeq + 1
    errLog := (e :: u.errLog).take 64 }

/-- A failed read of an entry changes its function alone: the queue is halted, and the error log has one entry more. -/
theorem exec_fetchReadError_fetchable (t : Time) (addr : DWord) (hf : (s.at t).fetchable fn q = true) :
    exec (.fetchReadError t fn q addr) s =
      .next ((s.at t).updFunc fn (Func.fetchFailed s.host.fetchOrder ((s.at t).fetchErrorEntry fn q addr) q)) := by
  show execFetchReadError t fn q addr s = _
  simp only [execFetchReadError, hf, if_true, State.setHalted, State.updQueue, State.logError, State.updFunc_updFunc,
    Vec.upd_upd]
  rfl

end Fetch

/-- Settles O13, from one turn of COMMAND_FETCH and from what a failed read leaves of its function. -/
theorem fetchMovesEntriesOffTheRing : Obligations.FetchMovesEntriesOffTheRing := by
  intro t bytes fn q a s s1
  refine ⟨fun ha hf => ?_, fun addr hf => ?_⟩
  · have hone := exec_commandFetch_one t bytes ha (State.fetchable_available (s := s1) hf)
    rw [State.fetchAll_one hf] at hone
    refine ⟨fun al s2 hal => ?_, fun hal => ?_⟩
    · rw [hone, hal]
    · rw [hone, hal]
  · refine ⟨_, (s.at t).fetchErrorEntry fn q addr, exec_fetchReadError_fetchable t addr hf, ?_⟩
    have hfunc := State.func_updFunc_same (s.at t) fn (Func.fetchFailed s.host.fetchOrder ((s.at t).fetchErrorEntry fn q addr) q)
    have hqueue : (((s.at t).updFunc fn (Func.fetchFailed s.host.fetchOrder ((s.at t).fetchErrorEntry fn q addr) q)).queue fn q) =
        { s.queue fn q with halted := true, haltOrder := s.host.fetchOrder, fetcherr := true } := by
      rw [State.queue, hfunc]
      exact Vec.getElem_upd_same _ _ _
    rw [hqueue, hfunc]
    exact ⟨State.updFunc_congr _ rfl, rfl, rfl, rfl, rfl, rfl, rfl, rfl, rfl, rfl, rfl, rfl, rfl⟩

/-! ### Held entries, and the deficit (R87, R175, R177 to R179) -/

section HeldEntries

variable {s : State} {fn : FnId} {q : QId} {h : HeldFetch} (t : Time) (hh : (s.queue fn q).heldFetch = some h)
  (hr : (s.queue fn q).halted = false)
include hh hr

theorem exec_heldFetchResume_fits (hs : s.host.fetchStopped = false) (hl : (s.queue fn q).held.length < 64) {a : Alloc}
    {s2 : State} (ha : (s.at t).allotSpace fn h.entry (s.host.heldOrder.head? == some (fn, q)) = some (a, s2)) :
    exec (.heldFetchResume t fn q) s = .next ((s2.pushFetched fn q h.entry a).dropHeldOrder fn q) := by
  show execHeldFetchResume t fn q s = _
  simp [execHeldFetchResume, hh, hr, hs, ha, Nat.not_le.2 hl]

theorem exec_fullWaitExpiry_due (ho : h.entry.opcode = 0x12) (hw : h.since + h.waitMs * 1000000 ≤ (s.at t).now) :
    exec (.fullWaitExpiry t fn q) s = .next ((s.at t).bufferFull fn q h.entry) := by
  have hop : Opcode.ofCode h.entry.opcode = some .frameAppend := by rw [ho]; rfl
  have hwait : h.since + Config.ms h.waitMs ≤ (s.at t).now := hw
  show execFullWaitExpiry t fn q s = _
  simp only [execFullWaitExpiry, State.at_queue, hh, hop, hr, hwait, and_self, if_true]

end HeldEntries

theorem exec_rateDeficitRepeat_due {s : State} {l : Time} (t : Time) (hl : s.rcd.drey.lastRaise = some l)
    (hw : s.warnLevel ≤ s.occupancy) (hd : l + 100000000 ≤ (s.at t).now) :
    exec (.rateDeficitRepeat t) s = .next (s.at t).rateDeficit := by
  have hdue : (s.at t).warnLevel ≤ (s.at t).occupancy ∧ l + Config.ms 100 ≤ (s.at t).now := ⟨hw, hd⟩
  show execRateDeficitRepeat t s = _
  simp only [execRateDeficitRepeat, State.at_rcd, hl, if_pos hdue]

/-- Settles O15, from the three rows. -/
theorem heldEntriesResumeOrTimeOut : Obligations.HeldEntriesResumeOrTimeOut := by
  intro t fn q h s
  exact ⟨fun hh hr hs hl al s2 ha => exec_heldFetchResume_fits t hh hr hs hl ha,
    fun hh hr ho hw => exec_fullWaitExpiry_due t hh hr ho hw, fun l hl hw hd => exec_rateDeficitRepeat_due t hl hw hd⟩

/-! ### Timers of the host link (R71, R78, R92) -/

theorem exec_coalesceTimerExpiry_due {s : State} {fn : FnId} {q : QId} {f : Time} (t : Time)
    (hf : (s.queue fn q).firstUnsignalled = some f) (hc : (s.queue fn q).coalTime ≠ 0)
    (hd : f + (s.queue fn q).coalTime.toNat * 10000 ≤ (s.at t).now) :
    exec (.coalesceTimerExpiry t fn q) s = .next (((s.at t).updQueue fn q fun u =>
      { u with unsignalled := 0, firstUnsignalled := none }).msix fn (s.queue fn q).vector) := by
  have hdue : (s.queue fn q).coalTime ≠ 0 ∧ f + (s.queue fn q).coalTime.toNat * 10000 ≤ (s.at t).now := ⟨hc, hd⟩
  show execCoalesceTimerExpiry t fn q s = _
  simp only [execCoalesceTimerExpiry, State.at_queue, hf]
  exact congrArg _ (if_pos hdue)

/-- The first row in a window of 1 ms sets the budget anew, and a further one changes nothing (log entry 163). -/
theorem exec_inboundBudgetWindow (t : Time) (s : State) : exec (.inboundBudgetWindow t) s =
    .next (if s.host.arb.window < max s.now t / 1000000 then (s.at t).updHost fun h =>
      { h with arb := { h.arb with budget := s.inboundBudget, window := max s.now t / 1000000, beyond := 0 } }
      else s.at t) := rfl

theorem State.inboundBudget_of_clip {s : State} {c : OpenClip} (hc : s.rcd.clip = some c) :
    s.inboundBudget = c.prof.rate * 125 / 100000 := by
  rw [State.inboundBudget, hc]

theorem State.inboundBudget_of_noClip {s : State} (hc : s.rcd.clip = none) : s.inboundBudget = 0 := by
  rw [State.inboundBudget, hc]

theorem exec_aspmL1Entry_idle {s : State} (t : Time) (hu : s.host.link.up = true) (hb : s.linkBusy = false)
    (hi : s.host.link.idleSince + 100000 ≤ (s.at t).now) :
    exec (.aspmL1Entry t) s = .next ((s.at t).updHost fun h => { h with link := { h.link with l1 := true } }) := by
  have hb1 : (s.at t).linkBusy = false := hb
  show execAspmL1Entry t s = _
  simp only [execAspmL1Entry, State.at_host, hu, hb1, decide_eq_true hi]
  rfl

/-- Settles O16, from the timer, the window and the entry into L1. -/
theorem hostLinkTimers : Obligations.HostLinkTimers := by
  intro t fn q s n
  refine ⟨fun f hf hc hd => exec_coalesceTimerExpiry_due t hf hc hd, fun c hc hw => ?_, fun hc hw => ?_, fun hw => ?_,
    fun hu hb hi => exec_aspmL1Entry_idle t hu hb hi⟩
  · rw [exec_inboundBudgetWindow, if_pos hw, State.inboundBudget_of_clip hc]
  · rw [exec_inboundBudgetWindow, if_pos hw, State.inboundBudget_of_noClip hc]
  · rw [exec_inboundBudgetWindow, if_neg (Nat.not_lt.2 hw)]

/-! ### Functions that are not ready (R69, R119, R698, R699) -/

section NotReady

variable {s : State} {fn : FnId} (t : Time) (hr : (s.func fn).ready = false)
include hr

/-- What a function that is not ready answers to a request. -/
theorem exec_configRequestNotReady (req : HostAccess) : exec (.configRequestNotReady t fn req) s = .next (match req with
    | .configRead | .configWrite | .configFlr => (s.at t).emit (.retryStatus fn)
    | .barRead n => (s.at t).emit (.allOnes fn n)
    | .barWrite => (s.at t).emit (.discarded fn)) := by
  show execConfigRequestNotReady t fn req s = _
  simp only [execConfigRequestNotReady, State.at_func, hr]
  cases req <;> rfl

theorem exec_functionLevelReset_notReady :
    exec (.functionLevelReset t fn) s = .next ((s.at t).emit (.retryStatus fn)) := by
  show execFunctionLevelReset t fn s = _
  simp only [execFunctionLevelReset, State.at_func, hr]
  rfl

end NotReady

/-- The link trains at each rate and width of Table 3.1. -/
theorem linkTrains_of_table {rate width : Nat} (hr : rate = 25 ∨ rate = 50 ∨ rate = 80 ∨ rate = 160)
    (hw : width = 1 ∨ width = 2 ∨ width = 4 ∨ width = 8) : linkTrains rate width = true := by
  rcases hr with rfl | rfl | rfl | rfl <;> rcases hw with rfl | rfl | rfl | rfl <;> rfl

/-! ### What only a reset of a function and an error of it change

The reset epoch, readiness and the error log of the functions (R77, R110, R698). Completions that are no errors, space given
back, events and records leave them. -/

/-- The part of a function that its resets and its errors alone change. -/
def Func.lasting (f : Func) : BitVec 16 × Bool × Bool × List ErrEntry × Nat := (f.epoch, f.ready, f.inReset, f.errLog, f.errSeq)

/-- The lasting parts of the four functions. -/
def HostLink.lasting (h : HostLink) : FnId → BitVec 16 × Bool × Bool × List ErrEntry × Nat := fun fn => h.funcs[fn].lasting

section KeepLasting

variable (s : State)

theorem Func.lasting_epoch {f g : Func} (h : f.lasting = g.lasting) : f.epoch = g.epoch := congrArg (·.1) h
theorem Func.lasting_ready {f g : Func} (h : f.lasting = g.lasting) : f.ready = g.ready := congrArg (·.2.1) h

/-- The lasting part of one function, where those of all four are kept. -/
theorem State.func_lasting {s u : State} (h : u.host.lasting = s.host.lasting) (fn : FnId) :
    (u.func fn).lasting = (s.func fn).lasting := congrFun h fn

@[simp] theorem keepFold_lasting {α : Type} (f : State → α → State) (l : List α)
    (hf : ∀ u x, (f u x).host.lasting = u.host.lasting) : (l.foldl f s).host.lasting = s.host.lasting :=
  foldl_keeps (fun u => u.host.lasting) f hf l s

@[simp] theorem keepIte_lasting (c : Prop) [Decidable c] (a b : State) :
    (if c then a else b).host.lasting = if c then a.host.lasting else b.host.lasting :=
  apply_ite (fun u : State => u.host.lasting) c a b

/-- A change of a function that leaves its lasting part leaves those of all. -/
theorem State.updFunc_lasting (fn : FnId) {f : Func → Func} (hf : ∀ u, (f u).lasting = u.lasting) :
    (s.updFunc fn f).host.lasting = s.host.lasting := by
  funext g
  by_cases h : g = fn
  · subst h
    exact (congrArg Func.lasting (State.func_updFunc_same s g f)).trans (hf _)
  · exact congrArg Func.lasting (State.func_updFunc_ne s h f)

@[simp] theorem State.updQueue_lasting (fn : FnId) (q : QId) (f : QueuePair → QueuePair) :
    (s.updQueue fn q f).host.lasting = s.host.lasting := s.updFunc_lasting fn fun _ => rfl

@[simp] theorem State.emit_lasting (x : Sent) : (s.emit x).host.lasting = s.host.lasting := rfl
@[simp] theorem State.msix_lasting (fn : FnId) (v : BitVec 6) : (s.msix fn v).host.lasting = s.host.lasting := rfl
@[simp] theorem State.touchLink_lasting : s.touchLink.host.lasting = s.host.lasting := rfl
@[simp] theorem State.updLock_lasting (l : LockId) (f : Lock → Lock) : (s.updLock l f).host.lasting = s.host.lasting := rfl
@[simp] theorem State.dropWaiters_lasting (fn : FnId) (q : QId) : (s.dropWaiters fn q).host.lasting = s.host.lasting := rfl
@[simp] theorem State.grantTo_lasting (l : LockId) (fn : FnId) (q : QId) :
    (s.grantTo l fn q).host.lasting = s.host.lasting := rfl

@[simp] theorem State.raiseIn_lasting (n : Nat) (fn : FnId) : (s.raiseIn n fn).host.lasting = s.host.lasting := by
  have h : (s.updFunc fn fun u => { u with eventPending := u.eventPending ||| evMask n }).host.lasting = s.host.lasting :=
    s.updFunc_lasting fn fun _ => rfl
  simp [State.raiseIn, h]

@[simp] theorem State.raise_lasting (n : Nat) : (s.raise n).host.lasting = s.host.lasting := by
  simp [State.raise]

@[simp] theorem State.watchOccupancy_lasting : s.watchOccupancy.host.lasting = s.host.lasting := by
  simp [State.watchOccupancy, State.rateDeficit]

@[simp] theorem State.freeSlot_lasting (slot : Nat) : (s.freeSlot slot).host.lasting = s.host.lasting := by
  simp [State.freeSlot]

@[simp] theorem State.freeAlloc_lasting (fn : FnId) (a : Alloc) : (s.freeAlloc fn a).host.lasting = s.host.lasting := by
  cases a with
  | none => rfl
  | frame slot => simp [State.freeAlloc]
  | review own shared => simp [State.freeAlloc]
  | side u => simp [State.freeAlloc]

@[simp] theorem State.writeCompletion_lasting (fn : FnId) (q : QId) (c : Completion) :
    (s.writeCompletion fn q c).host.lasting = s.host.lasting := by
  simp [State.writeCompletion]

@[simp] theorem State.post_lasting (fn : FnId) (q : QId) (c : Completion) :
    (s.post fn q c).host.lasting = s.host.lasting := by
  simp [State.post]

@[simp] theorem State.sendData_lasting (fn : FnId) (e : Entry) (d : List Byte) :
    (s.sendData fn e d).host.lasting = s.host.lasting := by
  rw [State.sendData]
  exact keepFold_lasting s _ _ fun _ _ => rfl

@[simp] theorem State.dropUnstarted_lasting (fn : FnId) (q : QId) :
    (s.dropUnstarted fn q).host.lasting = s.host.lasting := by
  simp only [State.dropUnstarted, State.updQueue_lasting, State.touchLink_lasting]
  exact keepFold_lasting s _ _ fun u f => State.freeAlloc_lasting u fn f.alloc

/-- A completion that is no error neither logs nor halts. -/
theorem State.complete_noError (org : Origin) (e : Entry) {st : Status} (hst : Status.isError st = false) (v : DWord)
    (d : List Byte) : s.complete org e st v d =
      if org.silent then s
      else if org.uart then
        { (s.emit (.uart 0x81 (completionBytes (s.completionOf e.cid st v) s.commitClipWord s.commitFramesWord ++ d))) with
          vole := { s.vole with uartBusy := false } }
      else (if d.isEmpty then s else s.sendData org.fn e d).post org.fn org.q (s.completionOf e.cid st v) := by
  simp only [State.complete, hst, Bool.false_and, Bool.false_eq_true, if_false]

theorem State.complete_lasting (org : Origin) (e : Entry) {st : Status} (hst : Status.isError st = false) (v : DWord)
    (d : List Byte) : (s.complete org e st v d).host.lasting = s.host.lasting := by
  rw [State.complete_noError s org e hst]
  simp only [keepIte_lasting, State.post_lasting, State.sendData_lasting, State.emit_lasting, ite_self]

@[simp] theorem State.completeAcquire_lasting (l : LockId) (k : Lock) (org : Origin) (cid : BitVec 16) (op : BitVec 8) :
    (s.completeAcquire l k org cid op).host.lasting = s.host.lasting := by
  rw [State.completeAcquire, State.complete_lasting _ _ _ (by cases k.abandoned <;> rfl), State.grantTo_lasting]

@[simp] theorem State.freeLock_lasting (l : LockId) (a : Bool) : (s.freeLock l a).host.lasting = s.host.lasting := by
  simp only [State.freeLock]
  split <;> simp

@[simp] theorem State.abandonLocks_lasting (p : Lock → Bool) : (s.abandonLocks p).host.lasting = s.host.lasting := by
  simp [State.abandonLocks]

/-! Records, frames and the commit point. -/

@[simp] theorem State.addRecord_host (r : VolRecord) : (s.addRecord r).host = s.host := rfl

@[simp] theorem State.queueOpenRecord_host : s.queueOpenRecord.host = s.host := by
  simp only [State.queueOpenRecord]
  (repeat' split) <;> rfl

@[simp] theorem State.queueCloseRecord_host : s.queueCloseRecord.host = s.host := by
  simp only [State.queueCloseRecord]
  split <;> simp

@[simp] theorem State.queueAllClose_host (n : Nat) : (s.queueAllClose n).host = s.host := by
  induction n generalizing s with
  | zero => rfl
  | succ n ih =>
    rw [State.queueAllClose]
    split
    · rfl
    · rw [ih, State.queueCloseRecord_host]

@[simp] theorem State.closeClip_lasting (reason : Nat) : (s.closeClip reason).host.lasting = s.host.lasting := by
  simp only [State.closeClip]
  split <;> simp [apply_ite State.host]

@[simp] theorem State.dropFrame_lasting (f : Frame) : (s.dropFrame f).host.lasting = s.host.lasting := by
  rw [State.dropFrame, State.freeSlot_lasting]
  rfl

@[simp] theorem State.forgetFrame_host (f : Frame) : (s.forgetFrame f).host = s.host := rfl

@[simp] theorem State.advanceCommit_lasting (k : Nat) : (s.advanceCommit k).host.lasting = s.host.lasting := by
  induction k generalizing s with
  | zero => rfl
  | succ k ih =>
    rw [State.advanceCommit]
    split
    · rfl
    · split
      · rfl
      · split
        · rw [ih, State.dropFrame_lasting, State.raise_lasting]
          rfl
        · rfl

@[simp] theorem State.publish_lasting : s.publish.host.lasting = s.host.lasting := by
  rw [State.publish, State.watchOccupancy_lasting, State.advanceCommit_lasting]

/-! The steps of a reset of functions (Table 3.8). -/

@[simp] theorem State.settleStarted_lasting (fn : FnId) : (s.settleStarted fn).host.lasting = s.host.lasting :=
  keepFold_lasting s (fun u r => u.dropRunning r) _ fun _ _ => rfl

@[simp] theorem State.dropFetched_lasting (fn : FnId) : (s.dropFetched fn).host.lasting = s.host.lasting := by
  rw [State.dropFetched]
  refine (keepFold_lasting _ _ _ fun u q => ?_).trans
    (keepFold_lasting s (fun (u : State) (d : Deferred) => u.freeAlloc fn d.cmd.alloc) _ fun u d => ?_)
  · rw [State.dropWaiters_lasting, State.dropUnstarted_lasting]
  · exact u.freeAlloc_lasting fn d.cmd.alloc

@[simp] theorem State.dropArriving_lasting : s.dropArriving.host.lasting = s.host.lasting := by
  simp [State.dropArriving]

@[simp] theorem State.closeForReset_lasting : s.closeForReset.host.lasting = s.host.lasting := by
  simp [State.closeForReset]

end KeepLasting

/-! ### Functions become ready (R69, R119, R526, R699, Table 3.1) -/

/-- What a boot sets as it reaches step 11: the step, the power state, the link, and which functions answer. -/
def State.bootView (s : State) : Nat × PowerState × LinkState × (FnId → BitVec 16 × Bool × Bool × List ErrEntry × Nat) :=
  (s.quill.bootStep, s.pwr.state, s.host.link, s.host.lasting)

section KeepBootView

variable (s : State)

@[simp] theorem keepIte_bootView (c : Prop) [Decidable c] (a b : State) :
    (if c then a else b).bootView = if c then a.bootView else b.bootView := apply_ite State.bootView c a b

@[simp] theorem State.updCal_bootView (f : Calib → Calib) : (s.updCal f).bootView = s.bootView := rfl
@[simp] theorem State.updMnt_bootView (f : Mount → Mount) : (s.updMnt f).bootView = s.bootView := rfl
@[simp] theorem State.writeBank_bootView : s.writeBank.bootView = s.bootView := rfl

@[simp] theorem State.raiseIn_bootView (n : Nat) (fn : FnId) : (s.raiseIn n fn).bootView = s.bootView := by
  have hl := s.raiseIn_lasting n fn
  simp only [State.bootView, hl]
  simp only [State.raiseIn]
  split <;> rfl

@[simp] theorem State.raise_bootView (n : Nat) : (s.raise n).bootView = s.bootView := by
  simp [State.raise]

@[simp] theorem State.log_bootView (code : BitVec 16) (args : List Word) : (s.log code args).bootView = s.bootView := by
  simp only [State.log, State.coalesce, State.createRecord]
  repeat' split
  all_goals rfl

@[simp] theorem State.logAll_bootView (l : List (BitVec 16 × List Word)) : (s.logAll l).bootView = s.bootView := by
  rw [State.logAll]
  exact foldl_keeps State.bootView _ (fun u x => u.log_bootView x.1 x.2) l s

@[simp] theorem State.logDormouse_bootView : s.logDormouse.bootView = s.bootView := s.logAll_bootView _

@[simp] theorem State.settleFloor_bootView : s.settleFloor.bootView = s.bootView := by
  simp only [State.settleFloor]
  split
  · simp only [keepIte_bootView, State.log_bootView]
    (repeat' split) <;> rfl
  · rfl

@[simp] theorem State.grantReleases_bootView : s.grantReleases.bootView = s.bootView := by
  simp only [State.grantReleases]
  split <;> rfl

@[simp] theorem State.magazineFromPins_bootView : s.magazineFromPins.bootView = s.bootView := by
  simp [State.magazineFromPins, State.setMagazine]

@[simp] theorem State.setUnit_bootView (step : Nat) (h : Head) (b : Beam) (st : StepStatus) :
    (s.setUnit step h b st).bootView = s.bootView := by
  simp only [State.setUnit]
  (repeat' split) <;> rfl

@[simp] theorem State.setSteps_bootView (steps : List Nat) (st : StepStatus) :
    (s.setSteps steps st).bootView = s.bootView := by
  rw [State.setSteps]
  refine foldl_keeps State.bootView _ (fun u n => ?_) steps s
  refine foldl_keeps State.bootView _ (fun v x => ?_) _ u
  exact v.setUnit_bootView n x.1 x.2 st

@[simp] theorem State.followBringup_bootView : s.followBringup.bootView = s.bootView := by
  simp [State.followBringup]

/-- Everything that step 11 does after the functions are raised leaves them raised. -/
theorem State.becomeReady_bootView (rate width : Nat) : (s.becomeReady rate width).bootView =
    (11, s.pwr.state, (s.raiseFunctions rate width).host.link, (s.raiseFunctions rate width).host.lasting) := by
  simp only [State.becomeReady]
  split
  · rfl
  · simp
    rfl

theorem State.raiseFunctions_func (rate width : Nat) (g : FnId) : (s.raiseFunctions rate width).func g =
    { s.func g with ready := !s.quill.recovery || g == 3, inReset := false } :=
  Vector.getElem_ofFn _

theorem State.becomeReady_ready (rate width : Nat) (g : FnId) :
    ((s.becomeReady rate width).func g).ready = (!s.quill.recovery || g == 3) := by
  have hl := congrArg (·.2.2.2) (s.becomeReady_bootView rate width)
  rw [Func.lasting_ready (State.func_lasting hl g), State.raiseFunctions_func]

end KeepBootView

section FunctionsReady

variable {s : State} (t : Time) {rate width : Nat}

theorem State.endResets_func (g : FnId) : s.endResets.func g =
    if (s.func g).inReset then { s.func g with ready := !s.quill.recovery || g == 3, inReset := false } else s.func g :=
  Vector.getElem_ofFn _

variable (hs : s.quill.stopped = false) (hl : linkTrains rate width = true)
include hs hl

/-- Step 11 of a boot: the part goes to RUN and becomes ready. -/
theorem exec_functionsReady_boot (hb : s.quill.bootStep = 10 ∨ (s.quill.recovery = true ∧ s.quill.bootStep = 5)) :
    exec (.functionsReady t rate width) s =
      .next (((s.at t).updPwr fun w => { w with state := .run }).becomeReady rate width) := by
  show execFunctionsReady t rate width s = _
  simp only [execFunctionsReady, State.at_quill, hs, hl, if_pos hb]
  rfl

/-- After the boot: the link has trained again, or functions end their resets over the link as it stands. -/
theorem exec_functionsReady_later (hb : s.quill.bootStep = 11) : exec (.functionsReady t rate width) s =
    .next (if s.host.link.up = false then (s.at t).raiseFunctions rate width else (s.at t).endResets) := by
  show execFunctionsReady t rate width s = _
  simp [execFunctionsReady, hs, hl, hb]

end FunctionsReady

/-- Settles O17, from the answers of a function that is not ready and the three kinds of FUNCTIONS_READY. -/
theorem functionsThatAreNotReadyAnswer : Obligations.FunctionsThatAreNotReadyAnswer := by
  intro t fn s
  refine ⟨fun hr => ⟨exec_configRequestNotReady t hr .configRead, exec_configRequestNotReady t hr .configWrite,
    exec_configRequestNotReady t hr .configFlr, fun n => exec_configRequestNotReady t hr (.barRead n),
    exec_configRequestNotReady t hr .barWrite, exec_functionLevelReset_notReady t hr⟩,
    fun rate width hrate hwidth hs => ?_⟩
  have hl := linkTrains_of_table hrate hwidth
  have hview := State.becomeReady_bootView ((s.at t).updPwr fun w => { w with state := .run }) rate width
  have hready := State.becomeReady_ready ((s.at t).updPwr fun w => { w with state := .run }) rate width
  have hstep := congrArg (·.1) hview
  have hrun := congrArg (·.2.1) hview
  have hlink := congrArg (·.2.2.1) hview
  refine ⟨fun hrec hb => ?_, fun hrec hb => ?_, fun hrec hb hu => ?_, fun hrec hb hu => ?_⟩
  · refine ⟨_, exec_functionsReady_boot t hs hl (.inl hb), hstep, hrun, congrArg LinkState.up hlink,
      congrArg LinkState.rate hlink, congrArg LinkState.width hlink, fun g => ?_⟩
    rw [hready, State.updPwr_quill, State.at_quill, hrec]
    rfl
  · refine ⟨_, exec_functionsReady_boot t hs hl (.inr ⟨hrec, hb⟩), hstep, hrun, congrArg LinkState.up hlink, fun g => ?_⟩
    rw [hready, State.updPwr_quill, State.at_quill, hrec]
    rfl
  · rw [exec_functionsReady_later t hs hl hb, if_pos hu, State.raiseFunctions, State.at_quill, hrec]
    rfl
  · refine ⟨_, (exec_functionsReady_later t hs hl hb).trans (congrArg _ (if_neg (by simp [hu]))), fun g => ?_⟩
    rw [State.endResets_func, State.at_quill, hrec]
    rfl

/-! ### Resets of functions (R77, R114, R115, R697, R699, Table 3.8) -/

section FunctionResets

variable (s : State)

/-- What a reset of a function makes of its lasting part: the epoch is one up, the error log stays, and it does not answer. -/
def lastingReset (v : BitVec 16 × Bool × Bool × List ErrEntry × Nat) : BitVec 16 × Bool × Bool × List ErrEntry × Nat :=
  (v.1 + 1, false, true, v.2.2.2)

/-- The registers of each function of a list return to their reset values, once. -/
theorem foldReset_lasting (fns : List FnId) (hn : fns.Nodup) (g : FnId) :
    (fns.foldl (fun u fn => (u.orphanPower fn).updFunc fn fun f => f.afterReset fn) s).host.lasting g =
      if g ∈ fns then lastingReset (s.host.lasting g) else s.host.lasting g := by
  induction fns generalizing s with
  | nil => rfl
  | cons fn fns ih =>
    obtain ⟨hfn, hn⟩ := List.nodup_cons.1 hn
    rw [List.foldl_cons, ih _ hn]
    by_cases hg : g = fn
    · subst hg
      rw [if_neg hfn, if_pos List.mem_cons_self]
      exact congrArg Func.lasting (State.func_updFunc_same (s.orphanPower g) g _)
    · have hne : ((s.orphanPower fn).updFunc fn fun f => f.afterReset fn).host.lasting g = s.host.lasting g :=
        congrArg Func.lasting (State.func_updFunc_ne (s.orphanPower fn) hg _)
      rw [hne]
      simp [hg]

theorem State.resetFns_lasting (fns : List FnId) (hn : fns.Nodup) (g : FnId) :
    (s.resetFns fns).host.lasting g = if g ∈ fns then lastingReset (s.host.lasting g) else s.host.lasting g := by
  have hstarted : (fns.foldl (fun u fn => (u.settleStarted fn).dropFetched fn) s).host.lasting = s.host.lasting :=
    keepFold_lasting s _ _ fun u fn => by rw [State.dropFetched_lasting, State.settleStarted_lasting]
  rw [State.resetFns, State.publish_lasting, foldReset_lasting _ fns hn]
  simp only [keepIte_lasting, State.closeForReset_lasting, State.abandonLocks_lasting, State.dropArriving_lasting,
    hstarted, ite_self]

theorem State.mem_toReset (g : FnId) : g ∈ s.toReset ↔ (s.func g).inReset = false := by
  simp [State.toReset]

/-- A reset of the link resets each function whose reset is not in progress, and leaves none ready (R699). -/
theorem State.resetLink_func (g : FnId) : (s.resetLink.func g).ready = false ∧
    (s.resetLink.func g).epoch = if (s.func g).inReset = true then (s.func g).epoch else (s.func g).epoch + 1 := by
  have hf : s.resetLink.func g = { ((s.resetFns s.toReset).func g) with ready := false, inReset := true } :=
    Vector.getElem_map _ _
  have hl := s.resetFns_lasting s.toReset ((List.nodup_finRange 4).filter _) g
  have he : ((s.resetFns s.toReset).func g).epoch = if g ∈ s.toReset then (s.func g).epoch + 1 else (s.func g).epoch := by
    refine (congrArg (·.1) hl).trans ?_
    split <;> rfl
  refine ⟨by rw [hf], ?_⟩
  rw [hf]
  show ((s.resetFns s.toReset).func g).epoch = _
  rw [he, if_congr (s.mem_toReset g) rfl rfl]
  cases (s.func g).inReset <;> rfl

end FunctionResets

section LinkRows

variable {s : State} (t : Time)

theorem exec_functionLevelReset_ready {fn : FnId} (hr : (s.func fn).ready = true) :
    exec (.functionLevelReset t fn) s = .next ((s.at t).resetFns [fn]) :=
  congrArg _ (if_pos hr)

theorem exec_linkDown_up (hu : s.host.link.up = true) : exec (.linkDown t) s = .next (s.at t).resetLink :=
  congrArg _ (if_pos hu)

theorem exec_hotReset_up (hu : s.host.link.up = true) : exec (.hotReset t) s = .next (s.at t).resetLink :=
  congrArg _ (if_pos hu)

theorem exec_linkDisabled (u : State) (hu : (if s.host.link.up then (s.at t).resetLink else s.at t) = u) :
    exec (.linkDisabled t) s = .next (u.updHost fun h => { h with link := { h.link with disabled := true } }) := by
  subst hu
  rfl

end LinkRows

/-- The word at 0x0010 of BAR0 is the reset epoch (R77). -/
theorem State.readBar0_epoch (s : State) (fn : FnId) : s.readBar0 fn 0x10 = (s.func fn).epoch.setWidth 32 := rfl

theorem extract_low_setWidth (x : BitVec 16) : (x.setWidth 32).extractLsb' 0 16 = x := by
  apply BitVec.eq_of_toNat_eq
  have := x.isLt
  simp
  omega

theorem extract_high_setWidth (x : BitVec 16) : (x.setWidth 32).extractLsb' 16 16 = 0 := by
  apply BitVec.eq_of_toNat_eq
  have := x.isLt
  simp [Nat.shiftRight_eq_div_pow]
  omega

/-- A write in the BAR0 window of a ready function (Table 3.3). -/
theorem exec_registerWrite_bar0 {s : State} {fn : FnId} (t : Time) {off : Nat} (hr : (s.func fn).ready = true)
    (ho : off < 0x10000) (v : Word) :
    exec (.registerWrite t (.bar0 fn) off v) s = .next ((s.at t).writeBar0 fn off v) := by
  show execRegisterWrite t (.bar0 fn) off v s = _
  simp only [execRegisterWrite, if_neg (Nat.not_le.2 ho), State.barWrite_ready (s := s.at t) hr]

/-- Settles O18, from what a reset of functions leaves of their lasting parts. -/
theorem functionResetCountsItsEpoch : Obligations.FunctionResetCountsItsEpoch := by
  intro t fn s
  refine ⟨fun hr => ?_, fun hu => ?_, fun hd => ?_, fun g => ?_, ⟨_, rfl, fun g => ?_⟩, ?_, ?_, fun hr v => ?_⟩
  · have hl := (s.at t).resetFns_lasting [fn] (List.nodup_singleton fn)
    have hfn : (((s.at t).resetFns [fn]).func fn).lasting = lastingReset (s.func fn).lasting :=
      (hl fn).trans (if_pos List.mem_cons_self)
    refine ⟨_, exec_functionLevelReset_ready t hr, congrArg (·.1) hfn, congrArg (·.2.2.2.1) hfn, congrArg (·.2.1) hfn,
      congrArg (·.2.2.2.2) hfn, fun g hg => ?_⟩
    exact congrArg (·.1) ((hl g).trans (if_neg (by simpa using hg)))
  · refine ⟨_, _, _, exec_linkDown_up t hu, exec_hotReset_up t hu, exec_linkDisabled t _ (if_pos hu), fun g => ?_⟩
    obtain ⟨hready, hepoch⟩ := (s.at t).resetLink_func g
    exact ⟨⟨hepoch, hready⟩, ⟨hepoch, hready⟩, hepoch, hready⟩
  · exact ⟨congrArg _ (if_neg (by simp [hd])), congrArg _ (if_neg (by simp [hd])), exec_linkDisabled t _ (if_neg (by simp [hd]))⟩
  · match g with
    | 0 | 1 | 2 | 3 => rfl
  · match g with
    | 0 | 1 | 2 | 3 => rfl
  · rw [State.readBar0_epoch]
    exact extract_low_setWidth _
  · rw [State.readBar0_epoch]
    exact extract_high_setWidth _
  · exact exec_registerWrite_bar0 t hr (by decide) v

/-! ### Locks (R95a, R98 to R102) -/

theorem fieldOf_5_0 (w : Word) : fieldOf w 5 0 = w.toNat % 64 := fieldOf_zero w 5

theorem lockOf_eq (e : Entry) : lockOf e = Fin.ofNat 64 ((parm e 0).toNat % 64) := by
  rw [lockOf, fieldOf_5_0]

section PoppedViews

variable (s : State) (t : Time) (c : Call) (rest : List Fetched)

/-- Taking a command from its queue leaves the epoch of every function. -/
theorem State.popped_epoch (g : FnId) : ((popped s t c rest).func g).epoch = (s.func g).epoch :=
  Func.lasting_epoch (State.func_lasting ((s.at t).updQueue_lasting c.fn c.q _) g)

end PoppedViews

/-- A waiter that was fetched after all the others stands last (R99). -/
theorem putWaiter_last {w : LockWaiter} {l : List LockWaiter} (h : ∀ y ∈ l, y.org.order ≤ w.org.order) :
    putWaiter w l = l ++ [w] := by
  induction l with
  | nil => rfl
  | cons x l ih =>
    obtain ⟨hx, hl⟩ := List.forall_mem_cons.1 h
    rw [putWaiter, if_neg (Nat.not_lt.2 hx), ih hl]
    rfl

section LockRules

variable {s : State} {f : Fetched}

/-- The queue that issued a command owns a lock (R101). -/
def Lock.isOwn (f : Fetched) (k : Lock) : Prop := k.held = true ∧ k.ownerFn = f.org.fn ∧ k.ownerQ = f.org.q

theorem State.holdsLock_iff : s.holdsLock f = true ↔ (s.lock (lockOf f.entry)).isOwn f := by
  simp [State.holdsLock, Lock.ownedBy, Lock.isOwn]

theorem State.ruleLockAcquire_own (h : (s.lock (lockOf f.entry)).isOwn f) : s.ruleLockAcquire f = s.conflict := by
  rw [State.ruleLockAcquire, if_pos (State.holdsLock_iff.2 h)]

theorem State.ruleLockRelease_other (h : ¬(s.lock (lockOf f.entry)).isOwn f) : s.ruleLockRelease f = s.conflict := by
  rw [State.ruleLockRelease, if_neg (fun hh => h (State.holdsLock_iff.1 hh))]

theorem State.ruleLockClear_other (h : ¬(s.lock (lockOf f.entry)).isOwn f) : s.ruleLockClear f = s.conflict := by
  rw [State.ruleLockClear, if_neg (fun hh => h (State.holdsLock_iff.1 hh))]

theorem State.ruleLockRelease_own (h : (s.lock (lockOf f.entry)).isOwn f) :
    s.ruleLockRelease f = (s.freeLock (lockOf f.entry) false).done f 0 := by
  rw [State.ruleLockRelease, if_pos (State.holdsLock_iff.2 h)]

theorem State.ruleLockClear_own (h : (s.lock (lockOf f.entry)).isOwn f) :
    s.ruleLockClear f = (s.updLock (lockOf f.entry) fun k => { k with abandoned := false }).done f 0 := by
  rw [State.ruleLockClear, if_pos (State.holdsLock_iff.2 h)]

theorem State.ruleLockAcquire_free (h : (s.lock (lockOf f.entry)).held = false) : s.ruleLockAcquire f =
    .apply (s.completeAcquire (lockOf f.entry) (s.lock (lockOf f.entry)) f.org f.entry.cid f.entry.opcode) := by
  have hno : ¬ s.holdsLock f = true := fun hh => by simp [State.holdsLock, h] at hh
  simp only [State.ruleLockAcquire, if_neg hno, h]
  rfl

theorem State.ruleLockAcquire_held (hh : (s.lock (lockOf f.entry)).held = true)
    (ho : ¬((s.lock (lockOf f.entry)).ownerFn = f.org.fn ∧ (s.lock (lockOf f.entry)).ownerQ = f.org.q)) :
    s.ruleLockAcquire f = if (parm f.entry 1).toNat % 16384 = 0 ∨ 256 ≤ s.waiterCount then s.lockBusy (lockOf f.entry)
      else .apply (s.updLock (lockOf f.entry) fun k => { k with
        waiters := putWaiter { org := f.org, cid := f.entry.cid, opcode := f.entry.opcode
                               deadline := s.now + (parm f.entry 1).toNat % 16384 * 1000000 } k.waiters }) := by
  have hno : ¬ s.holdsLock f = true := fun h => ho (State.holdsLock_iff.1 h).2
  simp only [State.ruleLockAcquire, if_neg hno, hh, fieldOf_13_0]
  rfl

/-- A lock with no waiter is free once it is released (R102). -/
theorem State.freeLock_noWaiter {l : LockId} (hw : (s.lock l).waiters = []) :
    s.freeLock l false = s.updLock l fun k => { k with held := false } := by
  simp [State.freeLock, hw]

end LockRules

/-- Settles O28, from the rulings of the three lock commands. -/
theorem locksAreTakenAndFreed : Obligations.LocksAreTakenAndFreed := by
  intro t c f rest s u e l k ms mine
  have hlock : lockOf f.entry = l := lockOf_eq f.entry
  have hk : u.lock (lockOf f.entry) = k := by rw [hlock]; rfl
  have hgrant : u.grantTo (lockOf f.entry) f.org.fn f.org.q = u.updLock l mine := by
    rw [State.grantTo, hlock, State.popped_epoch]
  refine ⟨fun ha => ⟨fun hfree hab => ?_, fun hfree hab => ?_, fun hh ho hb => ?_, fun hh ho hms hn => ?_⟩,
    fun ha hh hfn hq hw => ?_, fun ha hh hfn hq => ?_⟩
  · refine congrArg _ ((State.serve_apply ha (State.ruleLockAcquire_free (s := u) (hk ▸ hfree))).trans ?_)
    rw [hk, State.completeAcquire, hgrant, hab]
    rfl
  · refine congrArg _ ((State.serve_apply ha (State.ruleLockAcquire_free (s := u) (hk ▸ hfree))).trans ?_)
    rw [hk, State.completeAcquire, hgrant, hab]
    rfl
  · have hr := State.ruleLockAcquire_held (s := u) (f := f) (hk ▸ hh) (hk ▸ ho)
    rw [if_pos (show (parm f.entry 1).toNat % 16384 = 0 ∨ 256 ≤ u.waiterCount from hb), State.lockBusy, hk] at hr
    exact congrArg _ (State.serve_refuse ha hr)
  · have hr := State.ruleLockAcquire_held (s := u) (f := f) (hk ▸ hh) (hk ▸ ho)
    have hno : ¬((parm f.entry 1).toNat % 16384 = 0 ∨ 256 ≤ u.waiterCount) :=
      fun h => h.elim (fun h0 => absurd h0 (Nat.pos_iff_ne_zero.1 hms)) fun h256 => absurd hn (Nat.not_lt.2 h256)
    rw [if_neg hno, hlock] at hr
    exact ⟨congrArg _ (State.serve_apply ha hr), fun h => putWaiter_last h⟩
  · have hr := State.ruleLockRelease_own (s := u) (f := f) (by rw [hk]; exact ⟨hh, hfn, hq⟩)
    rw [State.freeLock_noWaiter (by rw [hk]; exact hw), hlock] at hr
    exact congrArg _ (State.serve_apply ha hr)
  · have hr := State.ruleLockClear_own (s := u) (f := f) (by rw [hk]; exact ⟨hh, hfn, hq⟩)
    rw [hlock] at hr
    exact congrArg _ (State.serve_apply ha hr)

/-- Settles O29: each of the three commands is refused by its own check, which answers the state code. -/
theorem lockConflictsChangeNoLock : Obligations.LockConflictsChangeNoLock := by
  intro t c f rest s u k holds refused
  have hk : u.lock (lockOf f.entry) = k := by rw [lockOf_eq]; rfl
  refine ⟨fun ha hh => ?_, fun ha hh => ?_, fun ha hh => ?_⟩
  · exact congrArg _ (State.serve_refuse ha (State.ruleLockAcquire_own (s := u) (by rw [hk]; exact hh)))
  · exact congrArg _ (State.serve_refuse ha (State.ruleLockRelease_other (s := u) (by rw [hk]; exact hh)))
  · exact congrArg _ (State.serve_refuse ha (State.ruleLockClear_other (s := u) (by rw [hk]; exact hh)))

/-! ### What completions leave of the locks and of the error policies

A completion moves no lock, unless its status is an error that halts its queue, which takes the queue's waiting acquires
away (R106, R108). -/

/-- The locks, and the error policy of every queue pair. -/
def State.lockView (s : State) : Vector Lock 64 × (FnId → QId → Bool) := (s.host.locks, fun fn q => (s.queue fn q).policyHalt)

section KeepLocks

variable (s : State)

theorem State.lock_of_lockView {s u : State} (h : u.lockView = s.lockView) : u.lock = s.lock :=
  State.lock_congr (congrArg Prod.fst h)

theorem State.policy_of_lockView {s u : State} (h : u.lockView = s.lockView) (fn : FnId) (q : QId) :
    (u.queue fn q).policyHalt = (s.queue fn q).policyHalt := congrFun (congrFun (congrArg Prod.snd h) fn) q

@[simp] theorem keepIte_lockView (c : Prop) [Decidable c] (a b : State) :
    (if c then a else b).lockView = if c then a.lockView else b.lockView := apply_ite State.lockView c a b

@[simp] theorem keepFold_lockView {α : Type} (f : State → α → State) (l : List α)
    (hf : ∀ u x, (f u x).lockView = u.lockView) : (l.foldl f s).lockView = s.lockView := foldl_keeps State.lockView f hf l s

/-- A change of a function that leaves its queue pairs leaves the locks and every policy. -/
theorem State.updFunc_lockView (fn : FnId) {f : Func → Func} (hf : ∀ u, (f u).queues = u.queues) :
    (s.updFunc fn f).lockView = s.lockView := by
  refine Prod.ext rfl (funext fun g => funext fun q => ?_)
  by_cases h : g = fn
  · subst h
    have hq : ((s.updFunc g f).queue g q) = s.queue g q := by
      rw [State.queue, State.func_updFunc_same, hf]
      rfl
    exact congrArg QueuePair.policyHalt hq
  · have hq : ((s.updFunc fn f).queue g q) = s.queue g q := by
      rw [State.queue, State.func_updFunc_ne s h]
      rfl
    exact congrArg QueuePair.policyHalt hq

/-- A change of a queue pair that leaves its policy leaves the locks and every policy. -/
theorem State.updQueue_lockView (fn : FnId) (q : QId) {f : QueuePair → QueuePair}
    (hf : ∀ u, (f u).policyHalt = u.policyHalt) : (s.updQueue fn q f).lockView = s.lockView := by
  refine Prod.ext rfl (funext fun g => funext fun r => ?_)
  by_cases h : g = fn ∧ r = q
  · obtain ⟨rfl, rfl⟩ := h
    exact (congrArg QueuePair.policyHalt (State.queue_updQueue_same s g r f)).trans (hf _)
  · exact congrArg QueuePair.policyHalt (State.queue_updQueue_ne s h f)

@[simp] theorem State.emit_lockView (x : Sent) : (s.emit x).lockView = s.lockView := rfl
@[simp] theorem State.msix_lockView (fn : FnId) (v : BitVec 6) : (s.msix fn v).lockView = s.lockView := rfl
@[simp] theorem State.touchLink_lockView : s.touchLink.lockView = s.lockView := rfl
@[simp] theorem State.updDrey_lockView (f : DreyPools → DreyPools) : (s.updDrey f).lockView = s.lockView := rfl

@[simp] theorem State.raiseIn_lockView (n : Nat) (fn : FnId) : (s.raiseIn n fn).lockView = s.lockView := by
  have h : (s.updFunc fn fun u => { u with eventPending := u.eventPending ||| evMask n }).lockView = s.lockView :=
    s.updFunc_lockView fn fun _ => rfl
  simp [State.raiseIn, h]

@[simp] theorem State.watchOccupancy_lockView : s.watchOccupancy.lockView = s.lockView := by
  simp [State.watchOccupancy, State.rateDeficit, State.raise]

@[simp] theorem State.freeAlloc_lockView (fn : FnId) (a : Alloc) : (s.freeAlloc fn a).lockView = s.lockView := by
  cases a with
  | none => rfl
  | frame slot => simp [State.freeAlloc, State.freeSlot]
  | review own shared => simp [State.freeAlloc]
  | side u => simp [State.freeAlloc]

@[simp] theorem State.writeCompletion_lockView (fn : FnId) (q : QId) (c : Completion) :
    (s.writeCompletion fn q c).lockView = s.lockView := by
  simp only [State.writeCompletion]
  split <;> simp [State.updQueue_lockView]

@[simp] theorem State.post_lockView (fn : FnId) (q : QId) (c : Completion) : (s.post fn q c).lockView = s.lockView := by
  simp [State.post, State.updQueue_lockView]

@[simp] theorem State.logError_lockView (fn : FnId) (q i : BitVec 16) (op : BitVec 8) (halted : Bool) (st : Status)
    (cid : BitVec 16) (v : DWord) : (s.logError fn q i op halted st cid v).lockView = s.lockView :=
  s.updFunc_lockView fn fun _ => rfl

@[simp] theorem State.sendData_lockView (fn : FnId) (e : Entry) (d : List Byte) :
    (s.sendData fn e d).lockView = s.lockView := by
  rw [State.sendData]
  exact keepFold_lockView s _ _ fun _ _ => rfl

theorem State.complete_lockView (org : Origin) (e : Entry) (st : Status) (v : DWord) (d : List Byte)
    (h : Status.isError st = false ∨ (s.queue org.fn org.q).policyHalt = false) :
    (s.complete org e st v d).lockView = s.lockView := by
  by_cases hs : org.silent = true
  · simp [State.complete, hs]
  by_cases hu : org.uart = true
  · have hv : (if Status.isError st then s.logError 3 (Config.uartQueueField s.vole.nextSeq)
        (Config.uartQueueField s.vole.nextSeq) e.opcode false st e.cid (s.detailOf st v) else s).lockView = s.lockView := by
      rw [keepIte_lockView, State.logError_lockView, ite_self]
    simp only [State.complete, hs, hu, if_true]
    exact hv
  · rcases h with h | h
    · simp [State.complete, hs, hu, h]
    · simp [State.complete, hs, hu, h]

end KeepLocks

/-! ### A release with acquires waiting, and waits that time out (R99, R102) -/

section LockTurns

variable {s : State} {l : LockId} {w : LockWaiter} {ws : List LockWaiter}

/-- A released lock with acquires waiting goes to the first of them, whose acquire completes (R99, R102). -/
theorem State.freeLock_waiter (hw : (s.lock l).waiters = w :: ws) (a : Bool) : ∃ (u : State) (k : Lock),
    s.freeLock l a = u.completeAcquire l k w.org w.cid w.opcode ∧
      u = (s.updLock l fun k => { k with held := false, abandoned := k.abandoned || a }).updLock l fun x =>
        { x with waiters := ws } := by
  refine ⟨_, (s.updLock l fun k => { k with held := false, abandoned := k.abandoned || a }).lock l, ?_, rfl⟩
  simp [State.freeLock, hw]

/-- Granting a lock completes an acquire, which is no error. -/
theorem State.completeAcquire_lockView (k : Lock) (org : Origin) (cid : BitVec 16) (op : BitVec 8) :
    (s.completeAcquire l k org cid op).lockView = (s.grantTo l org.fn org.q).lockView :=
  State.complete_lockView _ _ _ _ _ _ (.inl (by cases k.abandoned <;> rfl))

theorem State.finish_success_lockView (org : Origin) (e : Entry) (a : Alloc) (v : DWord) (d : List Byte) :
    (s.finish org e a .success v d).lockView = s.lockView := by
  rw [State.finish, State.freeAlloc_lockView, State.complete_lockView _ _ _ _ _ _ (.inl rfl)]

/-- A release hands the lock to the first waiter with its function's epoch, and leaves ABANDONED and the others. -/
theorem State.freeLock_lock (hw : (s.lock l).waiters = w :: ws) :
    (s.freeLock l false).lock l = { s.lock l with held := true, ownerFn := w.org.fn, ownerQ := w.org.q
                                                  ownerEpoch := (s.func w.org.fn).epoch, waiters := ws } ∧
      ∀ j, j ≠ l → (s.freeLock l false).lock j = s.lock j := by
  obtain ⟨u, k, hu, rfl⟩ := State.freeLock_waiter hw false
  rw [hu, State.lock_of_lockView (State.completeAcquire_lockView k w.org w.cid w.opcode)]
  refine ⟨?_, fun j hj => ?_⟩
  · simp [State.grantTo]
    rfl
  · simp only [State.grantTo, State.lock_updLock_ne _ hj]

/-- Acquires of CONTINUE queues that end with LOCK_BUSY move no lock. -/
theorem foldBusy_lockView (v : State → LockWaiter → DWord) (l : List LockWaiter) (s : State)
    (h : ∀ y ∈ l, (s.queue y.org.fn y.org.q).policyHalt = false) :
    (l.foldl (fun u w => u.complete w.org { opcode := w.opcode, cid := w.cid } .lockBusy (v u w) []) s).lockView =
      s.lockView := by
  induction l generalizing s with
  | nil => rfl
  | cons w l ih =>
    obtain ⟨hw, hl⟩ := List.forall_mem_cons.1 h
    have hone := State.complete_lockView s w.org { opcode := w.opcode, cid := w.cid } .lockBusy (v s w) [] (.inr hw)
    rw [List.foldl_cons, ih _ fun y hy => (State.policy_of_lockView hone _ _).trans (hl y hy), hone]

end LockTurns

/-- Settles O30: the grant of the released lock, and the acquires that time out on it. -/
theorem lockReleaseGrantsTheHeadWaiter : Obligations.LockReleaseGrantsTheHeadWaiter := by
  intro t c f rest s w ws l k
  refine ⟨fun ha hh hfn hq hw => ?_, fun j hpol => ?_⟩
  · have hlock : lockOf f.entry = l := lockOf_eq f.entry
    have hr := State.ruleLockRelease_own (s := popped s t c rest) (f := f) (by rw [hlock]; exact ⟨hh, hfn, hq⟩)
    rw [hlock] at hr
    obtain ⟨hsame, hother⟩ := State.freeLock_lock (s := popped s t c rest) hw
    rw [State.popped_epoch] at hsame
    refine ⟨_, congrArg _ (State.serve_apply ha hr), ?_, fun j hj => ?_⟩
    · rw [State.lock_of_lockView (State.finish_success_lockView _ _ _ _ _), hsame]
      rfl
    · rw [State.lock_of_lockView (State.finish_success_lockView _ _ _ _ _), hother j hj]
      rfl
  · refine ⟨_, rfl, ?_⟩
    have hview := foldBusy_lockView (fun u _ => (u.lock j).word.setWidth 64)
      ((s.lock j).waiters.filter fun w => decide (w.deadline ≤ max s.now t))
      ((s.at t).updLock j fun k => { k with waiters := k.waiters.filter fun w => !decide (w.deadline ≤ max s.now t) })
      fun y hy => hpol y (List.mem_of_mem_filter hy)
    refine (congrFun (State.lock_of_lockView hview) j).trans ?_
    rw [State.lock_updLock_same, State.at_lock]
    simp [← decide_not]

/-! ### What trips, aborted steps and completions leave of Quill, of FSYNC and of the integrator's section -/

/-- Quill, FSYNC with timecode, and the integrator's section of the archive. -/
def State.apart (s : State) : QuillState × SyncState × List Byte := (s.quill, s.sync, s.vole.integrator)

section KeepApart

variable (s : State)

theorem State.quill_of_apart {s u : State} (h : u.apart = s.apart) : u.quill = s.quill := congrArg Prod.fst h
theorem State.sync_of_apart {s u : State} (h : u.apart = s.apart) : u.sync = s.sync := congrArg (·.2.1) h
theorem State.integrator_of_apart {s u : State} (h : u.apart = s.apart) : u.vole.integrator = s.vole.integrator :=
  congrArg (·.2.2) h

theorem State.apart_eq_iff {u : State} {q : QuillState} {y : SyncState} {i : List Byte} :
    u.apart = (q, y, i) ↔ u.quill = q ∧ u.sync = y ∧ u.vole.integrator = i := by
  simp [State.apart]

@[simp] theorem keepIte_apart (c : Prop) [Decidable c] (a b : State) :
    (if c then a else b).apart = if c then a.apart else b.apart := apply_ite State.apart c a b

@[simp] theorem keepFold_apart {α : Type} (f : State → α → State) (l : List α) (hf : ∀ u x, (f u x).apart = u.apart) :
    (l.foldl f s).apart = s.apart := foldl_keeps State.apart f hf l s

@[simp] theorem State.updHost_apart (f : HostLink → HostLink) : (s.updHost f).apart = s.apart := rfl
@[simp] theorem State.updFunc_apart (fn : FnId) (f : Func → Func) : (s.updFunc fn f).apart = s.apart := rfl
@[simp] theorem State.updQueue_apart (fn : FnId) (q : QId) (f : QueuePair → QueuePair) :
    (s.updQueue fn q f).apart = s.apart := rfl
@[simp] theorem State.updRcd_apart (f : RecordPath → RecordPath) : (s.updRcd f).apart = s.apart := rfl
@[simp] theorem State.updDrey_apart (f : DreyPools → DreyPools) : (s.updDrey f).apart = s.apart := rfl
@[simp] theorem State.updWh_apart (h : Head) (f : WriteHead → WriteHead) : (s.updWh h f).apart = s.apart := rfl
@[simp] theorem State.updBeams_apart (h : Head) (f : BeamState → BeamState) : (s.updBeams h f).apart = s.apart := rfl
@[simp] theorem State.updFrames_apart (f : List Frame → List Frame) : (s.updFrames f).apart = s.apart := rfl
@[simp] theorem State.updCal_apart (f : Calib → Calib) : (s.updCal f).apart = s.apart := rfl
@[simp] theorem State.updSpin_apart (f : Spindle → Spindle) : (s.updSpin f).apart = s.apart := rfl
@[simp] theorem State.updLoop_apart (f : LoopEngine → LoopEngine) : (s.updLoop f).apart = s.apart := rfl
@[simp] theorem State.updSlot_apart (i : LoopId) (f : LoopSlot → LoopSlot) : (s.updSlot i f).apart = s.apart := rfl
@[simp] theorem State.emit_apart (x : Sent) : (s.emit x).apart = s.apart := rfl
@[simp] theorem State.msix_apart (fn : FnId) (v : BitVec 6) : (s.msix fn v).apart = s.apart := rfl
@[simp] theorem State.touchLink_apart : s.touchLink.apart = s.apart := rfl
@[simp] theorem State.dropWaiters_apart (fn : FnId) (q : QId) : (s.dropWaiters fn q).apart = s.apart := rfl
@[simp] theorem State.dropRunning_apart (r : Running) : (s.dropRunning r).apart = s.apart := rfl
@[simp] theorem State.forgetFrame_apart (f : Frame) : (s.forgetFrame f).apart = s.apart := rfl
@[simp] theorem State.truncateClip_apart (clip : Word) (n : Nat) : (s.truncateClip clip n).apart = s.apart := rfl

@[simp] theorem State.updHd_apart (h : Head) (f : HeadState → HeadState) : (s.updHd h f).apart = s.apart := by
  cases h <;> rfl

@[simp] theorem State.log_apart (code : BitVec 16) (args : List Word) : (s.log code args).apart = s.apart := by
  simp only [State.log, State.coalesce, State.createRecord]
  repeat' split
  all_goals rfl

@[simp] theorem State.raise_apart (n : Nat) : (s.raise n).apart = s.apart := by
  simp [State.raise, State.raiseIn]

@[simp] theorem State.writeBank_apart : s.writeBank.apart = s.apart := by
  simp only [State.writeBank, State.apart, apply_ite VoleState.integrator, ite_self]

/-! Completions and the ends of commands. -/

@[simp] theorem State.post_apart (fn : FnId) (q : QId) (c : Completion) : (s.post fn q c).apart = s.apart := by
  simp [State.post, State.writeCompletion]

@[simp] theorem State.freeSlot_apart (slot : Nat) : (s.freeSlot slot).apart = s.apart := by
  simp [State.freeSlot, State.watchOccupancy, State.rateDeficit]

@[simp] theorem State.freeAlloc_apart (fn : FnId) (a : Alloc) : (s.freeAlloc fn a).apart = s.apart := by
  cases a with
  | none => rfl
  | frame slot => simp [State.freeAlloc]
  | review own shared => simp [State.freeAlloc]
  | side u => simp [State.freeAlloc]

@[simp] theorem State.dropUnstarted_apart (fn : FnId) (q : QId) : (s.dropUnstarted fn q).apart = s.apart := by
  simp [State.dropUnstarted]

@[simp] theorem State.haltQueue_apart (fn : FnId) (q : QId) (i : Nat) : (s.haltQueue fn q i).apart = s.apart := by
  simp [State.haltQueue]

@[simp] theorem State.sendData_apart (fn : FnId) (e : Entry) (d : List Byte) : (s.sendData fn e d).apart = s.apart := by
  rw [State.sendData]
  exact keepFold_apart s _ _ fun _ _ => rfl

@[simp] theorem State.logError_apart (fn : FnId) (q i : BitVec 16) (op : BitVec 8) (halted : Bool) (st : Status)
    (cid : BitVec 16) (v : DWord) : (s.logError fn q i op halted st cid v).apart = s.apart := rfl

@[simp] theorem State.setHalted_apart (fn : FnId) (q : QId) : (s.setHalted fn q).apart = s.apart := rfl

@[simp] theorem State.complete_apart (org : Origin) (e : Entry) (st : Status) (v : DWord) (d : List Byte) :
    (s.complete org e st v d).apart = s.apart := by
  by_cases hu : org.uart = true
  · have hv : (if Status.isError st then s.logError 3 (Config.uartQueueField s.vole.nextSeq)
        (Config.uartQueueField s.vole.nextSeq) e.opcode false st e.cid (s.detailOf st v) else s).apart = s.apart := by
      rw [keepIte_apart, State.logError_apart, ite_self]
    simp only [State.complete, hu, if_true, keepIte_apart]
    rw [show ∀ (u : State) (x : Sent), ({ (u.emit x) with vole := { u.vole with uartBusy := false } } : State).apart =
      u.apart from fun _ _ => rfl, hv, ite_self]
  · simp [State.complete, hu]

@[simp] theorem State.endRunning_apart (r : Running) (st : Status) (v : DWord) (d : List Byte) :
    (s.endRunning r st v d).apart = s.apart := by
  simp [State.endRunning, State.finish]

@[simp] theorem State.endAll_apart (p : Running → Bool) (st : Status) (v : DWord) : (s.endAll p st v).apart = s.apart := by
  simp [State.endAll]

/-! Calibration steps and the spindle. -/

@[simp] theorem State.setUnit_apart (step : Nat) (h : Head) (b : Beam) (st : StepStatus) :
    (s.setUnit step h b st).apart = s.apart := by
  simp only [State.setUnit]
  (repeat' split) <;> rfl

@[simp] theorem State.followBringup_apart : s.followBringup.apart = s.apart := by
  simp [State.followBringup]

@[simp] theorem State.abortSteps_apart (mask : Nat) (p : Nat → Head → Bool) : (s.abortSteps mask p).apart = s.apart := by
  simp [State.abortSteps]

@[simp] theorem State.stopCalibrate_apart (mask : Nat) : (s.stopCalibrate mask).apart = s.apart := by
  simp [State.stopCalibrate]

@[simp] theorem State.gatesOff_apart : s.gatesOff.apart = s.apart := rfl

@[simp] theorem State.dropFrame_apart (f : Frame) : (s.dropFrame f).apart = s.apart := by
  simp [State.dropFrame]

@[simp] theorem State.queueCloseRecord_apart : s.queueCloseRecord.apart = s.apart := by
  simp only [State.queueCloseRecord, State.queueOpenRecord]
  repeat' split
  all_goals rfl

@[simp] theorem State.queueAllClose_apart (n : Nat) : (s.queueAllClose n).apart = s.apart := by
  induction n generalizing s with
  | zero => rfl
  | succ n ih => simp [State.queueAllClose, ih]

@[simp] theorem State.closeClip_apart (reason : Nat) : (s.closeClip reason).apart = s.apart := by
  simp only [State.closeClip]
  split <;> simp

@[simp] theorem State.checkGuarantee_apart : s.checkGuarantee.apart = s.apart := by
  simp [State.checkGuarantee, State.dropUnencodable, State.loseFrames]

@[simp] theorem State.clearReady_apart (h : Head) : (s.clearReady h).apart = s.apart := by
  cases h <;> simp [State.clearReady]

@[simp] theorem State.spindleDrop_apart : s.spindleDrop.apart = s.apart := by
  simp [State.spindleDrop, State.lockOut]

/-! Trips and samples of the Loop Engine. -/

@[simp] theorem State.afterTrip_apart (i : LoopId) (cause : Nat) : (s.afterTrip i cause).apart = s.apart := by
  simp only [State.afterTrip]
  split <;> simp

@[simp] theorem State.tripSlot_apart (cause : Nat) (i : LoopId) : (s.tripSlot cause i).apart = s.apart := by
  simp [State.tripSlot]

@[simp] theorem State.tripRoles_apart (h : Head) (roles : List Nat) (cause : Nat) :
    (s.tripRoles h roles cause).apart = s.apart := by
  simp [State.tripRoles]

@[simp] theorem State.stopIfRecording_apart : s.stopIfRecording.apart = s.apart := by
  simp [State.stopIfRecording, State.stopRecording]

@[simp] theorem State.cutLasers_apart (h : Head) : (s.cutLasers h).apart = s.apart := by
  simp [State.cutLasers, State.doomFlight]

@[simp] theorem State.withdrawHead_apart (h : Head) : (s.withdrawHead h).apart = s.apart := by
  simp [State.withdrawHead]

theorem State.updQuill_apart {u : State} (h : u.apart = s.apart) (f : QuillState → QuillState) :
    (u.updQuill f).apart = (f s.quill, s.sync, s.vole.integrator) := by
  rw [← State.quill_of_apart h, ← State.sync_of_apart h, ← State.integrator_of_apart h]
  rfl

/-- A withdrawal of the releases changes nothing of Quill but the motor-control release (R515). -/
theorem State.withdraw_apart : s.withdraw.apart = ({ s.quill with motorRelease := false }, s.sync, s.vole.integrator) := by
  rw [State.withdraw, State.stopIfRecording_apart, State.gatesOff_apart, State.tripSlot_apart, State.tripSlot_apart]
  refine s.updQuill_apart ?_ _
  rw [State.withdrawHead_apart, State.withdrawHead_apart, State.stopCalibrate_apart, State.abortSteps_apart]

end KeepApart

/-! ### Resets of the part (R116, R491, R502, R524, R534, R671, R683, R700) -/

/-- The registers stand at their reset values, and what lasts through a reset of the part is that of an earlier state. -/
def State.ClearedFrom (s u : State) : Prop :=
  u.host.funcs = State.reset.host.funcs ∧ u.host.locks = State.reset.host.locks ∧ u.host.arb = State.reset.host.arb ∧
    u.loop = State.reset.loop ∧ u.cal = State.reset.cal ∧ u.mnt = State.reset.mnt ∧ u.rcd.clip = none ∧
    u.rcd.frames = [] ∧ u.params = State.reset.params ∧ u.quill.seed = s.quill.seed ∧ u.quill.lk = s.quill.lk ∧
    u.quill.slotA = s.quill.slotA ∧ u.quill.slotB = s.quill.slotB ∧ u.quill.floors = s.quill.floors ∧
    u.quill.epoch = s.quill.epoch ∧ u.vole.integrator = s.vole.integrator ∧ u.pending = s.pending

section PartResets

variable {s v : State}

/-- The reset of the part clears it, from any state that differs in nothing that lasts. -/
theorem State.coreReset_cleared (hq : ∃ b, v.quill = { s.quill with motorRelease := b })
    (hi : v.vole.integrator = s.vole.integrator) (hp : v.pending = s.pending) : s.ClearedFrom v.coreReset := by
  obtain ⟨b, hq⟩ := hq
  have hkept : v.coreReset.quill = s.quill.afterReset := by
    show v.quill.afterReset = _
    rw [hq]
    rfl
  exact ⟨rfl, rfl, rfl, rfl, rfl, rfl, rfl, rfl, rfl, by rw [hkept]; rfl, by rw [hkept]; rfl, by rw [hkept]; rfl,
    by rw [hkept]; rfl, by rw [hkept]; rfl, by rw [hkept]; rfl, hi, hp⟩

theorem State.at_coreReset_cleared (s : State) (t : Time) : s.ClearedFrom (s.at t).coreReset :=
  State.coreReset_cleared ⟨s.quill.motorRelease, rfl⟩ rfl rfl

/-- The reset of an activation and of a Quill fault clears the part too: withdrawing the releases touches nothing that
lasts (R515, R523). -/
theorem State.activateReset_cleared (s : State) (t : Time) : s.ClearedFrom (s.at t).activateReset := by
  obtain ⟨hq, -, hi⟩ := State.apart_eq_iff.1 (s.at t).withdraw_apart
  exact State.coreReset_cleared ⟨false, hq⟩ hi ((s.at t).withdraw_pending)

/-- A record for the next boot is none of what the reset clears. -/
theorem State.ClearedFrom.bootRecord {u : State} (h : s.ClearedFrom u) (l : List (BitVec 16 × List Word)) :
    s.ClearedFrom (u.updQuill fun q => { q with bootRecord := l }) := h

variable (t : Time)

theorem exec_perstNAssertion_long {lowNs : Nat} (hl : 100000 ≤ lowNs) (ht : s.pwr.state ≠ .torpor)
    (hh : s.pwr.state ≠ .hibernate) (hp : s.pwr.pfStep = 0) :
    exec (.perstNAssertion t lowNs) s = .next (s.at t).assertPerst := by
  have hshort : within 1000 99999 lowNs = false := by simp [within]; omega
  have hacts : perstActs s.rcd.draws lowNs = true := by simp [perstActs, hl]
  have hfail : (s.at t).inPowerFail = false := by simp [State.inPowerFail, within, hp]
  show execPerstNAssertion t lowNs s = _
  simp [execPerstNAssertion, hshort, hacts, hfail, ht, hh]

theorem exec_deferredPerst_end (hd : s.pwr.perstDeferred = true) (hp : s.pwr.pfStep = 6) :
    exec (.deferredPerst t) s = .next (s.at t).assertPerst := by
  have hfail : (s.at t).inPowerFail = false := by simp [State.inPowerFail, within, hp]
  show execDeferredPerst t s = _
  simp [execDeferredPerst, hd, hfail]

theorem exec_activationReset_due (ha : s.quill.activating = true) (hr : s.host.running = []) :
    exec (.activationReset t) s = .next (s.at t).activateReset := by
  have hnone : (s.at t).settleActivate = s.at t := by simp [State.settleActivate, hr]
  show execActivationReset t s = _
  simp [execActivationReset, hnone, ha]

theorem exec_quillFault (cls : Word) : exec (.quillFault t cls) s = .next ((s.at t).activateReset.updQuill fun q =>
    { q with bootRecord := (s.at t).activateReset.quill.bootRecord ++ [(0x0708, [cls])] }) := rfl

end PartResets

/-- Settles O19: each row comes to a reset of the part, which clears all but what lasts. -/
theorem partResetsKeepWhatLasts : Obligations.PartResetsKeepWhatLasts := by
  intro t s cleared
  have hcore : cleared (s.at t).coreReset := s.at_coreReset_cleared t
  have hactivate : cleared (s.at t).activateReset := s.activateReset_cleared t
  refine ⟨fun lowNs hl ht hh hp => ?_, fun hd hp => ?_, fun ha hr => ?_, fun cls => ?_, ?_⟩
  · exact ⟨_, exec_perstNAssertion_long t hl ht hh hp, hcore, rfl, rfl, rfl, rfl, rfl⟩
  · exact ⟨_, exec_deferredPerst_end t hd hp, hcore, rfl⟩
  · exact ⟨_, exec_activationReset_due t ha hr, hactivate, rfl, rfl, rfl⟩
  · exact ⟨_, exec_quillFault t cls, State.ClearedFrom.bootRecord hactivate _, rfl, rfl, List.mem_append_right _ (List.mem_singleton.2 rfl)⟩
  · exact ⟨(s.at t).powerUp, rfl, hcore, rfl, rfl, rfl, rfl, rfl⟩

/-! ### Commands that start from their queue whatever their opcode (R95, R139, R153, R691) -/

section ServeAny

variable {s : State} {t : Time} {o : Opcode} {c : Call} {f : Fetched} {rest : List Fetched}

theorem State.serveAny_starts (hs : Starts s t o c f rest) :
    (s.at t).serveAny c = ((popped s t c rest).settle (taken o c f)).drain := by
  obtain ⟨⟨g, rest'⟩, hg, he⟩ := Option.map_eq_some_iff.1 hs.1
  obtain ⟨hw, -⟩ := Prod.mk.inj he
  have hop : Opcode.ofCode g.entry.opcode = some o := by rw [← Fetched.withList_opcode g c, hw, hs.2]
  rw [← State.serve_starts hs]
  simp only [State.serveAny, hg, hop]

/-- A front command whose opcode is in no row of Table 4.4 completes with INVALID_OPCODE (R139 check 1). -/
theorem exec_undefinedOpcode_none (hf : (s.at t).front c = some (f, rest)) (he : f.entry = c.entry)
    (ho : Opcode.ofCode c.entry.opcode = none) :
    exec (.undefinedOpcode t c) s = .next ((popped s t c rest).finish f.org f.entry f.alloc .invalidOpcode 0 []) := by
  have hof : Opcode.ofCode f.entry.opcode = none := by rw [he, ho]
  have hund : (s.at t).opcodeUndefined c.entry = true := by simp only [State.opcodeUndefined, ho]
  show execUndefinedOpcode t c s = _
  simp only [execUndefinedOpcode, hund, if_true, State.serveAny, hf, hof]

theorem exec_fenceCommandStart_starts (hs : Starts s t o c f rest) (hf : c.entry.fence = true) :
    exec (.fenceCommandStart t c) s = .next (((popped s t c rest).settle (taken o c f)).drain) := by
  rw [← State.serveAny_starts hs]
  exact congrArg _ (if_pos hf)

theorem exec_dmaReadError_append {r : Running} {a : DWord} (hr : s.appendOf c = some r) (ha : c.dataErr = some a) :
    exec (.dmaReadError t c) s = .next (((s.at t).failAppend r .dmaError a).drain) := by
  have hr1 : (s.at t).appendOf c = some r := hr
  show execDmaReadError t c s = _
  simp only [execDmaReadError, hr1, ha]

theorem exec_dmaReadError_front {a : DWord} (hr : s.appendOf c = none) (ha : c.dataErr = some a)
    (hs : Starts s t o c f rest) :
    exec (.dmaReadError t c) s = .next (((popped s t c rest).settle (taken o c f)).drain) := by
  have hr1 : (s.at t).appendOf c = none := hr
  rw [← State.serveAny_starts hs]
  show execDmaReadError t c s = _
  simp [execDmaReadError, hr1, ha]

end ServeAny

/-- Settles O33, from the command that starts whatever its opcode and from a FRAME_APPEND that fails. -/
theorem undefinedFencedAndFailedCommands : Obligations.UndefinedFencedAndFailedCommands := by
  intro t c f rest s
  exact ⟨exec_undefinedOpcode_none, fun o hs hf => exec_fenceCommandStart_starts hs hf,
    fun r a hr ha => exec_dmaReadError_append hr ha, fun o a hr ha hs => exec_dmaReadError_front hr ha hs⟩

/-! ### Waiting commands that resume (R97, R142, R146, R420, R545) -/

/-- The command that a resume row names leaves the waiting ones and is settled. -/
theorem State.resumeOne_found {s : State} {fn : FnId} {q : QId} {cid : BitVec 16} {why : WaitReason} {d : Deferred}
    (h : (s.host.deferred.find? fun x =>
      x.cmd.org.fn == fn && x.cmd.org.q == q && x.cmd.entry.cid == cid && x.reason == why) = some d) :
    s.resumeOne fn q cid why = ((s.undefer d).settle d).drain := by
  simp only [State.resumeOne, h]

/-- Settles O34: four rows resume the command they name, the fifth every command that waits for a MOUNT. -/
theorem waitingCommandsResume : Obligations.WaitingCommandsResume := by
  intro t fn q cid d s named again
  refine ⟨fun h => ?_, fun h => ?_, fun h => ?_, fun h => ?_, fun hr => ?_⟩
  · exact congrArg _ (State.resumeOne_found (s := s.at t) h)
  · exact congrArg _ (State.resumeOne_found (s := s.at t) h)
  · exact congrArg _ (State.resumeOne_found (s := s.at t) h)
  · exact congrArg _ (State.resumeOne_found (s := s.at t) h)
  · have hno : ¬ (s.at t).runs [.mount, .unmount] = true := Bool.not_eq_true _ ▸ hr
    exact congrArg _ (if_neg hno)

/-! ### Frames that arrive and clips that close (R92, R149, R154) -/

theorem exec_frameDmaComplete_full {s : State} {clip : Word} {number : Nat} {data : List Byte} {f : Frame} {r : Running}
    (t : Time) (hf : s.findFrame clip number = some f) (hp : f.phase = .dma) (hl : data.length = f.bytes)
    (hr : s.host.running.find? (Running.appends f) = some r) :
    exec (.frameDmaComplete t clip number data) s = .next ((((s.at t).updFrame clip number fun x =>
      { x with phase := .full, data := data }).endRunning { r with alloc := .none } .success (BitVec.ofNat 64 number)
        []).spendInbound f.bytes) := by
  have hf1 : (s.at t).findFrame clip number = some f := hf
  have hr1 : ((s.at t).updFrame clip number fun x => { x with phase := .full, data := data }).host.running.find?
      (Running.appends f) = some r := hr
  show execFrameDmaComplete t clip number data s = _
  simp only [execFrameDmaComplete, hf1, hr1, hp, hl, and_self, if_true]

section CloseRecords

variable {s : State} {c : ClosingClip} {cs : List ClosingClip}

theorem exec_clipCloseRecordQueued_due (t : Time) (hc : s.rcd.closing = c :: cs) (hw : s.rcd.frames.any c.waits = false) :
    exec (.clipCloseRecordQueued t) s = .next (s.at t).queueCloseRecord.publish := by
  show execClipCloseRecordQueued t s = _
  simp only [execClipCloseRecordQueued, State.at_rcd, hc, hw]
  rfl

/-- A record that is added has its name from then on (R205). -/
theorem State.findRecord_addRecord_same (s : State) (r : VolRecord) :
    (s.addRecord r).findRecord r.rtype r.key r.index = some r := by
  have hn : VolRecord.named r.rtype r.key r.index r = true := by simp [VolRecord.named]
  simp [State.findRecord, State.addRecord, State.mapRecord, hn]

/-- A record that is added leaves those of every other name. -/
theorem State.findRecord_addRecord_ne (s : State) (r : VolRecord) {ty : BitVec 8} {key index : Word} (h : ty ≠ r.rtype) :
    (s.addRecord r).findRecord ty key index = s.findRecord ty key index := by
  have hr : VolRecord.named ty key index r = false := by simp [VolRecord.named, Ne.symm h]
  have hp : (fun x => !VolRecord.named r.rtype r.key r.index x && VolRecord.named ty key index x) =
      VolRecord.named ty key index := by
    funext x
    cases hx : VolRecord.named ty key index x with
    | false => rw [Bool.and_false]
    | true =>
      have ht : x.rtype = ty := by simp [VolRecord.named] at hx; exact hx.1.1
      simp [VolRecord.named, ht, h]
  simp [State.findRecord, State.addRecord, State.mapRecord, hr, ← List.filter_reverse, List.find?_filter, hp]

theorem State.isSome_findRecord_mkRecord (s : State) (ty : Nat) (clip : Word) (body : List Byte) :
    ((s.addRecord (mkRecord ty clip.toNat 0 body)).findRecord (BitVec.ofNat 8 ty) clip 0).isSome = true := by
  have hkey : (mkRecord ty clip.toNat 0 body).key = clip := by simp [mkRecord]
  have h := State.findRecord_addRecord_same s (mkRecord ty clip.toNat 0 body)
  rw [hkey] at h
  exact Option.isSome_of_mem h

/-- The opening record of the open clip is none of the other types, and leaves the clips that close (R149, R208). -/
theorem State.queueOpenRecord_keeps (s : State) : s.queueOpenRecord.rcd.closing = s.rcd.closing ∧
    s.queueOpenRecord.rcd.closed = s.rcd.closed ∧
    ∀ key index, s.queueOpenRecord.findRecord 3 key index = s.findRecord 3 key index := by
  simp only [State.queueOpenRecord]
  split
  · exact ⟨rfl, rfl, fun _ _ => rfl⟩
  · split
    · exact ⟨rfl, rfl, fun _ _ => rfl⟩
    · exact ⟨rfl, rfl, fun key index => State.findRecord_addRecord_ne s _ (show (3 : BitVec 8) ≠ 2 by decide)⟩

/-- The close record of the oldest clip that closes is queued: the clip is closed with its count, and has the record. -/
theorem State.queueCloseRecord_keeps (hc : s.rcd.closing = c :: cs) : s.queueCloseRecord.rcd.closing = cs ∧
    s.queueCloseRecord.rcd.closed = s.rcd.closed ++ [(c.clip, c.frames)] ∧
    (s.queueCloseRecord.findRecord 3 c.clip 0).isSome = true := by
  simp only [State.queueCloseRecord, hc]
  refine ⟨(State.queueOpenRecord_keeps _).1, (State.queueOpenRecord_keeps _).2.1, ?_⟩
  rw [(State.queueOpenRecord_keeps _).2.2]
  exact State.isSome_findRecord_mkRecord s 3 c.clip _

end CloseRecords

/-- Settles O35. -/
theorem framesArriveAndClipsClose : Obligations.FramesArriveAndClipsClose := by
  intro t s
  refine ⟨fun clip number data f r hf hp hl hr => exec_frameDmaComplete_full t hf hp hl hr, fun u n => ⟨rfl, rfl⟩,
    fun c cs hc hw => ⟨_, exec_clipCloseRecordQueued_due t hc hw, State.queueCloseRecord_keeps (s := s.at t) hc⟩⟩

/-! ### Calibration steps (R535 to R540, R551 to R561) -/

section CalSteps

variable {s : State} {n : Nat} {h : Head} {b : Beam} (t : Time)

theorem exec_calStepStart_due (hw : (s.calUnit n h b).status.waits = true) (hn : (s.at t).needsDone n h b = true)
    (hr : s.pwr.state = .run) (hd : s.pwr.step ≠ some .runToDoze) :
    exec (.calStepStart t n h b) s = .next (if (s.at t).failing n h = 0 then
      (((s.at t).setUnit n h b .running).beginStep n).followBringup
    else ((s.at t).setUnit n h b (.notRun (BitVec.ofNat 32 ((s.at t).failing n h)))).followBringup) := by
  have hu : ((s.at t).calUnit n h b).status.waits = true := hw
  show execCalStepStart t n h b s = _
  simp [execCalStepStart, hu, hn, hr, hd]

theorem exec_calStepEnd_worked {m : CalMeasure} (hr : (s.calUnit n h b).status.runs = true)
    (hw : (s.at t).stepWorked n = true) :
    exec (.calStepEnd t n h b m) s = .next (((if (s.at t).discards n h b m then (s.at t).stepFails n h b m
      else (s.at t).stepPasses n h b m).settleCalibrate n h b).followBringup) := by
  have hu : ((s.at t).calUnit n h b).status.runs = true := hr
  show execCalStepEnd t n h b m s = _
  simp only [execCalStepEnd, hu, hw, Bool.and_self, if_true]

/-- Outside a CALIBRATE only the step's own preconditions, and back-EMF at REST, can be lost (R561). -/
theorem exec_calPreconditionLost_alone {mask : Word} {lost : Nat} (hr : (s.calUnit n h b).status.runs = true)
    (hc : (s.at t).calibrateOf n h b = none)
    (hl : Nat.land (Nat.land mask.toNat (Nat.lor (stepNeeds n) 0)) (Nat.lor ((s.at t).falseMask h) 16) = lost) :
    exec (.calPreconditionLost t n h b mask) s = .next (if lost = 0 then s.at t
      else ((s.at t).setUnit n h b (.aborted (BitVec.ofNat 32 lost))).followBringup) := by
  have hu : ((s.at t).calUnit n h b).status.runs = true := hr
  subst hl
  show execCalPreconditionLost t n h b mask s = _
  simp only [execCalPreconditionLost, hu, hc, Option.isSome_none, Bool.false_eq_true, if_false, Bool.true_and, bne_iff_ne,
    ite_not]
  rfl

theorem exec_groupMStart_due (hd : (s.at t).doorClosed.doorHolds = true) (hm : 2 ≤ (s.at t).doorClosed.mnt.magazine)
    (hg : (s.at t).doorClosed.cal.groupM = false) (hb : (s.at t).doorClosed.quill.bootStep = 11)
    (hr : (s.at t).doorClosed.quill.recovery = false) :
    exec (.groupMStart t) s = .next (((((s.at t).doorClosed.updCal fun c => { c with groupM := true }).setSteps groupM
      .pending).followBringup).autoStart) := by
  show execGroupMStart t s = _
  simp [execGroupMStart, hd, hm, hg, hb, hr]

end CalSteps

/-! ### FSYNC and timecode (R390, R675 to R679) -/

section Sync

variable {s : State} (t : Time)

theorem State.enableSlot_apart (s : State) (i : LoopId) : (s.enableSlot i).apart = s.apart := by
  simp [State.enableSlot]

/-- The slot of the phase loop belongs to no head, so only a trip acts beyond the Loop Engine. -/
theorem State.putSample_nine_apart (s : State) (r : LoopSlot × Option Nat) : (s.putSample 9 r).apart = s.apart := by
  obtain ⟨k, cause⟩ := r
  cases cause with
  | none => rfl
  | some c => exact State.afterTrip_apart _ 9 c

theorem State.phaseSample_apart (s : State) (angle : Nat) : (s.phaseSample angle).apart = s.apart := by
  simp [State.phaseSample, State.putSample_nine_apart]

theorem State.phaseEnable_apart (s : State) : s.phaseEnable.apart = s.apart := by
  simp [State.phaseEnable, State.enableSlot_apart]

/-- What an accepted edge leaves of FSYNC: its time, the time address that it latches and the period since the last. -/
theorem State.acceptFsync_sync (s : State) (angle : Nat) : (s.acceptFsync angle).sync.lastEdge = some s.now ∧
    (s.acceptFsync angle).sync.latched = s.sync.toLatch s.now ∧
    ∀ e, s.sync.lastEdge = some e → (s.acceptFsync angle).sync.period = BitVec.ofNat 32 ((s.now - e) / 1000) := by
  have hs := State.sync_of_apart ((State.phaseEnable_apart _).trans (State.phaseSample_apart
    (s.updSync fun y => { y with
      lastEdge := some s.now, latched := y.toLatch s.now
      period := match s.sync.lastEdge.map fun e => (s.now - e) / 1000 with
        | none => y.period
        | some g => BitVec.ofNat 32 g
      spacings := match s.sync.lastEdge.map fun e => (s.now - e) / 1000 with
        | none => []
        | some g => if g ≤ 100000 then (g :: y.spacings).take 8 else [] }) angle))
  have hs' : (s.acceptFsync angle).sync = _ := hs
  rw [hs']
  refine ⟨rfl, rfl, fun e he => ?_⟩
  simp [State.updSync, he]

theorem exec_fsyncEdge_accepted {high : Nat} (angle : Nat) (hh : 100 ≤ high) (hs : s.servoOn = true)
    (he : ∀ e, s.sync.lastEdge = some e → e + 4000000 ≤ (s.at t).now) :
    exec (.fsyncEdge t high angle) s = .next ((s.at t).acceptFsync angle) := by
  have hon : (s.at t).servoOn = true := hs
  have hlt : ¬ high < 100 := Nat.not_lt.2 hh
  show execFsyncEdge t high angle s = _
  cases hl : s.sync.lastEdge with
  | none => simp [execFsyncEdge, hl, hon, hlt]
  | some e =>
    have hle := he e hl
    simp only [execFsyncEdge, State.at_sync, hl, hon, hlt, hle]
    simp

theorem exec_fsyncEdge_ignored {high : Nat} {e : Time} (angle : Nat) (hh : 100 ≤ high) (hs : s.servoOn = true)
    (hl : s.sync.lastEdge = some e) (he : (s.at t).now < e + 4000000) :
    exec (.fsyncEdge t high angle) s = .next ((s.at t).updSync fun y => { y with ignored := satOne y.ignored }) := by
  have hon : (s.at t).servoOn = true := hs
  have hlt : ¬ high < 100 := Nat.not_lt.2 hh
  show execFsyncEdge t high angle s = _
  simp only [execFsyncEdge, State.at_sync, hl, hon, hlt, Nat.not_le.2 he]
  simp

/-- A frame of timecode has come, and the last was the one before it (R678). -/
def SyncState.follows (y : SyncState) (now : Time) : Bool := y.syncAt.any fun a => decide (now ≤ a + bitTime 120 y.bitRate)

theorem SyncState.follows_iff (y : SyncState) (now : Time) :
    y.follows now = true ↔ ∃ e, y.syncAt = some e ∧ now ≤ e + bitTime 120 y.bitRate := by
  simp [SyncState.follows, Option.any_eq_true]

theorem exec_ltcFrameDecoded_inRange {rate : Nat} (a : TimeAddress) (hl : 1700 ≤ rate) (hu : rate ≤ 2700)
    (hc : s.coreOn = true) :
    exec (.ltcFrameDecoded t a rate) s = .next ((s.at t).updSync fun y => { y with
      address := timecodeField a, syncAt := some (s.at t).now, bitRate := rate
      valid := s.sync.validAt (s.at t).now || s.sync.follows (s.at t).now }) := by
  have hon : (s.at t).coreOn = true := hc
  have hw : within 1700 2700 rate = true := by simp [within, hl, hu]
  show execLtcFrameDecoded t a rate s = _
  cases hy : s.sync.syncAt <;> simp only [execLtcFrameDecoded, State.at_sync, hy, hw, hon, SyncState.follows] <;> rfl

theorem exec_timecodeLoss_due {e : Time} (hl : s.sync.syncAt = some e)
    (hd : e + bitTime 240 s.sync.bitRate ≤ (s.at t).now) :
    exec (.timecodeLoss t) s = .next ((s.at t).updSync fun y => { y with valid := false }) := by
  show execTimecodeLoss t s = _
  simp only [execTimecodeLoss, State.at_sync, hl, hd, if_true]

end Sync

/-! ### Registers read and written (R91, R131, R132, R136, R393, R394) -/

section Registers

variable {s : State} {fn : FnId} (t : Time)

theorem State.barRead_ready (h : (s.func fn).ready = true) (k : State → State) : s.barRead fn k = k s :=
  if_pos h

theorem exec_eventPendingClear_ready (hr : (s.func fn).ready = true) (v : Word) :
    exec (.eventPendingClear t fn v) s = .next ((s.at t).clearEvents fn v) :=
  congrArg _ (State.barWrite_ready (s := s.at t) hr _)

theorem exec_commitPointRead32_ready (hr : (s.func fn).ready = true) :
    exec (.commitPointRead32 t fn) s = .next ((s.at t).read32 fn 0x100) :=
  congrArg _ (State.barRead_ready (s := s.at t) hr _)

theorem exec_deficitRead32_ready (hr : (s.func fn).ready = true) :
    exec (.deficitRead32 t fn) s = .next ((s.at t).read32 fn 0x118) :=
  congrArg _ (State.barRead_ready (s := s.at t) hr _)

theorem exec_capturedFieldRead_ready (hr : (s.func fn).ready = true) (off : Nat) :
    exec (.capturedFieldRead t fn off) s = .next ((s.at t).read32 fn off) :=
  congrArg _ (State.barRead_ready (s := s.at t) hr _)

/-- A captured COMMIT_FRAMES is what the next read of it returns, once (R132). -/
theorem State.read32_captured {w : Word} (hw : (s.func fn).captures.commitFrames = some w) :
    s.read32 fn 0x104 = (s.emit (.readValue fn 0x104 w)).updFunc fn fun u =>
      { u with captures := { u.captures with commitFrames := none } } := by
  have hh : (s.func fn).captures.held 0x104 = some w := hw
  rw [State.read32, hh]
  rfl

theorem State.writeBar0_unaligned {off : Nat} (ho : off % 4 ≠ 0) (v : Word) : s.writeBar0 fn off v = s := if_pos ho

theorem State.writeBar0_weights (v : Word) : s.writeBar0 fn 0x400 v = s.writeWeights fn v := rfl

theorem State.writeWeights_refused (hf : fn ≠ 3) (v : Word) : s.writeWeights fn v = s := if_pos hf

/-- The doorbells, and what lies beyond the error log page, read 0 (R8, R84). -/
theorem State.readBar0_zero {off : Nat} (h : (0x1000 ≤ off ∧ off < 0x2000) ∨ 0x9000 ≤ off) : s.readBar0 fn off = 0 := by
  have h1 : ¬ off < 0x100 := by omega
  have h2 : ¬ off < 0x400 := by omega
  have h3 : off ≠ 0x400 := by omega
  have h4 : within 0x800 0x8FF off = false := by simp [within]; omega
  have h5 : within 0x2000 0x23FF off = false := by simp [within]; omega
  have h6 : within 0x8000 0x8FFF off = false := by simp [within]; omega
  simp [State.readBar0, h1, h2, h3, h4, h5, h6]

theorem exec_registerWrite_loop {off : Nat} (hs : s.servoOn = true) (ho : off < 0x40C) (v : Word) :
    exec (.registerWrite t .loopEngine off v) s = .next ((s.at t).writeLoop off v) := by
  have hon : (s.at t).servoOn = true := hs
  show execRegisterWrite t .loopEngine off v s = _
  simp only [execRegisterWrite, if_neg (Nat.not_le.2 ho), hon, if_true]

/-- A write of a slot's configuration past its first word goes to the shadow set (R393). -/
theorem State.writeLoop_shadow (i : LoopId) {r : Nat} (hr : r < 0x20) (h0 : r ≠ 0) (h4 : r % 4 = 0) (v : Word) :
    s.writeLoop (i.val * 64 + r) v = s.updSlot i fun k => { k with shadow := k.shadow.write r v } := by
  have hi := i.isLt
  have h1 : i.val * 64 + r ≠ 0x408 := by omega
  have h2 : ¬ (0x400 ≤ i.val * 64 + r ∨ (i.val * 64 + r) % 4 ≠ 0) := by omega
  have hslot : (Fin.ofNat 16 ((i.val * 64 + r) / 0x40) : LoopId) = i := Fin.ext (by simp [Fin.ofNat]; omega)
  have hreg : (i.val * 64 + r) % 0x40 = r := by omega
  have h20 : r ≠ 0x20 := by omega
  simp only [State.writeLoop, if_neg h1, if_neg h2, hslot, hreg, if_neg h20, if_pos h0]

end Registers

/-- Settles O60. -/
theorem calibrationTimeAndRegisters : Obligations.CalibrationTimeAndRegisters := by
  intro t s s1
  refine ⟨fun n h b hw hn hr hd => ?_, fun n h b m hr hw => ?_, fun n h b mask hr hc => ?_,
    fun hd hm hg hb hr => exec_groupMStart_due t hd hm hg hb hr, fun high angle hh hs he => ?_,
    fun high angle e hh hs hl he => exec_fsyncEdge_ignored t angle hh hs hl he, fun a rate hl hu hc => ?_,
    fun e hl hd => exec_timecodeLoss_due t hl hd, fun fn hr => ?_, fun fn => ?_, fun fn v hr => ?_, fun v hs => ?_,
    fun fn off v => ?_⟩
  · rw [exec_calStepStart_due t hw hn hr hd]
    exact ⟨fun h0 => congrArg _ (if_pos h0), fun h0 => congrArg _ (if_neg h0)⟩
  · rw [exec_calStepEnd_worked t hr hw]
    exact ⟨fun hd => by rw [hd]; rfl, fun hd => by rw [hd]; rfl⟩
  · intro lost
    rw [exec_calPreconditionLost_alone t hr hc rfl]
    exact ⟨fun h0 => congrArg _ (if_neg h0), fun h0 => congrArg _ (if_pos h0)⟩
  · obtain ⟨hedge, hlatch, hperiod⟩ := s1.acceptFsync_sync angle
    exact ⟨_, exec_fsyncEdge_accepted t angle hh hs he, hedge, hlatch, hperiod⟩
  · refine ⟨_, exec_ltcFrameDecoded_inRange t a hl hu hc, ?_⟩
    rw [Bool.or_eq_true, SyncState.follows_iff]
  · have hr1 : (s1.func fn).ready = true := hr
    refine ⟨exec_eventPendingClear_ready t hr, exec_commitPointRead32_ready t hr, exec_deficitRead32_ready t hr,
      fun w hw => ?_, fun v => exec_registerWrite_bar0 t hr (by decide) v,
      fun v => exec_registerWrite_bar0 t hr (by decide) v, fun v off ho hlt => ?_, fun v hf => ?_, fun v hf => ?_⟩
    · rw [exec_capturedFieldRead_ready t hr, State.read32_captured (s := s1) hw]
    · rw [exec_registerWrite_bar0 t hr hlt, State.writeBar0_unaligned ho]
    · rw [exec_registerWrite_bar0 t hr (by decide), State.writeBar0_weights, State.writeWeights_refused hf]
    · subst hf
      exact exec_registerWrite_bar0 t hr (by decide) v
  · exact ⟨rfl, rfl, rfl, fun off hl hu => State.readBar0_zero (.inl ⟨hl, hu⟩), fun off hl => State.readBar0_zero (.inr hl)⟩
  · have hr1 : (s1.func fn).ready = false := hr
    exact ⟨congrArg _ (State.barWrite_notReady hr1 _), congrArg _ (State.barWrite_notReady hr1 _)⟩
  · refine ⟨exec_registerWrite_loop t hs (by decide) v, fun i => ?_⟩
    have ho : i.val * 64 + 4 < 0x40C := by omega
    rw [exec_registerWrite_loop t hs ho, State.writeLoop_shadow i (by decide) (by decide) rfl]
    rfl
  · exact ⟨fun h => if_pos h, fun h => if_pos h, fun h => if_pos h⟩

end Sys2Proof.Machine

/-! PROOF. The command packet family (04_command_packets): commands that a check refuses, pages and parameters, clips, frames
and auxiliary data, and the commands to the device. -/

namespace Sys2Proof.Machine

/-! ### A command that fails a check (R139, R140) -/

/-- The ruling on a command is a refusal where checks 1 to 3, checks 4 to 6 or its opcode's own checks refuse it, in that
order. -/
theorem State.rule_refuse {s : State} {d : Deferred} {st : Status} {v : DWord}
    (h : s.firstChecks d = some (st, v) ∨
      (s.firstChecks d = none ∧ s.waitsFor d = none ∧ s.midChecks d = some (st, v)) ∨
      (s.firstChecks d = none ∧ s.waitsFor d = none ∧ s.midChecks d = none ∧ s.ownRule d = .refuse st v)) :
    s.rule d = .refuse st v := by
  rcases h with hfirst | ⟨hfirst, hwaits, hmid⟩ | ⟨hfirst, hwaits, hmid, hown⟩
  · simp only [State.rule, hfirst]
  · simp only [State.rule, hfirst, hwaits, hmid]
  · simp only [State.rule, hfirst, hwaits, hmid, hown]

/-- Settles O21: the ruling is a refusal, which settles the command by its completion alone, and each of the 27 opcode rows
does no more than serve the command of its opcode. -/
theorem refusedCommandOnlyCompletes : Obligations.RefusedCommandOnlyCompletes := by
  intro t o c f rest st v s hs u d hfails row
  have hserve : (s.at t).serve o c = completed u f st v [] := by
    rw [State.serve_starts hs, State.settle, State.rule_refuse hfails]
  cases o <;> exact congrArg _ hserve

/-! ### Pages and parameters (R128, R129, R159) -/

theorem fieldOf_2_0 (w : Word) : fieldOf w 2 0 = w.toNat % 8 := fieldOf_zero w 2
theorem fieldOf_15_0 (w : Word) : fieldOf w 15 0 = w.toNat % 65536 := fieldOf_zero w 15

/-- Settles O23: each of the four rulings completes at once, and a parameter is read and set by its number in Table 4.11. -/
theorem pagesAndParameters : Obligations.PagesAndParameters := by
  intro t c f rest s u
  refine ⟨fun ha => ?_, fun ha => ?_, fun ha v hv => ?_, fun ha v p hv => ?_⟩
  · exact congrArg _ (State.serve_apply ha rfl)
  · intro bytes
    have hrule : u.ruleGetPage f = u.doneWith f bytes.length bytes := by
      simp only [State.ruleGetPage, fieldOf_7_0]
      rfl
    exact congrArg _ (State.serve_apply ha hrule)
  · have hget : s.params.get (fieldOf (parm f.entry 0) 15 0) = v := by
      rw [fieldOf_15_0]
      rcases hv with ⟨hid, rfl⟩ | ⟨hid, rfl⟩ | ⟨hid, rfl⟩ <;> rw [hid] <;> rfl
    rw [← hget]
    exact congrArg _ (State.serve_apply ha rfl)
  · have ⟨hget, hput⟩ : s.params.get (fieldOf (parm f.entry 0) 15 0) = v ∧
        s.params.put (fieldOf (parm f.entry 0) 15 0) (parm f.entry 1).toNat = p := by
      rw [fieldOf_15_0]
      rcases hv with ⟨hid, rfl, rfl⟩ | ⟨hid, rfl, rfl⟩ | ⟨hid, rfl, rfl⟩ <;> rw [hid] <;> exact ⟨rfl, rfl⟩
    rw [← hget, ← hput]
    exact congrArg _ (State.serve_apply ha rfl)

/-! ### Clips and frames (R147, R149, R152, R154) -/

/-- The profile that a CLIP_OPEN names, with the data it reads from the host. -/
def Fetched.openedProfile (f : Fetched) (c : Call) : Profile :=
  { profileOf (parm f.entry 0) f.entry 1 [] with user := c.payload }

section Clips

variable {s : State} {f : Fetched} {c : Call} {k : OpenClip}

theorem State.ruleClipOpen_ready (hd : c.dataErr = none) (hg : (f.openedProfile c).rate ≤ s.guarantee * 1000000)
    (hspin : s.spin.state = 3) (hv : 720 ≤ s.pace.vcore) (hstep : s.pace.lastStep + 500000 ≤ s.now) :
    s.ruleClipOpen f c = (s.openProfile (f.openedProfile c)).done f 0 := by
  have hsus : s.sustains (profileOf (parm f.entry 0) f.entry 1 []) = true := decide_eq_true hg
  have hopen : s.clipMayOpen = true := by simp [State.clipMayOpen, hspin, hv, hstep]
  simp only [State.ruleClipOpen, hsus, hspin, hopen, withData, hd, Bool.not_true, Bool.false_eq_true, ne_eq,
    not_true_eq_false, if_false]
  rfl

/-- A CLIP_CLOSE of the open clip that names no next clip. -/
theorem State.ruleClipClose_last (hd : c.dataErr = none) (hk : s.rcd.clip = some k) (hclip : parm f.entry 0 = k.prof.clip)
    (hnext : parm f.entry 1 = 0) :
    s.ruleClipClose f c = .apply ((s.closeClip 0).startRunning (f.run .clipClose)) := by
  simp [State.ruleClipClose, hk, hclip, hnext, withData, hd]

/-- A FRAME_APPEND that meets every check of its opcode. -/
theorem State.ruleFrameAppend_next {slot : Nat} {s1 : State} (hd : c.dataErr = none) (hk : s.rcd.clip = some k)
    (hlen : f.entry.length.toNat = k.prof.frameBytes) (hclip : parm f.entry 0 = k.prof.clip)
    (hnum : (parm f.entry 1).toNat = k.nextFrame)
    (hroom : sectorsOf k.prof.frameBytes + s.unencodedSectors + 3 ≤ s.remainingSlots)
    (hslot : s.slotFor f k.prof.frameBytes = some (slot, s1)) :
    s.ruleFrameAppend f c = .apply (s1.startFrame f k slot) := by
  simp only [State.ruleFrameAppend, hk, hlen, hclip, hnum, reservedSlots, if_neg (Nat.not_lt.2 hroom), hd, hslot, ne_eq,
    not_true_eq_false, if_false]

end Clips

/-! What follows the occupancy moves no running command. -/

@[simp] theorem State.raiseIn_running (s : State) (n : Nat) (fn : FnId) : (s.raiseIn n fn).host.running = s.host.running := by
  simp only [State.raiseIn]
  split <;> rfl

@[simp] theorem State.watchOccupancy_running (s : State) : s.watchOccupancy.host.running = s.host.running := by
  have hraise : s.rateDeficit.host.running = s.host.running := by
    simp only [State.rateDeficit, State.raise, State.raiseIn_running]
    rfl
  simp only [State.watchOccupancy]
  split
  · split
    · exact hraise
    · rfl
  · rfl

theorem State.startFrame_running (s : State) (f : Fetched) (k : OpenClip) (slot : Nat) :
    (s.startFrame f k slot).host.running = s.host.running ++ [{ (f.run .frameAppend) with alloc := .frame slot }] := by
  rw [State.startFrame]
  exact congrArg (· ++ _) (State.watchOccupancy_running _)

/-! ### Auxiliary data (R157, R704) -/

/-- A command that starts has the length of the entry called. -/
theorem starts_length {s : State} {t : Time} {o : Opcode} {c : Call} {f : Fetched} {rest : List Fetched}
    (hs : Starts s t o c f rest) : f.entry.length = c.entry.length := by
  obtain ⟨⟨g, rest'⟩, hg, he⟩ := Option.map_eq_some_iff.1 hs.1
  obtain ⟨rfl, -⟩ := Prod.mk.inj he
  have hentry : g.entry = c.entry := by
    simp only [State.front] at hg
    split at hg
    · cases hg
    · split at hg
      next hfront =>
        cases hg
        exact beq_iff_eq.1 (Bool.and_eq_true_iff.1 hfront).1
      · cases hg
  rw [← hentry, Fetched.withList]
  split <;> rfl

theorem Call.payload_length (c : Call) : c.payload.length = c.entry.length.toNat := by
  simp only [Call.payload, Word.zeros, List.length_take, List.length_append, List.length_replicate]
  omega

theorem pieces_length {α : Type} (k n : Nat) (l : List α) : (pieces k n l).length = n := by
  induction n generalizing l with
  | zero => rfl
  | succ n ih => rw [pieces, List.length_cons, ih]

theorem auxSectors_length (no : Nat) (d : List Byte) (units : Nat) :
    (auxSectors no d units).length = (d.length + 32767) / 32768 := by
  simp only [auxSectors, List.length_map, List.length_zip, List.length_range, pieces_length, Nat.min_self]

/-- The side-pool units that an AUX_APPEND took at fetch. -/
def Fetched.sideUnits (f : Fetched) : Nat :=
  match f.alloc with
  | .side u => u
  | _ => 0

/-- The record that an AUX_APPEND adds, for data from a system sector number on. -/
def Fetched.auxRecord (f : Fetched) (no : Nat) : VolRecord :=
  Machine.auxRecord (parm f.entry 0) (parm f.entry 1) ((parm f.entry 2).toNat % 256) f.entry.length.toNat no

/-- An AUX_APPEND with its record, its sectors queued and its data kept. -/
def State.takeAux (s : State) (f : Fetched) (d : List Byte) : State :=
  let no := s.mnt.nextSys
  let s1 := (s.addRecord (f.auxRecord no)).updMnt fun m => { m with nextSys := no + (f.entry.length.toNat + 32767) / 32768 }
  let s2 := s1.updRcd fun r => { r with auxQueue := r.auxQueue ++ auxSectors no d f.sideUnits }
  { s2 with vmap := { s2.vmap with auxData := (no, d) :: s2.vmap.auxData } }

theorem State.ruleAuxAppend_room {s : State} {f : Fetched} {c : Call} (hd : c.dataErr = none)
    (hclip : s.clipKnown (parm f.entry 0) = true) (hframe : (parm f.entry 1).toNat < (s.frameCount (parm f.entry 0)).getD 0)
    (hroom : (f.entry.length.toNat + 32767) / 32768 + s.unencodedSectors + 3 ≤ s.remainingSlots) :
    s.ruleAuxAppend f c = .apply ((s.takeAux f c.payload).wakeSpindle.finish f.org f.entry .none .success 0 []) := by
  simp only [State.ruleAuxAppend, hclip, decide_eq_false (Nat.not_le.2 hframe), reservedSlots, if_neg (Nat.not_lt.2 hroom),
    withData, hd, fieldOf_7_0, Bool.not_true, Bool.or_self, Bool.false_eq_true, if_false]
  rfl

theorem State.takeAux_auxQueue_length (s : State) (f : Fetched) (d : List Byte) :
    (s.takeAux f d).rcd.auxQueue.length = s.rcd.auxQueue.length + (d.length + 32767) / 32768 := by
  rw [← auxSectors_length s.mnt.nextSys d f.sideUnits]
  exact List.length_append

theorem State.auxRecord_mem_takeAux (s : State) (f : Fetched) (d : List Byte) :
    f.auxRecord s.mnt.nextSys ∈ (s.takeAux f d).vmap.records :=
  List.mem_append_right _ (List.mem_singleton.2 rfl)

/-- Settles O26, from the rulings of the four commands once they are accepted: taking a command from its queue changes
nothing that these rulings read. -/
theorem clipsOpenAndTakeFrames : Obligations.ClipsOpenAndTakeFrames := by
  intro t c f rest s hd u e
  refine ⟨fun ha => ?_, fun k ha hk hclip hnext => ?_, fun k slot u1 ha hk hlen hclip hnum hroom hslot => ?_,
    fun ha hclip hframe hroom => ?_⟩
  · intro p hg hspin hv hstep
    have hp : f.openedProfile c = p := by
      simp only [Fetched.openedProfile, profileOf, fieldOf_15_0]
      rfl
    have hrule := State.ruleClipOpen_ready (s := u) (f := f) hd (hp ▸ hg) hspin hv hstep
    rw [hp] at hrule
    exact congrArg _ (State.serve_apply ha hrule)
  · exact congrArg _ (State.serve_apply ha (State.ruleClipClose_last (s := u) hd hk hclip hnext))
  · exact ⟨_, congrArg _ (State.serve_apply ha (State.ruleFrameAppend_next (s := u) hd hk hlen hclip hnum hroom hslot)), rfl,
      u1.startFrame_running f k slot⟩
  · have hqueue := u.takeAux_auxQueue_length f c.payload
    rw [Call.payload_length c, ← starts_length ha.1] at hqueue
    exact ⟨_, congrArg _ (State.serve_apply ha (State.ruleAuxAppend_room (s := u) hd hclip hframe hroom)), rfl, rfl, hqueue,
      u.auxRecord_mem_takeAux f c.payload⟩

/-! ### Commands to the device (R144, R416, R419, R484, R493, R558, R570) -/

theorem State.rulePowerState_legal {s : State} {f : Fetched} {p : PowerState}
    (hp : PowerState.ofNum ((parm f.entry 0).toNat % 8) = some p) (hawake : s.holdsAwake = false) :
    s.rulePowerState f = .apply ((s.startRunning { (f.run .powerState) with target := PowerState.num p }).requestPower p
      (.command f.org f.entry.cid)) := by
  simp only [State.rulePowerState, fieldOf_2_0, hp, hawake, Bool.false_and, Bool.false_eq_true, if_false]

section Spindle

variable {s : State} {f : Fetched}

theorem rpmOf_eq (e : Entry) : rpmOf e = (parm e 1).toNat % 65536 := fieldOf_15_0 _

/-- A reversal above the threshold is refused, whatever its RPM (R144, R416). -/
theorem State.ruleSpindle_reversal (hdir : (parm f.entry 0).getLsbD 0 = true) (hstate : s.spin.state ≠ 0)
    (hrpm : 300 ≤ s.spin.rpm) : s.ruleSpindle f = .refuse .stateConflict s.stateValue := by
  have habove : (reverseOf f.entry && s.aboveReversal) = true := by
    simp [reverseOf, State.aboveReversal, hdir, hstate, hrpm]
  simp only [State.ruleSpindle, habove, if_true, State.conflict]

theorem State.brakeSpindle_rest (hstate : s.spin.state = 0) :
    s.brakeSpindle = s.updSpin fun p => { p with startDue := false, target := 0 } := if_pos hstate

/-- A stop of a rotor at rest is done at once (R415, R418). -/
theorem State.ruleSpindle_stop (hrpm : rpmOf f.entry = 0) (hstate : s.spin.state = 0) :
    s.ruleSpindle f = ((s.updMnt fun m => { m with stoppedByHost := true }).updSpin fun p =>
      { p with lockout := false, firstTrip := none, startDue := false, target := 0 }).done f 0 := by
  have hbelow : (reverseOf f.entry && s.aboveReversal) = false := by simp [State.aboveReversal, hstate]
  have hrule : s.ruleSpindle f = s.spindleStopBy f := by
    simp only [State.ruleSpindle, hbelow, hrpm, Bool.false_eq_true, if_false, if_true]
  have hrest : ((s.updSpin fun p => { p with lockout := false, firstTrip := none }).updMnt fun m =>
      { m with stoppedByHost := true }).spin.state = 0 := hstate
  rw [hrule, State.spindleStopBy]
  exact (if_pos hrest).trans (congrArg (State.done · f 0) (State.brakeSpindle_rest hrest))

/-- A forward speed is asked for (R414). -/
theorem State.ruleSpindle_forward (hrpm : rpmOf f.entry ≠ 0) (hdir : (parm f.entry 0).getLsbD 0 = false)
    (hlock : s.spin.lockout = false) : s.ruleSpindle f = s.spindleForward f (rpmOf f.entry) := by
  simp only [State.ruleSpindle, reverseOf, hdir, hrpm, hlock, Bool.false_and, Bool.false_eq_true, if_false]

/-- The rotor has the speed asked for already. -/
theorem State.spindleForward_same {rpm : Nat} (hrev : s.spin.reverse = false) (hstate : s.spin.state = 3 ∨ s.spin.state = 4)
    (hrpm : s.spin.target = rpm) :
    s.spindleForward f rpm = (s.dropScurry.updMnt fun m => { m with stoppedByHost := false }).done f 0 := by
  simp [State.spindleForward, hrev, hstate, hrpm]

/-- A start from rest (R414, R419). -/
theorem State.spindleForward_rest {rpm : Nat} (hstate : s.spin.state = 0) :
    s.spindleForward f rpm =
      .apply (((s.dropScurry.updMnt fun m => { m with stoppedByHost := false }).startRunning f.spindleRun).runAt rpm) := by
  simp [State.spindleForward, hstate]

/-- At rest and without lock-out, asking for a speed makes a start to it due. -/
theorem State.runAt_rest (rpm : Nat) (hstate : s.spin.state = 0) (hlock : s.spin.lockout = false) :
    s.runAt rpm = s.updSpin fun p => { p with startDue := true, target := rpm, reverse := false } := by
  have hwant : s.wantSpeed rpm = s.updSpin fun p => { p with startDue := true, target := rpm, reverse := false } := by
    simp only [State.wantSpeed, hlock, hstate, Bool.false_eq_true, if_false]
  have hrest : ¬ ((s.wantSpeed rpm).spin.state = 1 ∨ (s.wantSpeed rpm).spin.state = 2) := by
    rw [hwant]
    show ¬ (s.spin.state = 1 ∨ s.spin.state = 2)
    omega
  rw [State.runAt, if_neg hrest, hwant]

end Spindle

theorem State.ruleCalibrate_clear {s : State} {f : Fetched} (h : s.calMask f.entry = 0) :
    s.ruleCalibrate f = .apply ((((calUnits f.entry).foldl (fun v x => v.setUnit x.1 x.2.1 x.2.2 .pending) s).startRunning
      { (f.run .calibrate) with
        calLeft := calUnits f.entry, result := BitVec.ofNat 32 (stepsOf f.entry).length }).followBringup) := by
  simp only [State.ruleCalibrate, h, ne_eq, not_true_eq_false, if_false]

theorem State.ruleVerifyCtl_up {s : State} (f : Fetched) (h : s.cal.bringup = false) :
    s.ruleVerifyCtl f = ((if (parm f.entry 0).getLsbD 0 then s.wakeSpindle else s).updRd fun r =>
      { r with bufferScrub := (parm f.entry 0).getLsbD 1, mediaScrub := (parm f.entry 0).getLsbD 0 }).done f 0 := by
  simp only [State.ruleVerifyCtl, State.bringupHolds, h, Bool.false_and, Bool.and_false, Bool.false_eq_true, if_false]

/-- Settles O31, from the ruling of each command in the cases named. -/
theorem deviceCommandsTakeEffect : Obligations.DeviceCommandsTakeEffect := by
  intro t c f rest s u e rpm
  have hr : rpmOf f.entry = rpm := rpmOf_eq e
  refine ⟨fun p ha hp hawake => ?_, fun ha => ⟨fun hdir hstate habove => ?_, fun h0 hstate => ?_,
    fun h0 hdir hlock hrev hstate htarget => ?_, fun h0 hdir hlock hstate => ?_⟩, fun ha hmask => ?_, fun ha hup => ?_⟩
  · exact congrArg _ (State.serve_apply ha (State.rulePowerState_legal (s := u) hp hawake))
  · exact congrArg _ (State.serve_refuse ha (State.ruleSpindle_reversal (s := u) hdir hstate habove))
  · exact congrArg _ (State.serve_apply ha (State.ruleSpindle_stop (s := u) (hr.trans h0) hstate))
  · have hrule := (State.ruleSpindle_forward (s := u) (hr.symm ▸ h0) hdir hlock).trans
      (State.spindleForward_same hrev hstate (htarget.trans hr.symm))
    exact congrArg _ (State.serve_apply ha hrule)
  · have hrule := (State.ruleSpindle_forward (s := u) (hr.symm ▸ h0) hdir hlock).trans (State.spindleForward_rest hstate)
    rw [State.runAt_rest (s := ((u.dropScurry.updMnt fun m => { m with stoppedByHost := false }).startRunning
      f.spindleRun)) _ hstate hlock, Fetched.spindleRun, hr] at hrule
    exact ⟨_, congrArg _ (State.serve_apply ha hrule), rfl, rfl, rfl, hstate, rfl⟩
  · exact congrArg _ (State.serve_apply ha (State.ruleCalibrate_clear (s := u) hmask))
  · exact congrArg _ (State.serve_apply ha (State.ruleVerifyCtl_up (s := u) f hup))

end Sys2Proof.Machine

/-! PROOF. The Drey family (05_drey_buffers): reads of DDR5 bursts, the patrol scrub, uncorrectable bursts by their area, and
the memory self-test. -/

namespace Sys2Proof.Machine

/-! ### The lost device, and what events and records leave of Drey (R196) -/

section KeepDrey

variable (s : State)

@[simp] theorem State.msix_dram (fn : FnId) (v : BitVec 6) : (s.msix fn v).dram = s.dram := rfl
@[simp] theorem State.msix_rcd (fn : FnId) (v : BitVec 6) : (s.msix fn v).rcd = s.rcd := rfl

@[simp] theorem State.raise_dram (n : Nat) : (s.raise n).dram = s.dram := by
  simp [State.raise, State.raiseIn, apply_ite State.dram]

@[simp] theorem State.raise_rcd (n : Nat) : (s.raise n).rcd = s.rcd := by
  simp [State.raise, State.raiseIn, apply_ite State.rcd]

@[simp] theorem State.log_dram (code : BitVec 16) (args : List Word) : (s.log code args).dram = s.dram := by
  simp only [State.log, State.coalesce, State.createRecord]
  repeat' split
  all_goals rfl

@[simp] theorem State.log_rcd (code : BitVec 16) (args : List Word) : (s.log code args).rcd = s.rcd := by
  simp only [State.log, State.coalesce, State.createRecord]
  repeat' split
  all_goals rfl

/-- The first device that is lost stays the lost one. -/
theorem State.loseDevice_dram (d : Fin 20) : (s.loseDevice d).dram = { s.dram with lost := some (s.dram.lost.getD d) } := by
  rw [State.loseDevice]
  cases h : s.dram.lost with
  | none => simp
  | some x =>
    show s.dram = { s.dram with lost := some x }
    rw [← h]

@[simp] theorem State.loseDevice_rcd (d : Fin 20) : (s.loseDevice d).rcd = s.rcd := by
  rw [State.loseDevice]
  split <;> simp

end KeepDrey

/-! ### A burst is read (R184 to R188, R194, R196) -/

section ReadBurst

variable {s : State} (burst : Nat) {beats : List (List (BitVec 4))} {newer : Bool}

/-- The registers of DDR5 protection that counting corrected symbols leaves. -/
def DramState.outcome (x : DramState) : Word × Option (Nat × List Byte) × Nat := (x.uncorrectable, x.lastWriteBack, x.dropped)

theorem State.countBurst_outcome (u : State) (d : Nat) : (u.countBurst burst d).dram.outcome = u.dram.outcome := by
  simp only [State.countBurst]
  split
  · rw [State.loseDevice_dram]
    rfl
  · rfl

/-- The corrected symbols of a burst are counted, each for its device, and the burst once for each of these devices. -/
def State.countCorrected (s : State) (burst : Nat) (devs : List Nat) : State :=
  devs.eraseDups.foldl (fun u d => u.countBurst burst d) (devs.foldl State.countSymbol s)

theorem State.countCorrected_outcome (devs : List Nat) : (s.countCorrected burst devs).dram.outcome = s.dram.outcome :=
  calc (s.countCorrected burst devs).dram.outcome
    _ = (devs.foldl State.countSymbol s).dram.outcome :=
      foldl_keeps (fun u => u.dram.outcome) _ (State.countBurst_outcome burst) _ _
    _ = s.dram.outcome := foldl_keeps (fun u => u.dram.outcome) State.countSymbol (fun _ _ => rfl) _ _

/-- The devices whose symbols the decoder has changed. -/
def correctedDevices (words good : List (List Byte)) : List Nat := (List.zip words good).flatMap fun x => changedDevices x.1 x.2

/-- Every symbol that the decoder has changed belongs to the lost device. -/
def State.lostOnly (s : State) (devs : List Nat) : Bool := devs.all fun d => (s.dram.lost.map (·.val)) == some d

theorem State.readBurst_detected (h : (ddrWords beats).mapM (ddrDecode s.dram.lost) = none) :
    s.readBurst burst beats newer = s.updDram fun x => { x with uncorrectable := satOne x.uncorrectable } := by
  simp only [State.readBurst, h]

theorem State.readBurst_decoded {good : List (List Byte)} (h : (ddrWords beats).mapM (ddrDecode s.dram.lost) = some good) :
    let devs := correctedDevices (ddrWords beats) good
    let counted := s.countCorrected burst devs
    s.readBurst burst beats newer =
      if s.lostOnly devs then counted
      else if newer then counted.updDram fun x => { x with dropped := x.dropped + 1 }
      else counted.updDram fun x => { x with lastWriteBack := some (burst, good.flatMap fun w => (w.take 16).reverse) } := by
  simp only [State.readBurst, h]
  rfl

/-- A decoded burst is written back, dropped for a newer write, or neither (R187, R194). -/
theorem State.readBurst_decoded_outcome {good : List (List Byte)}
    (h : (ddrWords beats).mapM (ddrDecode s.dram.lost) = some good) :
    let only := s.lostOnly (correctedDevices (ddrWords beats) good)
    (s.readBurst burst beats newer).dram.outcome =
      (s.dram.uncorrectable,
       if only || newer then s.dram.lastWriteBack else some (burst, good.flatMap fun w => (w.take 16).reverse),
       if !only && newer then s.dram.dropped + 1 else s.dram.dropped) := by
  have hkept := State.countCorrected_outcome (s := s) burst (correctedDevices (ddrWords beats) good)
  simp only [DramState.outcome, Prod.mk.injEq] at hkept
  obtain ⟨huncorrectable, hback, hdropped⟩ := hkept
  rw [State.readBurst_decoded burst h]
  dsimp only
  cases s.lostOnly (correctedDevices (ddrWords beats) good) with
  | true => simp [DramState.outcome, huncorrectable, hback, hdropped]
  | false => cases newer <;> simp [DramState.outcome, huncorrectable, hback, hdropped]

end ReadBurst

/-! ### The rows of DDR5 protection (R188, R192, R198, R252, R253, Table 5.7) -/

theorem State.dramServed_of {s : State} (hdomain : s.pwr.domains.getLsbD 14 = true) (hrefresh : s.dram.selfRefresh = false)
    (hlock : s.pwr.pllLost.contains .ddr5 = false) : s.dramServed = true := by
  simp only [State.dramServed, hdomain, hrefresh, hlock, Bool.not_false, Bool.and_true]

@[simp] theorem State.at_dramServed (s : State) (t : Time) : (s.at t).dramServed = s.dramServed := rfl

section DreyRows

variable {s : State} (t : Time) {burst : Nat}

theorem ddr5ReadCorrected_outside (h : 150994944 ≤ burst) (beats : List (List (BitVec 4))) (newer : Bool) :
    execDdr5ReadCorrected t burst beats newer s = .fault .outsideDrey := if_pos h

theorem ddr5Uncorrectable_outside (h : 150994944 ≤ burst) (region : DreyRegion) :
    execDdr5Uncorrectable t burst region s = .fault .outsideDrey := if_pos h

theorem ddr5ReadCorrected_served (h : burst < 150994944) (hserved : s.dramServed = true) (beats : List (List (BitVec 4)))
    (newer : Bool) : execDdr5ReadCorrected t burst beats newer s = .next ((s.at t).readBurst burst beats newer) := by
  have hin : ¬ Config.scrubBursts ≤ burst := Nat.not_le.mpr h
  simp only [execDdr5ReadCorrected, if_neg hin, State.at_dramServed, hserved, if_true]

/-- The reaction to what an uncorrectable burst held (Table 5.7). -/
def State.damageRegion (s : State) : DreyRegion → State
  | .frame clip number => s.damageFrame clip number
  | .review fn q cid lsn twice => s.damageReview fn q cid lsn twice
  | .assembly psa => s.setPart psa .erased
  | .scurry lsn => s.dropScurryLsn lsn
  | .side fn q cid offset clip frame stream => s.damageSide fn q cid offset clip frame stream
  | .volumeMap line => { s with vmap := s.vmap.rebuildLine (128 * line) }
  | .relocationList => s.updBurrow fun b => { b with relocs := relocList s.vmap.records }
  | .accessList => s.updBurrow fun b => { b with ranges := rangeList s.vmap.records }
  | .shadow row => s.updBurrow fun b => b.rebuildShadow row
  | .working | .selfTest => s

/-- A burst in the area of its region is counted, and the region's reaction follows. -/
theorem ddr5Uncorrectable_served (h : burst < 150994944) (hserved : s.dramServed = true) {region : DreyRegion}
    (harea : areaOf burst = regionArea region) : execDdr5Uncorrectable t burst region s =
      .next (((s.at t).updDram fun x => { x with uncorrectable := satOne x.uncorrectable }).damageRegion region) := by
  have hin : ¬ Config.scrubBursts ≤ burst := Nat.not_le.mpr h
  have hhit : ¬ (!(s.at t).dramServed || areaOf burst != regionArea region) = true := by simp [hserved, harea]
  simp only [execDdr5Uncorrectable, if_neg hin, if_neg hhit]
  cases region <;> rfl

theorem scrubRead_due (hserved : s.dramServed = true) (hfilled : (s.at t).filled s.dram.patrol = true)
    (hdue : s.dram.lastScrub + (s.at t).scrubInterval ≤ (s.at t).now) (beats : List (List (BitVec 4))) (newer : Bool) :
    execScrubRead t beats newer s = .next (((s.at t).readBurst s.dram.patrol beats newer).updDram fun x =>
      { x with patrol := (x.patrol + 1) % 150994944, lastScrub := (s.at t).now }) := by
  simp only [execScrubRead, State.at_dramServed, State.at_dram, hserved, hfilled, hdue, decide_true, Bool.and_true, if_true]
  rfl

theorem scrubRead_early (hearly : (s.at t).now < s.dram.lastScrub + (s.at t).scrubInterval) (beats : List (List (BitVec 4)))
    (newer : Bool) : execScrubRead t beats newer s = .next (s.at t) := by
  have hdue : ¬ s.dram.lastScrub + (s.at t).scrubInterval ≤ (s.at t).now := Nat.not_le.mpr hearly
  simp only [execScrubRead, State.at_dram, hdue, decide_false, Bool.and_false, Bool.false_eq_true, if_false]

end DreyRows

/-! ### The memory self-test (R190, R196, R199, Table 5.5) -/

/-- One failed device is lost, and Drey is in service without it (R196). -/
theorem State.selfTest_oneDevice (s : State) (d : Fin 20) : s.selfTest { failed := [d] } = (s.selfTest {}).loseDevice d := rfl

section SelfTest

variable {s : State} (hstep : s.quill.bootStep = 9)
include hstep

theorem memorySelfTest_atStep (t : Time) (hdomain : s.pwr.domains.getLsbD 14 = true) (test : SelfTestSense) :
    execMemorySelfTest t test s = .next ((s.at t).selfTest test) := by
  have hacts : (s.at t).quill.bootStep = 9 ∧ (s.at t).pwr.domains.getLsbD 14 = true := ⟨hstep, hdomain⟩
  simp only [execMemorySelfTest, if_pos hacts]

theorem State.selfTest_clean : s.selfTest {} =
    ((s.updQuill fun q => { q with bootStep := 10 }).updDram fun x => { x with fillStart := some s.now }).updDrey fun d =>
      { d with tested := true } := by
  simp only [State.selfTest, if_pos hstep]
  rfl

theorem State.selfTest_loopFailed {test : SelfTestSense} (h : test.loopOk = false) : s.selfTest test =
    (s.updQuill fun q => { q with bootStep := 10 }).updDrey fun d => { d with outOfService := true } := by
  simp only [State.selfTest, if_pos hstep, h, Bool.false_and]

end SelfTest

/-- Settles O52, clause by clause: bursts outside the first 18 GiB, reads of a burst, uncorrectable bursts by their area, the
patrol scrub, and the self-test at step 9. -/
theorem dreyErrorsAndSelfTest : Obligations.DreyErrorsAndSelfTest := by
  intro t burst s s1
  refine ⟨fun hout => ⟨ddr5ReadCorrected_outside t hout, ddr5Uncorrectable_outside t hout⟩,
    fun hin hdomain hrefresh hlock beats newer => ?_, fun hin hdomain hrefresh hlock => ?_,
    fun hdomain hrefresh hlock beats newer hfilled => ?_, fun hstep hdomain => ?_⟩
  · have hread := ddr5ReadCorrected_served t hin (State.dramServed_of hdomain hrefresh hlock) beats newer
    refine ⟨fun hnone => ?_, fun good hgood => ?_⟩
    · exact hread.trans (congrArg _ (State.readBurst_detected (s := s1) burst hnone))
    · have hout := State.readBurst_decoded_outcome (s := s1) (newer := newer) burst hgood
      simp only [DramState.outcome, Prod.mk.injEq] at hout
      exact ⟨_, hread, hout⟩
  · have hcount := fun region => ddr5Uncorrectable_served t hin (State.dramServed_of hdomain hrefresh hlock) (region := region)
    exact ⟨fun ha clip number => hcount (.frame clip number) ha,
      fun ha fn qid cid lsn twice => hcount (.review fn qid cid lsn twice) ha,
      fun ha fn qid cid offset clip frame stream => hcount (.side fn qid cid offset clip frame stream) ha,
      fun ha psa => hcount (.assembly psa) ha, fun ha lsn => hcount (.scurry lsn) ha,
      fun ha line => hcount (.volumeMap line) ha,
      fun ha => ⟨hcount .relocationList ha, hcount .accessList ha, fun row => hcount (.shadow row) ha⟩,
      fun ha => hcount .working ha, fun ha => hcount .selfTest ha⟩
  · exact ⟨fun hdue => scrubRead_due t (State.dramServed_of hdomain hrefresh hlock) hfilled hdue beats newer,
      fun hearly => scrubRead_early t hearly beats newer⟩
  · have htest := memorySelfTest_atStep hstep t hdomain
    have hclean := State.selfTest_clean (s := s1) hstep
    refine ⟨⟨_, (htest {}).trans (congrArg _ hclean), rfl, rfl, rfl, rfl⟩, fun d hlost => ?_, fun x hloop => ?_⟩
    · refine ⟨_, (htest _).trans (congrArg _ (State.selfTest_oneDevice s1 d)), ?_, ?_⟩
      · rw [State.loseDevice_rcd, hclean]
        rfl
      · have hnone : ((s1.selfTest {}).dram.lost) = none := by
          rw [hclean]
          exact hlost
        rw [State.loseDevice_dram, hnone]
        rfl
    · exact ⟨_, (htest x).trans (congrArg _ (State.selfTest_loopFailed (s := s1) hstep hloop)), rfl⟩

end Sys2Proof.Machine

/-! PROOF. The volume map family (06_volume_map_burrow): the addresses of cache lines, the aligned runs that cover an access
range, and what the cache and the scrub of Burrow do to their tables. -/

namespace Sys2Proof.Machine

/-! ### Cache lines and their addresses (R215) -/

theorem cacheTag_eq (a : Nat) : cacheTag a = a / 65536 % 32768 := rfl

/-- A cache line's address holds its tag above the low bits, which the set index hides under the tag's two halves. -/
theorem CacheLine.addr_eq (l : CacheLine) : l.addr = l.tag * 65536 + (l.set ^^^ l.tag % 512 ^^^ l.tag / 512) * 128 := rfl

/-- The set index is the low bits under the tag's two halves. -/
theorem cacheSet_eq (a : Nat) : cacheSet a = a / 128 % 512 ^^^ cacheTag a % 512 ^^^ cacheTag a / 512 := by
  have hmid : bitsOf a 24 16 = cacheTag a % 512 := by simp only [bitsOf, cacheTag]; omega
  have hhigh : bitsOf a 30 25 = cacheTag a / 512 := by simp only [bitsOf, cacheTag]; omega
  show bitsOf a 15 7 ^^^ bitsOf a 24 16 ^^^ bitsOf a 30 25 = _
  rw [hmid, hhigh]
  rfl

/-- Hiding low bits under the two halves of a tag a second time shows them again. -/
theorem xor_tagHalves_twice (low x y : Nat) : low ^^^ x ^^^ y ^^^ x ^^^ y = low := by
  rw [Nat.xor_right_comm, Nat.xor_xor_cancel_right, Nat.xor_xor_cancel_right]

theorem hiddenLow_lt {set tag : Nat} (hset : set < 512) (htag : tag < 32768) : set ^^^ tag % 512 ^^^ tag / 512 < 512 :=
  Nat.xor_lt_two_pow (n := 9) (Nat.xor_lt_two_pow (n := 9) hset (by omega)) (by omega)

section LineOfSetAndTag

variable {l : CacheLine} (hset : l.set < 512) (htag : l.tag < 32768)
include hset htag

theorem cacheTag_addr : cacheTag l.addr = l.tag := by
  have hlow := hiddenLow_lt hset htag
  rw [cacheTag_eq, l.addr_eq]
  omega

theorem cacheSet_addr : cacheSet l.addr = l.set := by
  have hlow := hiddenLow_lt hset htag
  have hbits : l.addr / 128 % 512 = l.set ^^^ l.tag % 512 ^^^ l.tag / 512 := by
    rw [l.addr_eq]
    omega
  rw [cacheSet_eq, cacheTag_addr hset htag, hbits, xor_tagHalves_twice]

end LineOfSetAndTag

theorem CacheLine.addr_aligned (l : CacheLine) : l.addr % 128 = 0 := by
  rw [l.addr_eq]
  omega

theorem CacheLine.addr_of_address {l : CacheLine} {a : Nat} (ha : a < 2147483648) (hset : l.set = cacheSet a)
    (htag : l.tag = cacheTag a) : l.addr = lineOf a := by
  rw [l.addr_eq, hset, htag, cacheSet_eq, xor_tagHalves_twice, cacheTag_eq, lineOf]
  omega

/-- Settles O8: hiding the low bits of an address under the two halves of its tag undoes itself. -/
theorem cacheLinesAndAddresses : Obligations.CacheLinesAndAddresses :=
  ⟨fun l hset htag => ⟨cacheSet_addr hset htag, cacheTag_addr hset htag, l.addr_aligned⟩,
    fun _ _ _ _ ha => CacheLine.addr_of_address ha rfl rfl⟩

/-! ### The prefixes of an access range (R224, R226) -/

/-- Of the aligned runs of LSNs that begin at `first` and lie within the `count` LSNs from there on, the longest has `2 ^ k`
(R224). -/
structure LargestPrefix (first count k : Nat) : Prop where
  bound : k ≤ 32
  aligned : 2 ^ k ∣ first
  fits : 2 ^ k ≤ count
  largest : k < 32 → 2 ^ (k + 1) ≤ count → ¬ 2 ^ (k + 1) ∣ first

theorem prefixes_none (n first : Nat) : prefixes n first 0 = [] := by
  cases n <;> rfl

/-- A range that is not empty begins with the longest aligned run. -/
theorem prefixes_first (n first : Nat) {count : Nat} (hcount : 0 < count) : ∃ k, LargestPrefix first count k ∧
    prefixes (n + 1) first count = (first, 32 - k) :: prefixes n (first + 2 ^ k) (count - 2 ^ k) := by
  have hsome :
      (((List.range 33).reverse.map fun k => 2 ^ k).find? fun b => decide (b ≤ count) && first % b == 0).isSome := by
    rw [List.find?_isSome]
    exact ⟨1, by decide, by simpa [Nat.mod_one, Nat.succ_le_iff] using hcount⟩
  obtain ⟨b, hb⟩ := Option.isSome_iff_exists.1 hsome
  obtain ⟨hfits, i, hi, hbi, hbefore⟩ := List.find?_eq_some_iff_getElem.1 hb
  have hi33 : i < 33 := by simpa using hi
  have hpow : b = 2 ^ (32 - i) := by simpa using hbi.symm
  subst hpow
  simp only [Bool.and_eq_true, decide_eq_true_eq, beq_iff_eq] at hfits
  refine ⟨32 - i, ⟨by omega, Nat.dvd_of_mod_eq_zero hfits.2, hfits.1, fun hk hnext hdvd => ?_⟩, ?_⟩
  · have hprev := hbefore (i - 1) (by omega)
    have hexp : 32 - (i - 1) = 32 - i + 1 := by omega
    simp [hexp, hnext, Nat.mod_eq_zero_of_dvd hdvd] at hprev
  · simp only [prefixes, if_neg (Nat.ne_of_gt hcount), hb, Nat.log2_two_pow]

/-- `n` steps are enough for a range: its prefixes grow while the alignment of the first LSN limits them, and shrink once
the count does. `2 ^ j` divides the first LSN; in the shrinking phase it exceeds the count. -/
def FuelEnough (n first count : Nat) : Prop :=
  ∃ j, 2 ^ j ∣ first ∧ (count < 2 ^ j ∧ j ≤ n ∨ j ≤ 32 ∧ 66 ≤ n + j)

theorem fuelEnough_start (first count : Nat) : FuelEnough 66 first count :=
  ⟨0, one_dvd first, .inr ⟨by decide, by decide⟩⟩

theorem FuelEnough.empty_of_zero {first count : Nat} (h : FuelEnough 0 first count) : count = 0 := by
  obtain ⟨j, -, ⟨hlt, hj⟩ | ⟨hj, hn⟩⟩ := h
  · rw [Nat.le_zero.1 hj] at hlt
    omega
  · omega

/-- An odd multiple of a power of two, increased by that power, is a multiple of its double. -/
theorem two_pow_succ_dvd_add {first k : Nat} (hk : 2 ^ k ∣ first) (hodd : ¬ 2 ^ (k + 1) ∣ first) :
    2 ^ (k + 1) ∣ first + 2 ^ k := by
  obtain ⟨m, rfl⟩ := hk
  have hm : m % 2 = 1 := by
    by_contra heven
    exact hodd (Nat.pow_succ 2 k ▸ Nat.mul_dvd_mul_left _ (Nat.dvd_of_mod_eq_zero (by omega)))
  rw [Nat.pow_succ, ← Nat.mul_succ]
  exact Nat.mul_dvd_mul_left _ (Nat.dvd_of_mod_eq_zero (by omega))

/-- Steps enough for a range are, less one, enough for what its first run leaves. -/
theorem FuelEnough.step {n first count k : Nat} (h : FuelEnough (n + 1) first count) (hk : LargestPrefix first count k)
    (hend : first + count ≤ 4294967296) : FuelEnough n (first + 2 ^ k) (count - 2 ^ k) := by
  obtain ⟨hk32, hdvd, hfits, hlargest⟩ := hk
  have hdouble : 2 ^ (k + 1) = 2 * 2 ^ k := Nat.pow_succ'
  obtain ⟨j, hj, hphase⟩ := h
  by_cases hshrink : count < 2 ^ (k + 1)
  · refine ⟨k, hdvd.add (dvd_refl _), .inl ⟨by omega, ?_⟩⟩
    rcases hphase with ⟨hlt, hjn⟩ | ⟨hj32, hfuel⟩
    · have hkj : k < j := (Nat.pow_lt_pow_iff_right (by decide)).1 (Nat.lt_of_le_of_lt hfits hlt)
      omega
    · omega
  · have hbig : 2 ^ (k + 1) ≤ count := Nat.not_lt.1 hshrink
    have hk' : k + 1 ≤ 32 := (Nat.pow_le_pow_iff_right (a := 2) (by decide)).1 (by omega)
    have hodd := hlargest hk' hbig
    have hjk : j ≤ k := by
      by_contra hlt
      exact hodd ((Nat.pow_dvd_pow 2 (Nat.not_le.1 hlt)).trans hj)
    refine ⟨k + 1, two_pow_succ_dvd_add hdvd hodd, .inr ⟨hk', ?_⟩⟩
    rcases hphase with ⟨hlt, -⟩ | ⟨-, hfuel⟩
    · have hle : 2 ^ j ≤ 2 ^ k := Nat.pow_le_pow_right (by decide) hjk
      omega
    · omega

/-- A list of prefixes, each aligned to its size, covers exactly the `count` LSNs from `first` on. -/
def ExactCover (l : List (Nat × Nat)) (first count : Nat) : Prop :=
  (∀ x ∈ l, x.2 ≤ 32 ∧ x.1 % 2 ^ (32 - x.2) = 0) ∧
    ∀ lsn, (∃ x ∈ l, x.1 ≤ lsn ∧ lsn < x.1 + 2 ^ (32 - x.2)) ↔ first ≤ lsn ∧ lsn < first + count

theorem exactCover_nil (first : Nat) : ExactCover [] first 0 :=
  ⟨fun _ h => absurd h List.not_mem_nil, fun lsn => by simp⟩

/-- The first run before a cover of the rest covers the whole. -/
theorem ExactCover.cons {l : List (Nat × Nat)} {first count k : Nat} (hk : LargestPrefix first count k)
    (h : ExactCover l (first + 2 ^ k) (count - 2 ^ k)) : ExactCover ((first, 32 - k) :: l) first count := by
  obtain ⟨haligned, hcovers⟩ := h
  have hsize : 32 - (32 - k) = k := by have := hk.bound; omega
  have hfits := hk.fits
  refine ⟨fun x hx => ?_, fun lsn => ?_⟩
  · rcases List.mem_cons.1 hx with rfl | hx
    · refine ⟨Nat.sub_le 32 k, ?_⟩
      dsimp only
      rw [hsize]
      exact Nat.mod_eq_zero_of_dvd hk.aligned
    · exact haligned x hx
  · simp only [List.mem_cons, exists_eq_or_imp, hcovers, hsize]
    generalize 2 ^ k = size at hfits ⊢
    omega

/-- The recursion takes runs off the front of the range until nothing is left. -/
theorem prefixes_exactCover {n : Nat} : ∀ {first count : Nat}, FuelEnough n first count →
    first + count ≤ 4294967296 → ExactCover (prefixes n first count) first count := by
  induction n with
  | zero =>
    intro first count hfuel _
    rw [hfuel.empty_of_zero]
    exact exactCover_nil first
  | succ n ih =>
    intro first count hfuel hend
    rcases Nat.eq_zero_or_pos count with rfl | hcount
    · rw [prefixes_none]
      exact exactCover_nil first
    · obtain ⟨k, hk, hsplit⟩ := prefixes_first n first hcount
      have hfits := hk.fits
      rw [hsplit]
      exact (ih (hfuel.step hk hend) (by omega)).cons hk

/-- Settles O54: 66 steps are enough, and each takes an aligned run off the front of the range. -/
theorem accessPrefixesCoverTheirRange : Obligations.AccessPrefixesCoverTheirRange :=
  fun first count hend => prefixes_exactCover (fuelEnough_start first count) hend

/-! ### The cache: fills, write-backs and parity errors (R217 to R220, R254) -/

theorem CacheState.fill_noMiss {c : CacheState} (h : c.miss = none) (line : List Byte) : c.fill line = c := by
  simp only [CacheState.fill, h]

theorem lineOf_eq (a : Nat) : lineOf a = 128 * (a / 128) := Nat.mul_comm _ _

section CacheRows

variable {s : State} (t : Time)

theorem cacheFillComplete_miss (hserved : s.dramServed = true) {r : CacheReq} (hmiss : s.vmap.cache.miss = some r) :
    execCacheFillComplete t s =
      .next ((s.at t).updCache fun x => x.fill (Memory.readAll s.vmap.mem (128 * (r.addr / 128)) 128)) := by
  simp only [execCacheFillComplete, State.at_dramServed, hserved, Bool.not_true, Bool.false_eq_true, if_false,
    State.updCache, State.at_vmap, hmiss, Option.map_some, Option.getD_some, lineOf_eq]

theorem evictionWriteback_oldest (hserved : s.dramServed = true) {x : Nat × List Byte} {rest : List (Nat × List Byte)}
    (h : s.vmap.cache.eviction = x :: rest) : execEvictionWriteback t s = .next { s.at t with vmap := { s.vmap with
      mem := Memory.writeAll s.vmap.mem x.1 x.2, cache := { s.vmap.cache with eviction := rest } } } := by
  simp only [execEvictionWriteback, State.at_dramServed, hserved, Bool.not_true, Bool.false_eq_true, if_false,
    State.at_vmap, h]
  rfl

theorem cacheParityError_right (site : CacheSite) {byte : Byte} {parity : Bool} (h : parity = oddParity byte) :
    execCacheParityError t site byte parity s = .next (s.at t) := by
  simp only [execCacheParityError, parityFails, h, bne_self_eq_false, Bool.false_eq_true, if_false]

theorem cacheParityError_wrong (site : CacheSite) {byte : Byte} {parity : Bool} (h : parity ≠ oddParity byte) :
    execCacheParityError t site byte parity s = .next ((s.at t).cacheParity site) := by
  simp only [execCacheParityError, parityFails, bne_iff_ne.2 h, if_true]

end CacheRows

theorem State.cacheParity_line {s : State} {set way : Nat} {l : CacheLine}
    (h : s.vmap.cache.lines.find? (fun x => x.set == set && x.way == way) = some l) :
    let d := { s.vmap.cache with lines := s.vmap.cache.lines.filter fun x => !(x.set == set && x.way == way) }
    s.cacheParity (.line set way) = if l.dirty then (s.updCache fun _ => d).rebuildLine l.addr
      else s.updCache fun _ => d.access { addr := l.addr, write := false } := by
  simp only [State.cacheParity, h]

theorem State.cacheParity_eviction {s : State} {i : Nat} {x : Nat × List Byte} (h : s.vmap.cache.eviction[i]? = some x) :
    s.cacheParity (.eviction i) =
      (s.updCache fun y => { y with eviction := y.eviction.eraseIdx i }).rebuildLine x.1 := by
  simp only [State.cacheParity, h]
  rfl

/-! ### One block becomes a bucket row (R237) -/

theorem least_eq_min? (l : List Nat) : least l = l.min? := by
  cases l <;> rfl

/-- The block that consolidation takes has eight rows or more. -/
theorem BurrowState.inBlock_length {b : BurrowState} {p k : Nat} (h : b.block = some (p, k)) :
    8 ≤ (b.inBlock p k).length := by
  obtain ⟨q, -, hq⟩ := firstSome_mem _ _ _ h
  obtain ⟨m, hleast, hm⟩ := Option.map_eq_some_iff.1 hq
  cases hm
  rw [least_eq_min?] at hleast
  exact of_decide_eq_true (List.mem_filter.1 (List.min?_mem hleast)).2

/-- The bucket row of a block (R237). -/
def bucketRow (p k : Nat) : BurrowRow :=
  { key := burrowKey 1 0 (k * 2 ^ (32 - p)), mask := burrowMask p, result := burrowResult 2 0 0 }

theorem BurrowState.consolidate_noBlock {b : BurrowState} (hblock : b.block = none) : b.consolidate = b := by
  simp only [BurrowState.consolidate, hblock, ite_self]

/-- The bucket row of the block is placed and the rows it replaces are cleared; with no row free, the first of them goes
before. -/
theorem BurrowState.consolidate_block {b : BurrowState} {p k : Nat} (hfew : b.freeCount < 64)
    (hblock : b.block = some (p, k)) : b.consolidate =
      ((if b.freeCount = 0 then b.clear ((b.inBlock p k).headD 0) else b).place (bucketRow p k)).clearAll
        ((b.live.filter fun x => (b.inBlock p k).contains x.1).map (·.2)).contains := by
  have hrows := BurrowState.inBlock_length hblock
  simp only [BurrowState.consolidate, if_neg (Nat.not_le.2 hfew), hblock]
  cases hrow : b.inBlock p k with
  | nil =>
    rw [hrow] at hrows
    exact absurd hrows (by decide)
  | cons i rest => cases hfree : b.freeCount <;> rfl

/-! ### What moving rows leaves of the scrub (R232 to R234, R237, R244, R245) -/

/-- The part of Burrow that no insertion, move or deletion of rows changes: the rows out of service, those to read back at
once, and the next row of the scan. -/
def BurrowState.scrubView (b : BurrowState) : List Nat × List Nat × Nat := (b.removed, b.urgent, b.scanRow)

section KeepScrub

variable (b : BurrowState)

@[simp] theorem BurrowState.write_scrubView (i : Nat) (r : BurrowRow) : (b.write i r).scrubView = b.scrubView := rfl
@[simp] theorem BurrowState.clear_scrubView (i : Nat) : (b.clear i).scrubView = b.scrubView := rfl

@[simp] theorem BurrowState.move_scrubView (src dst : Nat) : (b.move src dst).scrubView = b.scrubView := by
  rw [BurrowState.move]
  split <;> rfl

@[simp] theorem BurrowState.shiftDown_scrubView (c hole n g : Nat) : (b.shiftDown c hole n g).1.scrubView = b.scrubView := by
  induction n generalizing b hole g with
  | zero => rfl
  | succ n ih =>
    rw [BurrowState.shiftDown]
    (repeat' split) <;> simp [ih]

@[simp] theorem BurrowState.shiftUp_scrubView (c hole n g : Nat) : (b.shiftUp c hole n g).1.scrubView = b.scrubView := by
  induction n generalizing b hole g with
  | zero => rfl
  | succ n ih =>
    rw [BurrowState.shiftUp]
    (repeat' split) <;> simp [ih]

@[simp] theorem BurrowState.place_scrubView (r : BurrowRow) : (b.place r).scrubView = b.scrubView := by
  rw [BurrowState.place]
  split <;> simp

@[simp] theorem BurrowState.clearAll_scrubView (p : BurrowRow → Bool) : (b.clearAll p).scrubView = b.scrubView := by
  rw [BurrowState.clearAll]
  generalize (b.live.filter fun x => p x.2).map (·.1) = rows
  induction rows generalizing b with
  | nil => rfl
  | cons i rows ih => rw [List.foldl_cons, ih, BurrowState.clear_scrubView]

@[simp] theorem BurrowState.consolidate_scrubView : b.consolidate.scrubView = b.scrubView := by
  rcases Nat.lt_or_ge b.freeCount 64 with hfew | hmany
  · cases hblock : b.block with
    | none => rw [BurrowState.consolidate_noBlock hblock]
    | some x =>
      obtain ⟨p, k⟩ := x
      rw [BurrowState.consolidate_block hfew hblock, BurrowState.clearAll_scrubView, BurrowState.place_scrubView]
      split <;> rfl
  · rw [BurrowState.consolidate, if_pos hmany]

@[simp] theorem BurrowState.insert_scrubView (r : BurrowRow) : (b.insert r).scrubView = b.scrubView := by
  rw [BurrowState.insert]
  split <;> simp

end KeepScrub

@[simp] theorem State.log_vmap (s : State) (code : BitVec 16) (args : List Word) : (s.log code args).vmap = s.vmap := by
  simp only [State.log, State.coalesce, State.createRecord]
  repeat' split
  all_goals rfl

theorem State.retireRow_removed {s : State} {p : Nat} (h : s.vmap.burrow.removed.contains p = true) (diagnosis : Nat) :
    s.retireRow p diagnosis = s := by
  simp only [State.retireRow, h, if_true]

/-- A row that retires leaves service, whether a spare takes its index or its content moves elsewhere. -/
theorem State.retireRow_scrubView {s : State} {p : Nat} (h : s.vmap.burrow.removed.contains p = false) (diagnosis : Nat) :
    (s.retireRow p diagnosis).vmap.burrow.scrubView =
      (s.vmap.burrow.removed ++ [p], s.vmap.burrow.urgent, s.vmap.burrow.scanRow) := by
  simp only [State.retireRow, h, Bool.false_eq_true, if_false]
  split
  · rfl
  · split
    · rfl
    · -- with no spare left, the content is placed elsewhere, and the first such loss is logged
      split <;> split <;> simp [State.updBurrow] <;> rfl

/-! ### A row is read back (R240, R241, R243, R248, R255, Table 6.6) -/

/-- A row that has been read back is no longer suspected, nor is its result. -/
def BurrowState.noteRead (b : BurrowState) (p : Nat) (same : Bool) : BurrowState :=
  { b with
    badResult := b.badResult.filter (· != p), suspects := b.suspects.filter (· != p)
    checked := if same && !b.checked.contains p then b.checked ++ [p] else b.checked }

theorem State.rowRead_right {s : State} {p : Nat} (h : s.vmap.burrow.suspects.contains p = false) :
    s.rowRead p true = s.updBurrow (·.noteRead p true) := by
  simp only [State.rowRead, h, Bool.not_true, Bool.false_eq_true, if_false]
  rfl

theorem State.rowRead_wrong (s : State) (p : Nat) :
    s.rowRead p false = (s.updBurrow (·.noteRead p false)).retireRow p 1 := rfl

/-- Reading a row back leaves the queue of urgent rows and the scan where they are. -/
theorem State.rowRead_turns (s : State) (p : Nat) (same : Bool) :
    (s.rowRead p same).vmap.burrow.scrubView.2 = s.vmap.burrow.scrubView.2 := by
  have hretire : ∀ diagnosis, ((s.updBurrow (·.noteRead p same)).retireRow p diagnosis).vmap.burrow.scrubView.2 =
      s.vmap.burrow.scrubView.2 := by
    intro diagnosis
    cases h : (s.updBurrow (·.noteRead p same)).vmap.burrow.removed.contains p with
    | true => rw [State.retireRow_removed h]; rfl
    | false => rw [State.retireRow_scrubView h]; rfl
  rw [State.rowRead]
  split
  · exact hretire 1
  · split
    · exact hretire 2
    · rfl

/-- The scan goes to its next row. -/
def BurrowState.scanned (b : BurrowState) (now : Time) : BurrowState :=
  { b with
    scanRow := (b.scanRow + 1) % Config.burrowPhysical, readAt := some now
    passRead := b.passRead || decide (b.scanRow + 1 = Config.burrowPhysical) }

/-- The row that a read-back compares has had its turn: an urgent one leaves their queue, else the scan goes on. -/
def BurrowState.turned (b : BurrowState) (now : Time) : BurrowState :=
  if b.urgent.isEmpty then b.scanned now else { b with urgent := b.urgent.drop 1 }

theorem BurrowState.turned_scan {b : BurrowState} (h : b.urgent = []) (now : Time) : b.turned now = b.scanned now := by
  simp only [BurrowState.turned, h, List.isEmpty_nil, if_true]

theorem BurrowState.turned_urgent {b : BurrowState} {row : Nat} {rest : List Nat} (h : b.urgent = row :: rest) (now : Time) :
    (b.turned now).scrubView.2 = (rest, b.scanRow) := by
  simp only [BurrowState.turned, h, List.isEmpty_cons, Bool.false_eq_true, if_false, List.drop_one, List.tail_cons]
  rfl

theorem State.coreOn_of {s : State} (hdomain : s.pwr.domains.getLsbD 4 = true) (hrecovery : s.quill.recovery = false) :
    s.coreOn = true := by
  simp only [State.coreOn, hdomain, hrecovery, Bool.not_false, Bool.and_true]

@[simp] theorem State.at_coreOn (s : State) (t : Time) : (s.at t).coreOn = s.coreOn := rfl

/-- What was read of a row is what its shadow holds. -/
def BurrowRow.reads (w : BurrowRow) (key mask : DWord) (valid : Bool) : Bool :=
  w.valid == valid && (w.key == key && w.mask == mask)

section BurrowRows

variable {s : State} (t : Time) (hcore : s.coreOn = true)
include hcore

/-- A read-back whose time has come compares its row with the shadow, unless the shadow's row is being rebuilt. -/
theorem burrowReadback_due
    (hdue : (s.vmap.burrow.urgent.isEmpty && !dueAgain s.vmap.burrow.readAt 10000 (s.at t).now) = false)
    (key mask : DWord) (valid : Bool) :
    let b := s.vmap.burrow
    let p := b.urgent.headD b.scanRow
    let turned := (s.at t).updBurrow (·.turned (s.at t).now)
    execBurrowReadback t key mask valid s = .next (if b.rebuilding.contains p then
        turned.updBurrow fun x => { x with rebuilding := x.rebuilding.filter (· != p) }
      else turned.rowRead p ((b.shadowRow p).reads key mask valid)) := by
  simp only [execBurrowReadback, State.at_coreOn, State.at_vmap, hcore, hdue, Bool.not_true, Bool.or_false,
    Bool.false_eq_true, if_false]
  rfl

section Scan

variable (hurgent : s.vmap.burrow.urgent = []) (hdue : dueAgain s.vmap.burrow.readAt 10000 (s.at t).now = true)
  (hkept : s.vmap.burrow.rebuilding.contains s.vmap.burrow.scanRow = false) {key mask : DWord} {valid : Bool}
include hurgent hdue hkept

theorem burrowReadback_scan : execBurrowReadback t key mask valid s =
    .next (((s.at t).updBurrow (·.scanned (s.at t).now)).rowRead s.vmap.burrow.scanRow
      ((s.vmap.burrow.shadowRow s.vmap.burrow.scanRow).reads key mask valid)) := by
  rw [burrowReadback_due t hcore (by rw [hdue]; exact Bool.and_false _)]
  simp only [hurgent, List.headD_nil, hkept, Bool.false_eq_true, if_false, State.updBurrow, State.at_vmap,
    BurrowState.turned_scan hurgent]

theorem burrowReadback_right (hsuspect : s.vmap.burrow.suspects.contains s.vmap.burrow.scanRow = false)
    (hreads : (s.vmap.burrow.shadowRow s.vmap.burrow.scanRow).reads key mask valid = true) :
    execBurrowReadback t key mask valid s =
      .next ((s.at t).updBurrow fun b => (b.scanned (s.at t).now).noteRead b.scanRow true) := by
  rw [burrowReadback_scan t hcore hurgent hdue hkept, hreads,
    State.rowRead_right (s := (s.at t).updBurrow (·.scanned (s.at t).now)) hsuspect]
  rfl

/-- A row of the scan that differs from its shadow retires. -/
theorem burrowReadback_wrong (hremoved : s.vmap.burrow.removed.contains s.vmap.burrow.scanRow = false)
    (hreads : (s.vmap.burrow.shadowRow s.vmap.burrow.scanRow).reads key mask valid = false) :
    ∃ u : State, execBurrowReadback t key mask valid s = .next u ∧
      u.vmap.burrow.removed = s.vmap.burrow.removed ++ [s.vmap.burrow.scanRow] := by
  have hread := burrowReadback_scan t hcore hurgent hdue hkept (key := key) (mask := mask) (valid := valid)
  rw [hreads, State.rowRead_wrong] at hread
  have hview := State.retireRow_scrubView (p := s.vmap.burrow.scanRow)
    (s := ((s.at t).updBurrow (·.scanned (s.at t).now)).updBurrow (·.noteRead s.vmap.burrow.scanRow false)) hremoved 1
  exact ⟨_, hread, congrArg Prod.fst hview⟩

end Scan

/-- An urgent row leaves the queue, and the scan stays where it is. -/
theorem burrowReadback_urgent {row : Nat} {rest : List Nat} (hurgent : s.vmap.burrow.urgent = row :: rest) (key mask : DWord)
    (valid : Bool) : ∃ u : State, execBurrowReadback t key mask valid s = .next u ∧
      u.vmap.burrow.scrubView.2 = (rest, s.vmap.burrow.scanRow) := by
  refine ⟨_, burrowReadback_due t hcore (by rw [hurgent]; rfl) key mask valid, ?_⟩
  split
  · exact BurrowState.turned_urgent hurgent _
  · exact (State.rowRead_turns _ _ _).trans (BurrowState.turned_urgent hurgent _)

/-- A probe before the last of its pass is counted, and noted where its match vector is not the shadow's. -/
theorem burrowProbe_next (rows : List Nat) (hservice : s.rcd.drey.outOfService = false)
    (hdue : dueAgain s.vmap.burrow.probeAt 50000 (s.at t).now = true)
    (hmore : s.vmap.burrow.probe + 1 < s.vmap.burrow.probeKeys.length) :
    let b := s.vmap.burrow
    let key := b.probeKeys.getD b.probe 0
    let diff := rowDiff (b.matchRows key none) rows
    execBurrowProbe t rows s = .next ((s.at t).updBurrow fun x => { x with
      probeAt := some (s.at t).now, mismatches := if diff.isEmpty then x.mismatches else x.mismatches ++ [(key, diff)]
      probe := b.probe + 1 }) := by
  simp only [execBurrowProbe, State.at_coreOn, State.at_vmap, State.at_rcd, hcore, hservice, hdue,
    if_neg (Nat.not_le.2 hmore), Bool.not_true, Bool.or_false, Bool.false_eq_true, if_false]
  rfl

theorem burrowDelete_on (row : Nat) : execBurrowDelete t row s = .next ((s.at t).updBurrow fun b => b.clear row) := by
  simp only [execBurrowDelete, State.at_coreOn, hcore, if_true]

theorem burrowConsolidate_on {b : BurrowState} (h : s.vmap.burrow.consolidate = b) :
    execBurrowConsolidate t s = .next ((s.at t).updBurrow fun _ => b) := by
  simp only [execBurrowConsolidate, State.at_coreOn, hcore, if_true, State.updBurrow, State.at_vmap, h]

theorem burrowResultParity_new {row : Nat} (hurgent : s.vmap.burrow.urgent.contains row = false)
    (hbad : s.vmap.burrow.badResult.contains row = false) : execBurrowResultParity t row s =
      .next ((s.at t).updBurrow fun x => { x with urgent := x.urgent ++ [row], badResult := x.badResult ++ [row] }) := by
  simp only [execBurrowResultParity, State.at_coreOn, hcore, if_true, State.updBurrow, State.at_vmap, hurgent, hbad,
    Bool.false_eq_true, if_false]

end BurrowRows

theorem BurrowState.clear_invalid {b : BurrowState} {row : Nat} {x : Nat × BurrowRow} (hx : x ∈ (b.clear row).rows)
    (hp : x.1 = b.physical row) : x.2.valid = false := by
  obtain ⟨y, -, rfl⟩ := List.mem_map.1 hx
  dsimp only at hp ⊢
  split
  · rfl
  · next hother =>
    rw [if_neg hother] at hp
    exact absurd hp hother

theorem BurrowRow.reads_same {w : BurrowRow} {key mask : DWord} {valid : Bool} (hvalid : w.valid = valid)
    (hkey : w.key = key) (hmask : w.mask = mask) : w.reads key mask valid = true := by
  simp only [BurrowRow.reads, hvalid, hkey, hmask, beq_self_eq_true, Bool.and_self]

theorem BurrowRow.reads_differs {w : BurrowRow} {key mask : DWord} {valid : Bool}
    (h : w.valid ≠ valid ∨ w.key ≠ key ∨ w.mask ≠ mask) : w.reads key mask valid = false := by
  rcases h with h | h | h <;> simp only [BurrowRow.reads, beq_eq_false_iff_ne.2 h, Bool.false_and, Bool.and_false]

/-- Settles O53, clause by clause: the cache's fill, write-back and parity errors, then Burrow's read-back, probe, deletion,
consolidation and result parity. -/
theorem cacheAndBurrowKeepTheirTables : Obligations.CacheAndBurrowKeepTheirTables := by
  intro t s s1 c b
  refine ⟨fun line hmiss => CacheState.fill_noMiss hmiss line,
    fun hserved => ⟨fun r => cacheFillComplete_miss (s := s) t hserved,
      fun x rest h => ⟨_, evictionWriteback_oldest (s := s) t hserved h, rfl, rfl, rfl, rfl⟩⟩,
    fun byte parity hright site => cacheParityError_right t site hright, fun byte parity hwrong => ⟨fun set way l hl => ?_,
    fun i x hx => ?_⟩, fun hdomain hrecovery => ?_⟩
  · exact (cacheParityError_wrong t _ hwrong).trans (congrArg _ (State.cacheParity_line (s := s1) hl))
  · exact (cacheParityError_wrong t _ hwrong).trans (congrArg _ (State.cacheParity_eviction (s := s1) hx))
  · have hcore := State.coreOn_of hdomain hrecovery
    refine ⟨fun key mask valid hurgent hdue hkept hsuspect => ?_, fun key mask valid row rest hurgent => ?_,
      fun rows hservice hdue hmore => ?_, fun row => ⟨burrowDelete_on t hcore row, fun x => BurrowState.clear_invalid⟩,
      fun _ hblock => ?_, fun p k hfew hblock => ?_, fun row => burrowResultParity_new t hcore⟩
    · refine ⟨fun hvalid hkey hmask => ?_, fun hdiffers hremoved => ?_⟩
      · exact ⟨_, burrowReadback_right t hcore hurgent hdue hkept hsuspect (BurrowRow.reads_same hvalid hkey hmask),
          rfl, rfl, rfl, rfl, rfl⟩
      · exact burrowReadback_wrong t hcore hurgent hdue hkept hremoved (BurrowRow.reads_differs hdiffers)
    · obtain ⟨u, hu, hview⟩ := burrowReadback_urgent t hcore hurgent key mask valid
      exact ⟨u, hu, congrArg Prod.fst hview, congrArg Prod.snd hview⟩
    · exact ⟨_, burrowProbe_next t hcore rows hservice hdue hmore, rfl, rfl, rfl, fun hsame =>
        if_pos (List.isEmpty_iff.2 hsame)⟩
    · exact burrowConsolidate_on t hcore (BurrowState.consolidate_noBlock hblock)
    · exact burrowConsolidate_on t hcore (BurrowState.consolidate_block hfew hblock)

end Sys2Proof.Machine

/-! PROOF. The stripe codec and crypto family (07_stripe_codec_crypto): the key slots, mounting and unmounting, tags, the
erasure decode and the retry ladder. -/

namespace Sys2Proof.Machine

/-! ### Keys (R279, R280) -/

/-- The slot that KEY_LOAD and KEY_PURGE name. -/
def keySlotOf (e : Entry) : Fin 16 := Fin.ofNat 16 ((parm e 0).toNat % 16)

theorem keySlotOf_eq (e : Entry) : Fin.ofNat 16 (fieldOf (parm e 0) 3 0) = keySlotOf e := by
  rw [fieldOf_zero]
  rfl

section Keys

variable {s : State} {f : Fetched} {c : Call}

/-- The key that a blob unwraps to under LK, where LK is usable. -/
def QuillState.unwrapped (q : QuillState) (blob : List Byte) : Option (List Byte) :=
  (if q.lkUsable then q.lk else none).bind fun lk => kwUnwrap lk blob

theorem QuillState.unwrapped_usable {q : QuillState} {lk : List Byte} (husable : q.lkUsable = true) (hlk : q.lk = some lk)
    (blob : List Byte) : q.unwrapped blob = kwUnwrap lk blob := by
  rw [QuillState.unwrapped, if_pos husable, hlk]
  rfl

/-- Nothing unwraps under an LK that is not usable, nor a blob that does not unwrap under the LK there is. -/
theorem QuillState.unwrapped_none {q : QuillState} {blob : List Byte}
    (h : q.lkUsable = false ∨ ∃ lk, q.lk = some lk ∧ kwUnwrap lk blob = none) : q.unwrapped blob = none := by
  cases husable : q.lkUsable with
  | false => simp only [QuillState.unwrapped, husable, Bool.false_eq_true, if_false, Option.bind_none]
  | true =>
    obtain hno | ⟨lk, hlk, hblob⟩ := h
    · exact absurd (husable.symm.trans hno) Bool.noConfusion
    · exact (QuillState.unwrapped_usable husable hlk blob).trans hblob

theorem State.ruleKeyLoad_loads {key : List Byte} (hd : c.dataErr = none) (hkey : s.quill.unwrapped c.payload = some key) :
    s.ruleKeyLoad f c =
      (s.updQuill fun q => { q with keys := Vec.upd q.keys (keySlotOf f.entry) fun _ => some key }).done f 0 := by
  rw [QuillState.unwrapped] at hkey
  simp only [State.ruleKeyLoad, withData, hd, hkey, keySlotOf_eq]

theorem State.ruleKeyLoad_fails (hd : c.dataErr = none) (hkey : s.quill.unwrapped c.payload = none) :
    s.ruleKeyLoad f c = .refuse .keyUnwrapFailed (BitVec.ofNat 64 (keySlotOf f.entry).val) := by
  rw [QuillState.unwrapped] at hkey
  simp only [State.ruleKeyLoad, withData, hd, hkey, keySlotOf_eq, Ruling.no]

/-- With no magazine mounted every slot may be purged (Table 4.10). -/
theorem State.ruleKeyPurge_unmounted (hm : s.mnt.mode = .none) :
    s.ruleKeyPurge f = (s.updQuill fun q => { q with
      keys := if (parm f.entry 0).getLsbD 31 then Vector.replicate 16 none
        else Vec.upd q.keys (keySlotOf f.entry) fun _ => none }).done f 0 := by
  have hmounted : s.mounted = false := by rw [State.mounted, hm]; rfl
  simp only [State.ruleKeyPurge, hmounted, keySlotOf_eq, Bool.false_and, Bool.false_eq_true, if_false]

end Keys

/-- Settles O24, from the two cases of KEY_LOAD, by whether its blob unwraps, and from KEY_PURGE with nothing mounted. -/
theorem keysAreLoadedAndPurged : Obligations.KeysAreLoadedAndPurged := by
  intro t c f rest s u slot
  refine ⟨fun ha hd => ⟨fun lk key husable hlk hkey => ?_, fun hnone => ?_⟩, fun ha hm => ⟨fun hone => ?_, fun hall => ?_⟩⟩
  · have hun := (QuillState.unwrapped_usable husable hlk c.payload).trans hkey
    exact congrArg _ (State.serve_apply ha (State.ruleKeyLoad_loads (s := u) hd hun))
  · exact congrArg _ (State.serve_refuse ha (State.ruleKeyLoad_fails (s := u) hd (QuillState.unwrapped_none hnone)))
  · have hrule := State.ruleKeyPurge_unmounted (s := u) (f := f) hm
    simp only [hone, Bool.false_eq_true, if_false] at hrule
    exact congrArg _ (State.serve_apply ha hrule)
  · have hrule := State.ruleKeyPurge_unmounted (s := u) (f := f) hm
    simp only [hall, if_true] at hrule
    exact congrArg _ (State.serve_apply ha hrule)

/-! ### MOUNT and UNMOUNT (R277, R281, R283, R285, R587) -/

/-- The slot of the CKEK that a MOUNT names. -/
def mountSlotOf (e : Entry) : Fin 16 := Fin.ofNat 16 ((parm e 0).toNat / 16 % 16)

theorem mountSlotOf_eq (e : Entry) : Fin.ofNat 16 (fieldOf (parm e 0) 7 4) = mountSlotOf e := rfl

section Mounting

variable {s : State} {f : Fetched} {c : Call} {m : MountScan} {r : Running} {band ckek key : List Byte}

/-- Once bring-up is over and the spindle is at record speed, MOUNT goes on to the magazine. -/
theorem State.ruleMountOp_ready (hup : s.cal.bringup = false) (hspin : s.spin.state = 3) :
    s.ruleMountOp f c = s.ruleMount c.scan (f.run .mount) := by
  simp only [State.ruleMountOp, State.bringupHolds, hup, hspin, Bool.false_and, ite_self, Bool.false_eq_true, ne_eq,
    not_true_eq_false, if_false]

theorem State.ruleMount_written (hblank : m.blank = false) (hband : m.band = some band) :
    s.ruleMount m r = s.ruleWritten m r band := by
  simp only [State.ruleMount, hblank, hband, Bool.false_eq_true, if_false]

section Written

variable (hformat : Word.fieldLE band 1 1 = 1) (hckek : s.quill.keys[mountSlotOf r.entry] = some ckek)
  (hkey : mediaKeyOf ckek band = some key)
include hformat hckek hkey

theorem State.ruleWritten_readOnly (hro : (parm r.entry 0).getLsbD 0 = true) :
    s.ruleWritten m r band = .apply (s.mountRO m r (mountSlotOf r.entry).val (keyBits (keyRecordsOf band))
      ((band.drop 4).take 16) key .success) := by
  simp only [State.ruleWritten, mountSlotOf_eq, hformat, hckek, Option.bind_some, hkey, hro, ne_eq, not_true_eq_false,
    if_false, if_true]
  rfl

theorem State.ruleWritten_readWrite (hrw : (parm r.entry 0).getLsbD 0 = false) (hsession : m.highestSession < 0xFFFFFFFF)
    (hroom : s.noRoom m = false) :
    s.ruleWritten m r band = .apply (s.mountRW m r (mountSlotOf r.entry).val (keyBits (keyRecordsOf band))
      ((band.drop 4).take 16) key) := by
  simp only [State.ruleWritten, mountSlotOf_eq, hformat, hckek, Option.bind_some, hkey, hrw, if_neg (Nat.ne_of_lt hsession),
    hroom, ne_eq, not_true_eq_false, Bool.false_eq_true, if_false]
  rfl

end Written

theorem State.runAt_mnt (s : State) (rpm : Nat) : (s.runAt rpm).mnt = s.mnt := by
  have hwant : (s.wantSpeed rpm).mnt = s.mnt := by
    rw [State.wantSpeed]
    split
    · rfl
    · split
      case h_3 | h_4 => split <;> rfl
      all_goals rfl
  rw [State.runAt]
  split <;> exact hwant

/-- A wake of the spindle leaves what is mounted. -/
theorem State.wakeSpindle_mnt (s : State) : s.wakeSpindle.mnt = s.mnt := by
  rw [State.wakeSpindle]
  split
  · exact s.runAt_mnt _
  · rfl

theorem State.ruleUnmount_readOnly (hm : s.mnt.mode = .readOnly) : s.ruleUnmount f =
    .apply ((s.startRunning (f.run .unmount)).unmountNow.endRunning (f.run .unmount) .success 0 []) := by
  have hrw : s.mountedRW = false := by rw [State.mountedRW, hm]; rfl
  simp only [State.ruleUnmount, State.beginUnmount, hrw, Bool.false_eq_true, if_false]

theorem State.ruleUnmount_readWrite (hm : s.mnt.mode = .readWrite) : s.ruleUnmount f =
    .apply (((s.wakeSpindle.startRunning (f.run .unmount)).setMagazine 6).sealIfDue.settleUnmount) := by
  have hrw : s.mountedRW = true := by rw [State.mountedRW, hm]; rfl
  have hwoken : s.wakeSpindle.mountedRW = true := by rw [State.mountedRW, State.wakeSpindle_mnt]; exact hrw
  simp only [State.ruleUnmount, State.beginUnmount, hrw, hwoken, if_true]

end Mounting

/-- Settles O25, from the rulings of MOUNT on a written magazine and of UNMOUNT by the mode of the mount. -/
theorem mountAndUnmount : Obligations.MountAndUnmount := by
  intro t c f rest s u ro slot
  refine ⟨fun band ckek key ha hup hspin hblank hband hformat hckek hkey => ?_, fun ha hm => ?_, fun ha hm => ?_⟩
  · intro keys identity
    have hwritten : u.ruleMountOp f c = u.ruleWritten c.scan (f.run .mount) band :=
      (State.ruleMountOp_ready (s := u) hup hspin).trans (State.ruleMount_written hblank hband)
    refine ⟨fun hro => ?_, fun hrw hsession hroom => ?_⟩
    · exact congrArg _ (State.serve_apply ha (hwritten.trans (State.ruleWritten_readOnly (s := u) hformat hckek hkey hro)))
    · exact congrArg _ (State.serve_apply ha
        (hwritten.trans (State.ruleWritten_readWrite (s := u) hformat hckek hkey hrw hsession hroom)))
  · exact congrArg _ (State.serve_apply ha (State.ruleUnmount_readOnly (s := u) hm))
  · exact congrArg _ (State.serve_apply ha (State.ruleUnmount_readWrite (s := u) hm))

/-! ### Tags (R268, R291, R292) -/

/-- The sector at a PSA leaves decrypt holding. -/
def State.unhold (s : State) (psa : Word) : State :=
  s.updRd fun r => { r with holding := r.holding.filter fun x => x.1 != psa }

/-- The sector at a PSA counts as rebuilt no more. -/
def State.unrebuild (s : State) (psa : Word) : State :=
  s.updRd fun r => { r with rebuilt := r.rebuilt.filter (· != psa) }

section Tags

variable {s : State} {psa p : Word} {hdr ct key : List Byte} (t : Time)
  (hheld : s.rd.holding.find? (fun x => x.1 == psa) = some (p, hdr, ct)) (hmedia : s.mnt.mediaKey = some key)
include hheld hmedia

theorem exec_sectorTagCheck_good {pt : List Byte} (htag : openSector key hdr ct = some pt) :
    exec (.sectorTagCheck t psa) s =
      .next ((((s.at t).unhold psa).unrebuild psa).deliver (Word.fieldLE hdr 0 4) pt) := by
  show execSectorTagCheck t psa s = _
  simp only [execSectorTagCheck, State.at_rd, State.at_mnt, hheld, hmedia, htag]
  rfl

/-- A sector as read whose tag fails is an erasure of its stripe. -/
theorem exec_sectorTagCheck_read (htag : openSector key hdr ct = none) (hread : s.rd.rebuilt.contains psa = false) :
    exec (.sectorTagCheck t psa) s = .next (((s.at t).unhold psa).setPart psa .badTag) := by
  show execSectorTagCheck t psa s = _
  simp only [execSectorTagCheck, State.at_rd, State.at_mnt, State.updRd_rd, hheld, hmedia, htag, hread,
    Bool.false_eq_true, if_false]
  rfl

/-- A rebuilt sector whose tag fails is lost. -/
theorem exec_sectorTagCheck_rebuilt (htag : openSector key hdr ct = none) (hrebuilt : s.rd.rebuilt.contains psa = true) :
    exec (.sectorTagCheck t psa) s =
      .next ((((s.at t).unhold psa).unrebuild psa).authFail (Word.fieldLE hdr 0 4) psa) := by
  show execSectorTagCheck t psa s = _
  simp only [execSectorTagCheck, State.at_rd, State.at_mnt, State.updRd_rd, hheld, hmedia, htag, hrebuilt, if_true]
  rfl

end Tags

/-! ### The erasure decode and the retry ladder (R265, R365, R368) -/

theorem exec_erasureDecode_complete {s : State} {seq : Nat} {a : Assembly} (t : Time)
    (hfind : s.rd.assembly.find? (fun x => x.seq == seq) = some a) (hcomplete : s.stripeComplete a = true)
    (hladder : a.ladder = false) : exec (.erasureDecode t seq) s = .next ((s.at t).eraseDecode a) := by
  have hdecodes : ((s.at t).stripeComplete a && !a.ladder) = true := by
    rw [hladder, Bool.not_false, Bool.and_true]
    exact hcomplete
  show execErasureDecode t seq s = _
  simp only [execErasureDecode, State.at_rd, hfind, if_pos hdecodes]

/-- A step of a head's ladder up to its verdict: the sectors that the step recovered, then the erasure decode of the
stripes on the ladder. -/
def State.reread (s : State) (h : Head) (got : List (Word × List Byte × List Byte)) : State :=
  ((s.recovered got).rd.assembly.filter fun a => a.head == h && a.ladder).foldl State.eraseDecode (s.recovered got)

/-- The ladder of a head ends where nothing is missing, and after its fifth step; else it goes to its next step. -/
theorem exec_retryLadderStep_runs {s : State} {h : Head} (t : Time) (got : List (Word × List Byte × List Byte))
    (hruns : s.ladder h ≠ 0) (hfree : (s.at t).mediumFree = true) :
    exec (.retryLadderStep t h got) s =
      .next (let v := (s.at t).reread h got
        if v.ladderLeft h = [] then v.setLadder h 0
        else if s.ladder h < 5 then v.setLadder h (s.ladder h + 1)
        else (v.ladderLeft h).foldl (fun w x => w.log 0x0404 [arg x.1, x.2, 5])
          ((v.setLadder h 0).failReads ((v.ladderLeft h).map (·.1)) .mediaUnrecovered)) := by
  have hladder : (s.at t).ladder h = s.ladder h := by cases h <;> rfl
  have hsteps : ¬ (decide (s.ladder h = 0) || !(s.at t).mediumFree) = true := by
    simp [hruns, hfree]
  show execRetryLadderStep t h got s = _
  simp only [execRetryLadderStep, hladder, if_neg hsteps, List.isEmpty_iff]
  rfl

/-- Settles O41, from the verdicts of SECTOR_TAG_CHECK, the decode of a complete stripe and a step of a ladder that runs. -/
theorem stripesAreRecovered : Obligations.StripesAreRecovered := by
  intro t s
  refine ⟨fun psa p hdr ct key hheld hmedia => ⟨fun pt htag => ?_, fun htag hread => ?_, fun htag hrebuilt => ?_⟩,
    fun seq a hfind hcomplete hladder => ?_, fun h got hruns hfree => ?_⟩
  · exact exec_sectorTagCheck_good t hheld hmedia htag
  · exact exec_sectorTagCheck_read t hheld hmedia htag hread
  · exact exec_sectorTagCheck_rebuilt t hheld hmedia htag hrebuilt
  · exact exec_erasureDecode_complete t hfind hcomplete hladder
  · intro u v
    have hstep := exec_retryLadderStep_runs t got hruns hfree
    refine ⟨fun hall => ?_, fun hmissing hmore => ?_, fun hmissing hlast => ?_⟩
    · exact hstep.trans (congrArg _ (if_pos hall))
    · exact hstep.trans (congrArg _ ((if_neg hmissing).trans (if_pos hmore)))
    · exact hstep.trans (congrArg _ ((if_neg hmissing).trans (if_neg (Nat.not_lt.2 hlast))))

end Sys2Proof.Machine

/-! PROOF. The write lanes family (08_write_lanes): the laser safety chain as it opens, lasers that come back, the door and
the magazine, and the frames of the laser driver bus. -/

namespace Sys2Proof.Machine

/-! ### Views that posting does not touch

Completions, events, log records and the stops of calibration steps change the host link, the pools of Drey, Vole and
calibration, and nothing else. So they keep every view of the state that reads none of these four. -/

/-- A view of the state that reads nothing of the host link, the pools of Drey, Vole and calibration. -/
structure ReadsNoPosting {β : Type} (g : State → β) : Prop where
  host : ∀ (s : State) (x : HostLink), g { s with host := x } = g s
  drey : ∀ (s : State) (x : DreyPools), g { s with rcd := { s.rcd with drey := x } } = g s
  vole : ∀ (s : State) (x : VoleState), g { s with vole := x } = g s
  cal : ∀ (s : State) (x : Calib), g { s with cal := x } = g s

namespace ReadsNoPosting

variable {β : Type} {g : State → β} (hg : ReadsNoPosting g) (s : State)
include hg

theorem updHost (f : HostLink → HostLink) : g (s.updHost f) = g s := hg.host s _
theorem updDrey (f : DreyPools → DreyPools) : g (s.updDrey f) = g s := hg.drey s _
theorem updCal (f : Calib → Calib) : g (s.updCal f) = g s := hg.cal s _
theorem emit (x : Sent) : g (s.emit x) = g s := hg.host s _
theorem touchLink : g s.touchLink = g s := hg.host s _
theorem updFunc (fn : FnId) (f : Func → Func) : g (s.updFunc fn f) = g s := hg.host s _
theorem updQueue (fn : FnId) (q : QId) (f : QueuePair → QueuePair) : g (s.updQueue fn q f) = g s := hg.host s _
theorem setHalted (fn : FnId) (q : QId) : g (s.setHalted fn q) = g s := hg.host s _

theorem logError (fn : FnId) (q i : BitVec 16) (op : BitVec 8) (halted : Bool) (st : Status) (cid : BitVec 16)
    (v : DWord) : g (s.logError fn q i op halted st cid v) = g s := hg.host s _

theorem log (code : BitVec 16) (args : List Word) : g (s.log code args) = g s := by
  simp only [State.log]
  split
  · exact hg.vole s _
  split
  · rw [State.coalesce]
    split
    · rfl
    · exact hg.vole s _
  split
  · exact hg.vole s _
  · exact hg.vole s _

theorem raise (n : Nat) : g (s.raise n) = g s := by
  simp [State.raise, State.raiseIn, State.msix, apply_ite g, hg.emit, hg.updFunc]

theorem post (fn : FnId) (q : QId) (c : Completion) : g (s.post fn q c) = g s := by
  simp [State.post, State.writeCompletion, State.msix, apply_ite g, hg.emit, hg.touchLink, hg.updQueue]

theorem freeSlot (slot : Nat) : g (s.freeSlot slot) = g s := by
  simp [State.freeSlot, State.watchOccupancy, State.rateDeficit, apply_ite g, hg.updDrey, hg.raise]

theorem freeAlloc (fn : FnId) (a : Alloc) : g (s.freeAlloc fn a) = g s := by
  cases a with
  | none => rfl
  | frame slot => exact hg.freeSlot s slot
  | review own shared => exact hg.drey s _
  | side u => exact hg.drey s _

theorem sendData (fn : FnId) (e : Entry) (d : List Byte) : g (s.sendData fn e d) = g s :=
  foldl_keeps g _ (fun u _ => hg.emit u _) _ s

theorem haltQueue (fn : FnId) (q : QId) (i : Nat) : g (s.haltQueue fn q i) = g s := by
  have hdrop : g ((s.dropUnstarted fn q).dropWaiters fn q) = g s := by
    rw [State.dropWaiters, hg.updHost, State.dropUnstarted, hg.updQueue, hg.touchLink, hg.updHost]
    exact foldl_keeps g _ (fun u _ => hg.freeAlloc u fn _) _ s
  exact (foldl_keeps g _ (fun u cid => hg.post u fn q _) _ _).trans hdrop

theorem complete (org : Origin) (e : Entry) (st : Status) (v : DWord) (d : List Byte) :
    g (s.complete org e st v d) = g s := by
  have hport (u : State) (x : Sent) (y : VoleState) : g { u.emit x with vole := y } = g u :=
    (hg.vole (u.emit x) y).trans (hg.emit u x)
  simp only [State.complete]
  split
  · rfl
  split
  · refine (hport _ _ _).trans ?_
    split
    · exact hg.logError s _ _ _ _ _ _ _ _
    · rfl
  · simp [apply_ite g, hg.logError, hg.setHalted, hg.post, hg.haltQueue, hg.sendData]

theorem endRunning (r : Running) (st : Status) (v : DWord) (d : List Byte) : g (s.endRunning r st v d) = g s := by
  simp [State.endRunning, State.finish, State.dropRunning, hg.freeAlloc, hg.complete, hg.updHost, hg.touchLink]

theorem endAll (p : Running → Bool) (st : Status) (v : DWord) : g (s.endAll p st v) = g s :=
  foldl_keeps g _ (fun u r => hg.endRunning u r st v []) _ s

theorem setUnit (step : Nat) (h : Head) (b : Beam) (st : StepStatus) : g (s.setUnit step h b st) = g s := by
  simp only [State.setUnit]
  split
  · rfl
  · cases h <;> exact hg.cal s _
  · cases h <;> exact hg.cal s _
  · exact hg.cal s _

theorem writeBank : g s.writeBank = g s :=
  (hg.cal { s with vole := s.writeBank.vole } s.writeBank.cal).trans (hg.vole s _)

theorem followBringup : g s.followBringup = g s := by
  simp [State.followBringup, apply_ite g, hg.writeBank, hg.raise, hg.updCal]

theorem abortSteps (mask : Nat) (p : Nat → Head → Bool) : g (s.abortSteps mask p) = g s := by
  refine foldl_keeps g _ (fun u n => foldl_keeps g _ (fun v x => ?_) _ u) _ s
  split
  · exact hg.setUnit v _ _ _ _
  · rfl

theorem stopCalibrate (mask : Nat) : g (s.stopCalibrate mask) = g s :=
  (hg.followBringup _).trans (hg.endAll s _ _ _)

end ReadsNoPosting

/-! ### What posting and lost frames leave of the laser chain, the lanes and the loop slots -/

/-- The pins, the heads, their beams, their sectors and the loop slots. -/
@[ext] structure LaserView where
  pins : PinState
  hd : Head → HeadState
  beam : Head → Beam → BeamState
  sectors : Head → List Sector
  slot : LoopId → LoopSlot

def State.laserView (s : State) : LaserView :=
  { pins := s.pins, hd := s.hd, beam := s.beam, sectors := fun h => (s.wh h).sectors, slot := s.slot }

theorem laserView_readsNoPosting : ReadsNoPosting State.laserView where
  host _ _ := rfl
  drey _ _ := rfl
  vole _ _ := rfl
  cal _ _ := rfl

section KeepLaserView

variable (s : State)

@[simp] theorem State.loseFrames_laserView (p : Frame → Bool) : (s.loseFrames p).laserView = s.laserView := by
  refine foldl_keeps State.laserView _ (fun u f => ?_) _ s
  have hforget (v : State) : ((v.forgetFrame f).truncateClip f.clip f.number).laserView = v.laserView := by
    refine LaserView.ext rfl rfl rfl (funext fun h => ?_) rfl
    cases h <;> rfl
  rw [hforget, State.dropFrame, laserView_readsNoPosting.freeSlot]
  rfl

@[simp] theorem State.queueOpenRecord_laserView : s.queueOpenRecord.laserView = s.laserView := by
  simp only [State.queueOpenRecord]
  split
  · rfl
  split <;> rfl

@[simp] theorem State.queueCloseRecord_laserView : s.queueCloseRecord.laserView = s.laserView := by
  simp only [State.queueCloseRecord]
  split
  · rfl
  · exact State.queueOpenRecord_laserView _

@[simp] theorem State.queueAllClose_laserView (n : Nat) : (s.queueAllClose n).laserView = s.laserView := by
  induction n generalizing s with
  | zero => rfl
  | succ n ih => simp [State.queueAllClose, apply_ite State.laserView, ih]

@[simp] theorem State.closeClip_laserView (reason : Nat) : (s.closeClip reason).laserView = s.laserView := by
  have hqueued : (if s.rcd.clip.any (·.openQueued) then s else s.queueAllClose s.rcd.closing.length).laserView =
      s.laserView := by
    simp [apply_ite State.laserView]
  simp only [State.closeClip]
  split
  · exact hqueued
  · exact hqueued

@[simp] theorem State.checkGuarantee_laserView : s.checkGuarantee.laserView = s.laserView := by
  simp [State.checkGuarantee, State.dropUnencodable, apply_ite State.laserView]

theorem State.stopIfRecording_laserView : s.stopIfRecording.laserView = s.laserView := by
  rw [State.stopIfRecording]
  split
  · refine LaserView.ext rfl rfl rfl (funext fun h => ?_) rfl
    cases h <;> rfl
  · rfl

end KeepLaserView

/-! ### Dark lanes stay dark

A trip clears SERVO_READY and may lock the spindle out. Neither touches a pin or a head, and a lane that is OFF stays OFF
(R315, R318, R392). -/

/-- A sector in flight that has no cause to fail yet fails with this one (R315, R318). -/
def Sector.doom (cause : Nat) (x : Sector) : Sector :=
  if x.inFlight && x.doomed = 0 then { x with doomed := cause } else x

/-- Every lane of a head is OFF, and no sector in flight there is left without a cause to fail (R315). -/
structure State.LanesOff (s : State) (h : Head) : Prop where
  level : ∀ b, (s.beam h b).level = .off
  doomed : ∀ x ∈ (s.wh h).sectors, x.inFlight = true → x.doomed ≠ 0

theorem Sector.doomed_doom {c : Nat} (hc : c ≠ 0) {x : Sector} (hf : (x.doom c).inFlight = true) :
    (x.doom c).doomed ≠ 0 := by
  by_cases h : x.inFlight && x.doomed = 0
  · rw [Sector.doom, if_pos h]
    exact hc
  · rw [Sector.doom, if_neg h] at hf ⊢
    simpa [hf] using h

@[simp] theorem State.beam_updBeams_same (s : State) (h : Head) (b : Beam) (f : BeamState → BeamState) :
    (s.updBeams h f).beam h b = f (s.beam h b) := by
  cases h <;> simp [State.beam, State.beams, State.updBeams]

theorem State.beam_updBeams_ne (s : State) (f : BeamState → BeamState) :
    ∀ {g h : Head}, g ≠ h → (s.updBeams h f).beam g = s.beam g
  | .a, .b, _ => rfl
  | .b, .a, _ => rfl
  | .a, .a, e => absurd rfl e
  | .b, .b, e => absurd rfl e

theorem State.sectors_updBeams (s : State) (g h : Head) (f : BeamState → BeamState) :
    ((s.updBeams h f).wh g).sectors = (s.wh g).sectors := by
  cases g <;> cases h <;> rfl

@[simp] theorem State.beam_doomFlight (s : State) (h : Head) (c : Nat) : (s.doomFlight h c).beam = s.beam := by
  cases h <;> rfl

theorem State.sectors_doomFlight_same (s : State) (h : Head) (c : Nat) :
    ((s.doomFlight h c).wh h).sectors = (s.wh h).sectors.map (Sector.doom c) := by
  cases h <;> rfl

theorem State.sectors_doomFlight_ne (s : State) (c : Nat) :
    ∀ {g h : Head}, g ≠ h → ((s.doomFlight h c).wh g).sectors = (s.wh g).sectors
  | .a, .b, _ => rfl
  | .b, .a, _ => rfl
  | .a, .a, e => absurd rfl e
  | .b, .b, e => absurd rfl e

theorem State.doomed_doomFlight (s : State) (h : Head) {c : Nat} (hc : c ≠ 0) :
    ∀ x ∈ ((s.doomFlight h c).wh h).sectors, x.inFlight = true → x.doomed ≠ 0 := by
  intro x hx hf
  rw [State.sectors_doomFlight_same] at hx
  obtain ⟨y, -, rfl⟩ := List.mem_map.1 hx
  exact Sector.doomed_doom hc hf

/-- What dims the lanes of a head and gives its sectors in flight a cause leaves dark lanes dark, on either head. -/
theorem State.LanesOff.dim {s : State} {g : Head} (hs : s.LanesOff g) (h : Head) {c : Nat} (hc : c ≠ 0)
    {f : BeamState → BeamState} (hf : ∀ x, x.level = .off → (f x).level = .off) :
    ((s.doomFlight h c).updBeams h f).LanesOff g where
  level b := by
    by_cases e : g = h
    · subst e
      rw [State.beam_updBeams_same, State.beam_doomFlight]
      exact hf _ (hs.level b)
    · rw [State.beam_updBeams_ne _ _ e, State.beam_doomFlight]
      exact hs.level b
  doomed := by
    rw [State.sectors_updBeams]
    by_cases e : g = h
    · subst e
      exact s.doomed_doomFlight g hc
    · rw [State.sectors_doomFlight_ne _ _ e]
      exact hs.doomed

/-- SERVO_READY of a head falls (R392). -/
def State.unready (s : State) (h : Head) : State :=
  match h with
  | .a => s.updLoop fun e => { e with readyA := false }
  | .b => s.updLoop fun e => { e with readyB := false }

/-- A lane that is not OFF falls to READ (R318). -/
def BeamState.fallToRead (b : BeamState) : BeamState := { b with level := if b.level = .off then .off else .read }

/-- Clearing SERVO_READY dims the lanes, gives the sectors in flight cause 5, and stops the steps that need it. -/
theorem State.clearReady_eq (s : State) (h : Head) : s.clearReady h =
    if s.servoReady h then
      (((((s.unready h).doomFlight h 5).updBeams h BeamState.fallToRead).abortSteps (2 ^ 6)
        fun _ k => k == h).stopCalibrate (2 ^ 6))
    else ((s.unready h).doomFlight h 5).updBeams h BeamState.fallToRead := by
  cases h <;> rfl

/-- A state that keeps the pins and heads of an earlier one, and every head's lanes dark that were. -/
structure State.KeepsDark (s u : State) : Prop where
  pins : u.pins = s.pins
  hd : u.hd = s.hd
  lanes : ∀ h, s.LanesOff h → u.LanesOff h

/-- One that keeps the loop slots as well. -/
structure State.KeepsChain (s u : State) : Prop extends s.KeepsDark u where
  slot : u.slot = s.slot

theorem State.KeepsDark.trans {s u v : State} (h : s.KeepsDark u) (k : u.KeepsDark v) : s.KeepsDark v where
  pins := k.pins.trans h.pins
  hd := k.hd.trans h.hd
  lanes g hg := k.lanes g (h.lanes g hg)

namespace State.KeepsChain

variable {s u v : State}

theorem trans (h : s.KeepsChain u) (k : u.KeepsChain v) : s.KeepsChain v where
  toKeepsDark := h.toKeepsDark.trans k.toKeepsDark
  slot := k.slot.trans h.slot

theorem of_laserView (h : u.laserView = s.laserView) : s.KeepsChain u where
  pins := congrArg LaserView.pins h
  hd := congrArg LaserView.hd h
  slot := congrArg LaserView.slot h
  lanes g hg :=
    { level := by
        rw [show u.beam = s.beam from congrArg LaserView.beam h]
        exact hg.level
      doomed := by
        rw [show (u.wh g).sectors = (s.wh g).sectors from congrFun (congrArg LaserView.sectors h) g]
        exact hg.doomed }

theorem updSpin (s : State) (f : Spindle → Spindle) : s.KeepsChain (s.updSpin f) := of_laserView rfl

theorem updQuill (s : State) (f : QuillState → QuillState) : s.KeepsChain (s.updQuill f) := of_laserView rfl

theorem gatesOff (s : State) : s.KeepsChain s.gatesOff := updSpin s _

theorem log (s : State) (code : BitVec 16) (args : List Word) : s.KeepsChain (s.log code args) :=
  of_laserView (laserView_readsNoPosting.log s code args)

/-- The steps and the CALIBRATE commands that lose a precondition stop (R552, R561). -/
theorem stopSteps (s : State) (mask : Nat) (p : Nat → Head → Bool) :
    s.KeepsChain ((s.abortSteps mask p).stopCalibrate mask) :=
  of_laserView ((laserView_readsNoPosting.stopCalibrate _ _).trans (laserView_readsNoPosting.abortSteps s _ _))

theorem endAll (s : State) (p : Running → Bool) (st : Status) (v : DWord) : s.KeepsChain (s.endAll p st v) :=
  of_laserView (laserView_readsNoPosting.endAll s p st v)

theorem checkGuarantee (s : State) : s.KeepsChain s.checkGuarantee := of_laserView s.checkGuarantee_laserView

theorem stopIfRecording (s : State) : s.KeepsChain s.stopIfRecording := of_laserView s.stopIfRecording_laserView

theorem clearReady (s : State) (h : Head) : s.KeepsChain (s.clearReady h) := by
  have hdim : s.KeepsChain (((s.unready h).doomFlight h 5).updBeams h BeamState.fallToRead) :=
    { pins := by cases h <;> rfl
      hd := by cases h <;> rfl
      slot := by cases h <;> rfl
      lanes := fun g hg =>
        have hunready : (s.unready h).LanesOff g := by cases h <;> exact ⟨hg.level, hg.doomed⟩
        hunready.dim h (by decide) fun _ hx => if_pos hx }
  rw [State.clearReady_eq]
  split
  · exact hdim.trans (stopSteps _ _ _)
  · exact hdim

theorem lockOut (s : State) : s.KeepsChain s.lockOut :=
  ((gatesOff s).trans (updSpin _ _)).trans ((endAll _ _ _ _).trans (checkGuarantee _))

theorem spindleDrop (s : State) : s.KeepsChain s.spindleDrop := by
  have hready : s.KeepsChain ((s.gatesOff.clearReady .a).clearReady .b) :=
    ((gatesOff s).trans (clearReady _ _)).trans (clearReady _ _)
  refine (hready.trans ?_).trans ((stopSteps _ _ _).trans (checkGuarantee _))
  split
  · exact lockOut _
  · exact updSpin _ _

theorem afterTrip (s : State) (i : LoopId) (cause : Nat) : s.KeepsChain (s.afterTrip i cause) := by
  have hlog (c : Prop) [Decidable c] (code : BitVec 16) (args : List Word) :
      s.KeepsChain (if c then s else s.log code args) := by
    split
    · exact of_laserView rfl
    · exact log s code args
  simp only [State.afterTrip]
  cases slotHead i with
  | some h => exact (hlog _ _ _).trans (clearReady _ _)
  | none =>
    by_cases hi : i = 8
    · simp only [if_pos hi]
      exact (hlog _ _ _).trans ((updSpin _ _).trans (spindleDrop _))
    · simp only [if_neg hi]
      exact hlog _ _ _

end State.KeepsChain

namespace State.KeepsDark

theorem updSlot (s : State) (i : LoopId) (f : LoopSlot → LoopSlot) : s.KeepsDark (s.updSlot i f) where
  pins := rfl
  hd := rfl
  lanes _ hg := ⟨hg.level, hg.doomed⟩

theorem tripSlot (s : State) (cause : Nat) (i : LoopId) : s.KeepsDark (s.tripSlot cause i) := by
  rw [State.tripSlot]
  split
  · exact (updSlot s i _).trans (KeepsChain.afterTrip _ _ _).toKeepsDark
  · exact ⟨rfl, rfl, fun _ hg => hg⟩

theorem tripRoles (s : State) (h : Head) (roles : List Nat) (cause : Nat) : s.KeepsDark (s.tripRoles h roles cause) :=
  foldl_inv s.KeepsDark _ (fun _ r hu => hu.trans (tripSlot _ cause (headSlot h r))) _ s ⟨rfl, rfl, fun _ hg => hg⟩

end State.KeepsDark

/-! ### The loop slots after trips (Table 10.3) -/

/-- A slot as a trip with this cause leaves it: only a slot in RAMP, RUN or HOLD trips. -/
def LoopSlot.tripped (cause : Nat) (k : LoopSlot) : LoopSlot := if k.active then k.trip cause else k

theorem LoopSlot.tripped_active {cause : Nat} {k : LoopSlot} (ha : k.active = true) : k.tripped cause = k.trip cause :=
  if_pos ha

theorem LoopSlot.tripped_inactive {cause : Nat} {k : LoopSlot} (ha : k.active = false) : k.tripped cause = k :=
  if_neg (Bool.eq_false_iff.1 ha)

section TrippedSlots

variable (s : State)

theorem State.slot_tripSlot (cause : Nat) (i j : LoopId) :
    (s.tripSlot cause i).slot j = if j = i then (s.slot j).tripped cause else s.slot j := by
  rw [State.tripSlot]
  by_cases ha : (s.slot i).active = true
  · rw [if_pos ha, (State.KeepsChain.afterTrip _ _ _).slot]
    split
    · next e => rw [e, State.slot_updSlot_same, LoopSlot.tripped_active ha]
    · next e => exact State.slot_updSlot_ne s e _
  · rw [if_neg ha]
    split
    · next e => rw [e, LoopSlot.tripped_inactive (Bool.eq_false_iff.2 ha)]
    · rfl

theorem LoopSlot.tripped_tripped (cause : Nat) (k : LoopSlot) : (k.tripped cause).tripped cause = k.tripped cause := by
  by_cases ha : k.active = true
  · rw [LoopSlot.tripped_active ha, LoopSlot.tripped_inactive rfl]
  · rw [LoopSlot.tripped_inactive (Bool.eq_false_iff.2 ha), LoopSlot.tripped_inactive (Bool.eq_false_iff.2 ha)]

theorem State.slot_tripRoles (h : Head) (roles : List Nat) (cause : Nat) (j : LoopId) :
    (s.tripRoles h roles cause).slot j =
      if j ∈ roles.map (headSlot h) then (s.slot j).tripped cause else s.slot j := by
  induction roles generalizing s with
  | nil => rfl
  | cons r rs ih =>
    have hstep : s.tripRoles h (r :: rs) cause = (s.tripSlot cause (headSlot h r)).tripRoles h rs cause := rfl
    rw [hstep, ih, State.slot_tripSlot]
    by_cases hr : j = headSlot h r <;> by_cases hrs : j ∈ rs.map (headSlot h) <;>
      simp [hr, hrs, LoopSlot.tripped_tripped]

theorem headSlot_injective {h g : Head} {r x : Nat} (hr : r < 4) (hx : x < 4) (e : headSlot g x = headSlot h r) :
    g = h ∧ x = r := by
  have hv : (slotBase g + x) % 16 = (slotBase h + r) % 16 := congrArg Fin.val e
  cases g <;> cases h <;> simp only [slotBase] at hv
  · exact ⟨rfl, by omega⟩
  · omega
  · omega
  · exact ⟨rfl, by omega⟩

theorem headSlot_mem_map {h g : Head} {r : Nat} {roles : List Nat} (hr : r < 4) (hroles : ∀ x ∈ roles, x < 4) :
    headSlot h r ∈ roles.map (headSlot g) ↔ g = h ∧ r ∈ roles := by
  constructor
  · intro hm
    obtain ⟨x, hx, e⟩ := List.mem_map.1 hm
    obtain ⟨rfl, rfl⟩ := headSlot_injective hr (hroles x hx) e
    exact ⟨rfl, hx⟩
  · rintro ⟨rfl, hm⟩
    exact List.mem_map_of_mem hm

end TrippedSlots

/-! ### The chain of one head opens (Table 8.5) -/

/-- A head whose chain opens: firmware's enable is clear, and a captured focus is to be captured again (R317, R701). -/
def HeadState.cut (d : HeadState) : HeadState :=
  { d with laserEnable := false, needRecapture := d.needRecapture || d.captured, captured := false, decoding := false
           closing := false }

/-- A head is dark: firmware's enable is clear, no focus is captured there, and its lanes are dark. -/
structure State.Dark (s : State) (h : Head) : Prop where
  enable : (s.hd h).laserEnable = false
  captured : (s.hd h).captured = false
  lanes : s.LanesOff h

@[simp] theorem State.hd_updHd_same (s : State) (h : Head) (f : HeadState → HeadState) :
    (s.updHd h f).hd h = f (s.hd h) := by
  cases h <;> rfl

theorem State.hd_updHd_ne (s : State) (f : HeadState → HeadState) :
    ∀ {g h : Head}, g ≠ h → (s.updHd h f).hd g = s.hd g
  | .a, .b, _ => rfl
  | .b, .a, _ => rfl
  | .a, .a, e => absurd rfl e
  | .b, .b, e => absurd rfl e

theorem State.LanesOff.updHd {s : State} {g : Head} (hs : s.LanesOff g) (h : Head) (f : HeadState → HeadState) :
    (s.updHd h f).LanesOff g := by
  cases h <;> exact ⟨hs.level, hs.doomed⟩

theorem State.KeepsDark.dark {s u : State} (k : s.KeepsDark u) {h : Head} (hs : s.Dark h) : u.Dark h where
  enable := by rw [k.hd]; exact hs.enable
  captured := by rw [k.hd]; exact hs.captured
  lanes := k.lanes h hs.lanes

section CutLasers

variable (s : State) (h : Head)

theorem State.cutLasers_eq : s.cutLasers h =
    ((s.doomFlight h 4).updBeams h fun b => { b with level := .off }).updHd h HeadState.cut := rfl

@[simp] theorem State.cutLasers_pins : (s.cutLasers h).pins = s.pins := by
  rw [State.cutLasers_eq, State.updHd_pins]
  rfl

@[simp] theorem State.cutLasers_slot : (s.cutLasers h).slot = s.slot := by
  cases h <;> rfl

@[simp] theorem State.cutLasers_hd_same : (s.cutLasers h).hd h = (s.hd h).cut := by
  cases h <;> rfl

theorem State.cutLasers_hd_ne {g h : Head} (e : g ≠ h) : (s.cutLasers h).hd g = s.hd g := by
  rw [State.cutLasers_eq, State.hd_updHd_ne _ _ e]
  rfl

theorem State.cutLasers_dark : (s.cutLasers h).Dark h where
  enable := by rw [State.cutLasers_hd_same]; rfl
  captured := by rw [State.cutLasers_hd_same]; rfl
  lanes := by
    rw [State.cutLasers_eq]
    refine State.LanesOff.updHd ⟨fun b => ?_, ?_⟩ h _
    · rw [State.beam_updBeams_same]
    · rw [State.sectors_updBeams]
      exact s.doomed_doomFlight h (by decide)

variable {s h}

theorem State.Dark.cutLasers {g : Head} (hs : s.Dark g) (h : Head) : (s.cutLasers h).Dark g := by
  by_cases e : g = h
  · subst e
    exact s.cutLasers_dark g
  · exact { enable := by rw [State.cutLasers_hd_ne s e]; exact hs.enable
            captured := by rw [State.cutLasers_hd_ne s e]; exact hs.captured
            lanes := (hs.lanes.dim h (by decide) fun _ _ => rfl).updHd h _ }

/-- LD_EN is low and every lane drives OFF on a dark head (R313, R314). -/
theorem State.Dark.ldEn (hs : s.Dark h) : s.ldEn h = false := by
  simp [State.ldEn, hs.enable]

theorem State.Dark.levelOf (hs : s.Dark h) (b : Beam) : s.levelOf h b = .off := by
  simp [State.levelOf, hs.ldEn]

end CutLasers

/-! ### Both chains open by a pin (R315, R401) -/

section OpenChains

variable (s : State) (mask : Nat)

/-- What follows the cut of both chains keeps them dark. -/
theorem State.openChains_keepsDark :
    ((((s.abortSteps mask fun _ _ => true).stopCalibrate mask).cutLasers .a).cutLasers .b).KeepsDark (s.openChains mask) :=
  ((State.KeepsDark.tripRoles _ _ _ _).trans (State.KeepsDark.tripRoles _ _ _ _)).trans
    (State.KeepsChain.stopIfRecording _).toKeepsDark

theorem State.openChains_dark (h : Head) : (s.openChains mask).Dark h := by
  refine (s.openChains_keepsDark mask).dark ?_
  cases h with
  | a => exact (State.cutLasers_dark _ .a).cutLasers .b
  | b => exact State.cutLasers_dark _ .b

theorem State.openChains_pins : (s.openChains mask).pins = s.pins := by
  rw [(s.openChains_keepsDark mask).pins, State.cutLasers_pins, State.cutLasers_pins]
  exact (State.KeepsChain.stopSteps s mask _).pins

theorem State.openChains_slot (h : Head) {r : Nat} (hr : r < 3) :
    (s.openChains mask).slot (headSlot h r) = (s.slot (headSlot h r)).tripped 4 := by
  have hmem (g : Head) : headSlot h r ∈ ([0, 1, 2] : List Nat).map (headSlot g) ↔ g = h := by
    rw [headSlot_mem_map (by omega) (by simp)]
    exact and_iff_left (by interval_cases r <;> simp)
  rw [State.openChains, (State.KeepsChain.stopIfRecording _).slot, State.slot_tripRoles,
    State.slot_tripRoles, State.cutLasers_slot, State.cutLasers_slot, (State.KeepsChain.stopSteps s mask _).slot]
  cases h <;> simp only [hmem] <;> rfl

end OpenChains

/-! ### Quill withdraws its releases (R515, Table 8.5 step 3) -/

section Withdraw

variable {s : State}

/-- A change of a head that touches neither firmware's enable nor the capture leaves dark heads dark. -/
theorem State.Dark.updHd {g : Head} (hs : s.Dark g) (h : Head) {f : HeadState → HeadState}
    (henable : ∀ d, (f d).laserEnable = d.laserEnable) (hcaptured : ∀ d, (f d).captured = d.captured) :
    (s.updHd h f).Dark g := by
  have hlanes := hs.lanes.updHd h f
  by_cases e : g = h
  · subst e
    exact { enable := by rw [State.hd_updHd_same, henable]; exact hs.enable
            captured := by rw [State.hd_updHd_same, hcaptured]; exact hs.captured
            lanes := hlanes }
  · exact { enable := by rw [State.hd_updHd_ne s f e]; exact hs.enable
            captured := by rw [State.hd_updHd_ne s f e]; exact hs.captured
            lanes := hlanes }

variable (s) (h : Head)

/-- A head's chain as Quill's withdrawal opens it, before its loops trip. -/
def State.cutRelease : State := (s.cutLasers h).updHd h fun d => { d with release := false }

theorem State.withdrawHead_keepsDark : (s.cutRelease h).KeepsDark (s.withdrawHead h) :=
  State.KeepsDark.tripRoles _ _ _ _

theorem State.withdrawHead_dark : (s.withdrawHead h).Dark h :=
  (s.withdrawHead_keepsDark h).dark ((s.cutLasers_dark h).updHd h (fun _ => rfl) fun _ => rfl)

theorem State.withdrawHead_release : ((s.withdrawHead h).hd h).release = false := by
  rw [(s.withdrawHead_keepsDark h).hd, State.cutRelease, State.hd_updHd_same]

variable {s h}

theorem State.Dark.withdrawHead {g : Head} (hs : s.Dark g) : (s.withdrawHead h).Dark g :=
  (s.withdrawHead_keepsDark h).dark ((hs.cutLasers h).updHd h (fun _ => rfl) fun _ => rfl)

theorem State.withdrawHead_hd_ne {g : Head} (e : g ≠ h) : (s.withdrawHead h).hd g = s.hd g := by
  rw [(s.withdrawHead_keepsDark h).hd, State.cutRelease, State.hd_updHd_ne _ _ e, State.cutLasers_hd_ne s e]

theorem State.withdrawHead_slot {g : Head} {r : Nat} (hr : r < 4) : (s.withdrawHead h).slot (headSlot g r) =
    if h = g then (s.slot (headSlot g r)).tripped 5 else s.slot (headSlot g r) := by
  have hmem : headSlot g r ∈ ([0, 1, 2, 3] : List Nat).map (headSlot h) ↔ h = g := by
    rw [headSlot_mem_map hr (by simp)]
    exact and_iff_left (by interval_cases r <;> simp)
  have hslot : (s.cutRelease h).slot = s.slot := by
    cases h <;> rfl
  rw [State.withdrawHead, State.slot_tripRoles]
  simp only [hmem]
  rw [← State.cutRelease, hslot]

/-- What follows the two heads in a withdrawal keeps the pins, the heads and the dark lanes. -/
theorem State.withdraw_keepsDark (s : State) :
    ((((s.abortSteps (2 ^ 2 + 2 ^ 7) fun _ _ => true).stopCalibrate (2 ^ 2 + 2 ^ 7)).withdrawHead .a).withdrawHead
      .b).KeepsDark s.withdraw := by
  rw [State.withdraw]
  exact (State.KeepsChain.updQuill _ _).toKeepsDark.trans ((State.KeepsDark.tripSlot _ 5 8).trans
    ((State.KeepsDark.tripSlot _ 5 9).trans
      ((State.KeepsChain.gatesOff _).trans (State.KeepsChain.stopIfRecording _)).toKeepsDark))

theorem State.withdraw_dark (s : State) (h : Head) : s.withdraw.Dark h := by
  refine s.withdraw_keepsDark.dark ?_
  cases h with
  | a => exact (State.withdrawHead_dark _ .a).withdrawHead
  | b => exact State.withdrawHead_dark _ .b

theorem State.withdraw_release (s : State) (h : Head) : (s.withdraw.hd h).release = false := by
  rw [s.withdraw_keepsDark.hd]
  cases h with
  | a =>
    rw [State.withdrawHead_hd_ne (by decide)]
    exact State.withdrawHead_release _ .a
  | b => exact State.withdrawHead_release _ .b

theorem State.withdraw_motorRelease (s : State) : s.withdraw.quill.motorRelease = false := by
  obtain ⟨hquill, -, -⟩ := State.apart_eq_iff.1 s.withdraw_apart
  rw [hquill]

theorem State.withdraw_gates (s : State) : s.withdraw.spin.gates = .off := by
  rw [State.withdraw, State.stopIfRecording_spin]
  rfl

theorem State.withdraw_slot (s : State) (h : Head) {r : Nat} (hr : r < 4) :
    s.withdraw.slot (headSlot h r) = (s.slot (headSlot h r)).tripped 5 := by
  have hother (i : LoopId) (hi : slotHead i = none) : headSlot h r ≠ i := by
    rintro rfl
    have hsome : slotHead (headSlot h r) = some h := by
      interval_cases r <;> cases h <;> rfl
    exact absurd (hsome.symm.trans hi) (by simp)
  have hgates (u : State) : u.gatesOff.slot = u.slot := rfl
  have hquill (u : State) (f : QuillState → QuillState) : (u.updQuill f).slot = u.slot := rfl
  rw [State.withdraw, (State.KeepsChain.stopIfRecording _).slot, hgates, State.slot_tripSlot,
    if_neg (hother 9 rfl), State.slot_tripSlot, if_neg (hother 8 rfl), hquill, State.withdrawHead_slot hr,
    State.withdrawHead_slot hr, (State.KeepsChain.stopSteps s _ _).slot]
  cases h <;> rfl

end Withdraw

/-! ### The commands that open the chain -/

theorem State.hd_a (s : State) : s.hd .a = s.hdA := rfl
theorem State.hd_b (s : State) : s.hd .b = s.hdB := rfl

/-- Where every head is dark, LD_EN is low and every lane drives OFF (R313, R315). -/
theorem State.Dark.all {u : State} (hu : ∀ h, u.Dark h) (h : Head) (b : Beam) : u.ldEn h = false ∧
    u.levelOf h b = .off ∧ (u.beam h b).level = .off ∧ (u.hd h).laserEnable = false ∧ (u.hd h).captured = false ∧
      ∀ x ∈ (u.wh h).sectors, x.inFlight = true → x.doomed ≠ 0 :=
  ⟨(hu h).ldEn, (hu h).levelOf b, (hu h).lanes.level b, (hu h).enable, (hu h).captured, (hu h).lanes.doomed⟩

/-- A slot in RAMP, RUN or HOLD that a trip has reached is in TRIP with its cause, at output 0 (R386). -/
theorem LoopSlot.tripped_of_eq {cause : Nat} {k x : LoopSlot} (hk : k.active = true) (hx : x = k.tripped cause) :
    x.mode = .trip ∧ x.cause = BitVec.ofNat 3 cause ∧ x.out = 0 := by
  rw [hx, LoopSlot.tripped_active hk]
  exact ⟨rfl, rfl, rfl⟩

/-- Settles O51: each opening cuts both heads, and the trips and stops that follow keep every lane dark. -/
theorem openingTheChainDarkensEveryLane : Obligations.OpeningTheChainDarkensEveryLane := by
  intro t s dark tripped
  refine ⟨⟨_, rfl, State.Dark.all (State.openChains_dark _ _), fun h r hr ha => ?_, ?_, ?_⟩,
    ⟨_, rfl, State.Dark.all (State.openChains_dark _ _), fun h r hr ha => ?_, ?_⟩,
    ⟨(s.at t).withdraw, rfl, State.Dark.all (State.withdraw_dark _), fun h r hr ha => ?_, ?_, ?_,
      State.withdraw_motorRelease _, State.withdraw_gates _⟩⟩
  · exact LoopSlot.tripped_of_eq ha (State.openChains_slot _ _ h hr)
  · rw [State.openChains_pins]
    rfl
  · rw [State.openChains_pins]
    rfl
  · exact LoopSlot.tripped_of_eq ha (State.openChains_slot _ _ h hr)
  · rw [State.openChains_pins]
    rfl
  · exact LoopSlot.tripped_of_eq ha (State.withdraw_slot _ h (Nat.lt_succ_of_lt hr))
  · rw [← State.hd_a]
    exact State.withdraw_release _ .a
  · rw [← State.hd_b]
    exact State.withdraw_release _ .b

/-! ### Lasers come back (R317) -/

section Reenable

variable (s : State)

/-- Raising an event changes the host link alone (R136). -/
theorem State.raiseIn_eq (n : Nat) (fn : FnId) : ∃ x, s.raiseIn n fn = { s with host := x } := by
  simp only [State.raiseIn]
  split
  · exact ⟨_, rfl⟩
  · exact ⟨_, rfl⟩

theorem State.raise_eq (n : Nat) : ∃ x, s.raise n = { s with host := x } := by
  obtain ⟨_, h0⟩ := s.raiseIn_eq n 0
  obtain ⟨_, h1⟩ := (s.raiseIn n 0).raiseIn_eq n 1
  obtain ⟨_, h2⟩ := ((s.raiseIn n 0).raiseIn n 1).raiseIn_eq n 2
  obtain ⟨x, h3⟩ := (((s.raiseIn n 0).raiseIn n 1).raiseIn n 2).raiseIn_eq n 3
  exact ⟨x, by rw [State.raise, h3, h2, h1, h0]⟩

/-- A change of MAGAZINE changes the mount and the host link alone (R137). -/
theorem State.setMagazine_eq (n : Nat) : ∃ m x, s.setMagazine n = { s with mnt := m, host := x } := by
  rw [State.setMagazine]
  split
  · exact ⟨s.mnt, s.host, rfl⟩
  · obtain ⟨x, hx⟩ := (s.updMnt fun m => { m with magazine := n }).raise_eq evMagazineChange
    exact ⟨_, x, hx⟩

/-- The state once both pins of the laser chain have settled, with what MAGAZINE and its event make of the rest. -/
def State.pinsSettled (m : Mount) (x : HostLink) : State :=
  { s with pins := { s.pins with doorSense := false, laserArm := true }, mnt := m, host := x }

@[simp] theorem State.pinsSettled_hd (m : Mount) (x : HostLink) (h : Head) : (s.pinsSettled m x).hd h = s.hd h := by
  cases h <;> rfl

@[simp] theorem State.pinsSettled_spin (m : Mount) (x : HostLink) : (s.pinsSettled m x).spin = s.spin := rfl

@[simp] theorem State.pinsSettled_pwr (m : Mount) (x : HostLink) : (s.pinsSettled m x).pwr = s.pwr := rfl

/-- Firmware enables the lasers of a head: READ power on every lane whose driver is not lost (R317). -/
def State.relight (h : Head) : State :=
  (s.updHd h fun d => { d with laserEnable := true }).updBeams h fun b =>
    { b with level := if b.driverLost then .off else .read }

variable {s}

theorem State.doorClosed_eq (hdoor : s.pins.doorSince + 5000000 ≤ s.now) :
    ∃ m x, (s.doorClosed.updPins fun p => { p with laserArm := true }) = s.pinsSettled m x := by
  have hlow : s.pins.doorSince + Config.ms 5 ≤ s.now := hdoor
  simp only [State.doorClosed, if_pos hlow]
  split
  · obtain ⟨m, x, hu⟩ := (s.updPins fun p => { p with doorSense := false }).setMagazine_eq 2
    exact ⟨m, x, by rw [hu]; rfl⟩
  · exact ⟨s.mnt, s.host, rfl⟩

theorem exec_laserReenable (t : Time) (h : Head) (hdoor : s.pins.doorSince + 5000000 ≤ (s.at t).now)
    (harm : s.pins.armSince + 5000000 ≤ (s.at t).now) (hrelease : (s.hd h).release = true)
    (hdomain : s.pwr.domains.getLsbD (laneDomain h) = true) (hforward : s.spin.reverse = false)
    (hpower : s.pwr.pfStep < 5) :
    ∃ m x, exec (.laserReenable t h) s = .next (((s.at t).pinsSettled m x).relight h) := by
  obtain ⟨m, x, hu⟩ := State.doorClosed_eq (s := s.at t) hdoor
  have hsettled : (s.at t).pins.doorSince + Config.ms 5 ≤ (s.at t).now ∧
      (s.at t).pins.armSince + Config.ms 5 ≤ (s.at t).now := ⟨hdoor, harm⟩
  have hrel : ((s.at t).hd h).release = true := by
    cases h <;> exact hrelease
  refine ⟨m, x, ?_⟩
  show execLaserReenable t h s = _
  simp only [execLaserReenable, if_pos hsettled, hu, State.pinsSettled_hd, State.pinsSettled_pwr, State.pinsSettled_spin,
    State.at_pwr, State.at_spin, hrel, hdomain, hforward, decide_eq_true hpower, Bool.not_false, Bool.and_true, if_true]
  rfl

variable (s) (h : Head)

theorem State.relight_hd : (s.relight h).hd h = { s.hd h with laserEnable := true } := by
  cases h <;> rfl

theorem State.relight_beam (b : Beam) :
    (s.relight h).beam h b = { s.beam h b with level := if (s.beam h b).driverLost then .off else .read } := by
  rw [State.relight, State.beam_updBeams_same]
  cases h <;> rfl

theorem State.relight_pins : (s.relight h).pins = s.pins := by
  cases h <;> rfl

theorem State.relight_spin : (s.relight h).spin = s.spin := by
  cases h <;> rfl

theorem State.relight_loop : (s.relight h).loop = s.loop := by
  cases h <;> rfl

theorem State.relight_ioFallen : (s.relight h).ioFallen = s.ioFallen := by
  cases h <;> rfl

/-- With both pins settled, the head's release and the supplies, firmware's enable raises LD_EN (R313). -/
theorem State.relight_ldEn (m : Mount) (x : HostLink) (hrelease : (s.hd h).release = true)
    (hvcore : s.pins.vcoreLow = false) (hio : s.ioFallen = false) : ((s.pinsSettled m x).relight h).ldEn h = true := by
  have hsupply : (s.pinsSettled m x).ioFallen = false := hio
  simp only [State.ldEn, State.relight_pins, State.relight_hd, State.relight_ioFallen, State.pinsSettled_hd, hrelease,
    hsupply]
  simp [State.pinsSettled, hvcore]

end Reenable

/-! ### The laser driver bus (R641, R642, Table 18.5) -/

/-- The fields of an LDCFG frame keep within its 32 bits. -/
theorem ldcfgWord_toNat (b : Beam) (l : Level) (code : BitVec 10) :
    (ldcfgWord b l code).toNat = b.val * 134217728 + Level.index l * 16777216 + code.toNat * 16384 := by
  have hl : Level.index l ≤ 5 := by cases l <;> decide
  have hb : b.val < 18 := b.isLt
  have hc : code.toNat < 1024 := code.isLt
  simp only [ldcfgWord, BitVec.toNat_ofNat]
  omega

section Ldcfg

variable {s : State} (t : Time) {h : Head} (b : Beam) {l : Level} (code : BitVec 10) {e1 e2 : Word} (hl : l ≠ .off)
  (hdomain : s.pwr.domains.getLsbD (laneDomain h) = true)
include hl hdomain

/-- A frame that goes out: its code is in force where a returned frame agrees, else the lane is held at OFF. -/
theorem exec_ldcfgFrame : exec (.ldcfgFrame t h b l code e1 e2) s =
    .next (let w := ldcfgWord b l code
      let sent := (s.at t).emit (.ldcfg h w)
      if e1 = w then sent.updBeam h b fun u => u.setCode l code.toNat
      else if e2 = w then (sent.emit (.ldcfg h w)).updBeam h b fun u => u.setCode l code.toNat
      else ((sent.emit (.ldcfg h w)).updBeam h b fun u => { u with driverLost := true, level := .off }).retireInvalid) := by
  have hsends : ¬ (l = .off ∨ (s.at t).pwr.domains.getLsbD (laneDomain h) = false) := by
    simp [hl, hdomain]
  show execLdcfgFrame t h b l code e1 e2 s = _
  simp only [execLdcfgFrame, if_neg hsends]

end Ldcfg

/-! ### The door and the magazine (R592, R650, R651) -/

section Magazine

variable {s : State} (t : Time)

/-- DOOR_SENSE has been high for 5 ms: the mount departs, both heads park, the spindle brakes and group M ends. -/
theorem exec_doorDeclaredOpen (hsense : s.pins.doorSense = true) (hrose : s.pins.doorRose + 5000000 ≤ (s.at t).now) :
    exec (.doorDeclaredOpen t) s =
      .next (let u := ((((s.at t).departMount .doorOpen).parkHead .a).parkHead .b).brakeSpindle
        (u.setMagazine (if u.pins.magPresent then 1 else 0)).endGroupM) := by
  have hopen : ((s.at t).pins.doorSense && decide ((s.at t).pins.doorRose + Config.ms 5 ≤ (s.at t).now)) = true := by
    rw [State.at_pins, hsense, Bool.true_and]
    exact decide_eq_true hrose
  show execDoorDeclaredOpen t s = _
  simp only [execDoorDeclaredOpen, if_pos hopen]

theorem exec_magPresentChange_same : exec (.magPresentChange t s.pins.magPresent) s = .next (s.at t) :=
  congrArg _ (if_pos rfl)

theorem exec_magPresentChange_inserted (habsent : s.pins.magPresent = false) : exec (.magPresentChange t true) s =
    .next ((((s.at t).updPins fun p => { p with magPresent := true }).updMnt fun m =>
      { m with stoppedByHost := false }).setMagazine (if s.pins.doorSense then 1 else 2)) := by
  have hchange : ¬ (s.at t).pins.magPresent = true := by simp [habsent]
  show execMagPresentChange t true s = _
  simp only [execMagPresentChange, if_neg hchange, if_true]
  rfl

theorem exec_magPresentChange_removed (hpresent : s.pins.magPresent = true) : exec (.magPresentChange t false) s =
    .next (let u := (s.at t).updPins fun p => { p with magPresent := false }
      (((if 3 ≤ s.mnt.magazine then ((u.departMount .magazineAbsent).parkHead .a).parkHead .b
        else u).brakeSpindle.setMagazine 0).endGroupM)) := by
  have hchange : ¬ (s.at t).pins.magPresent = false := by simp [hpresent]
  show execMagPresentChange t false s = _
  simp only [execMagPresentChange, if_neg hchange, Bool.false_eq_true, if_false]
  rfl

end Magazine

/-- Settles O50, from what each of the five commands answers. -/
theorem laserChainCommands : Obligations.LaserChainCommands := by
  intro t h s s1
  refine ⟨fun hdoor harm hrelease hdomain hforward hpower => ?_, fun hsense hrose => exec_doorDeclaredOpen t hsense hrose,
    exec_magPresentChange_same t, exec_magPresentChange_inserted t, exec_magPresentChange_removed t,
    fun b l code e1 e2 hl hdomain => ?_⟩
  · obtain ⟨m, x, hexec⟩ := exec_laserReenable t h hdoor harm hrelease hdomain hforward hpower
    refine ⟨_, hexec, ?_, ?_, ?_, fun hvcore hio => ?_, ?_, ?_, fun b => ?_⟩
    · rw [State.relight_hd]
    · rw [State.relight_pins]
      rfl
    · rw [State.relight_pins]
      rfl
    · exact State.relight_ldEn s1 h m x (by cases h <;> exact hrelease) hvcore hio
    · exact State.relight_spin _ h
    · exact State.relight_loop _ h
    · rw [State.relight_beam]
      cases h <;> rfl
  · have hexec := exec_ldcfgFrame t b code (e1 := e1) (e2 := e2) hl hdomain
    exact ⟨ldcfgWord_toNat b l code, fun h1 => hexec.trans (congrArg _ (if_pos h1)),
      fun h1 h2 => hexec.trans (congrArg _ ((if_neg h1).trans (if_pos h2))),
      fun h1 h2 => hexec.trans (congrArg _ ((if_neg h1).trans (if_neg h2)))⟩

end Sys2Proof.Machine

/-! PROOF. The Loop Engine family (10_loop_engine): the control law within its limits, a missed sample, and the ways of a
sample from its bridge to its slot. -/

namespace Sys2Proof.Machine

/-! ### Numbers (R375 to R378) -/

theorem clampInt_le_iff {lo hi v b : Int} : clampInt lo hi v ≤ b ↔ lo ≤ b ∧ (hi ≤ b ∨ v ≤ b) := by
  rw [clampInt, max_le_iff, min_le_iff]

theorem le_clampInt_iff {lo hi v b : Int} : b ≤ clampInt lo hi v ↔ b ≤ lo ∨ b ≤ hi ∧ b ≤ v := by
  rw [clampInt, le_max_iff, le_min_iff]

theorem clampInt_mem {lo hi : Int} (v : Int) (h : lo ≤ hi) : lo ≤ clampInt lo hi v ∧ clampInt lo hi v ≤ hi :=
  ⟨le_clampInt_iff.2 (.inl le_rfl), clampInt_le_iff.2 ⟨h, .inl le_rfl⟩⟩

theorem q_range (x : Q15) : -32768 ≤ q x ∧ q x ≤ 32767 :=
  ⟨x.le_toInt, Int.le_of_lt_add_one x.toInt_lt⟩

/-- A number in the range of 1.15 is what its register holds. -/
theorem q_toQ {v : Int} (hlo : -32768 ≤ v) (hhi : v ≤ 32767) : q (toQ v) = v :=
  BitVec.toInt_ofInt_eq_self (by decide) hlo (Int.lt_add_one_of_le hhi)

/-! ### Configuration and initial state (R380, R381) -/

theorem LoopCfg.valid_limits {c : LoopCfg} (hv : c.valid = true) : q c.uMin ≤ q c.uMax ∧ 0 ≤ q c.iLim := by
  simp only [LoopCfg.valid, Bool.and_eq_true, decide_eq_true_eq] at hv
  obtain ⟨⟨⟨⟨hu, hi⟩, -⟩, -⟩, -⟩ := hv
  exact ⟨hu, hi⟩

theorem LoopCfg.iMax_nonneg {c : LoopCfg} (hv : c.valid = true) : 0 ≤ c.iMax :=
  mul_nonneg (LoopCfg.valid_limits hv).2 (by decide)

/-- I_LIM lies within the accumulator. -/
theorem LoopCfg.iMax_lt (c : LoopCfg) : c.iMax < 2 ^ 39 - 1 := by
  have hq := (q_range c.iLim).2
  rw [LoopCfg.iMax]
  omega

/-- The integral lies within I_LIM (R379). -/
def LoopSlot.IntegralWithin (k : LoopSlot) (i : Int) : Prop := -k.cfg.iMax ≤ i ∧ i ≤ k.cfg.iMax

/-- The slot on which a valid sample is computed: the first one after IDLE sets the initial state (R381). -/
def LoopSlot.begun (k : LoopSlot) (y : Int) : LoopSlot := if k.fresh then k.init y else k

theorem LoopSlot.begun_cfg (k : LoopSlot) (y : Int) : (k.begun y).cfg = k.cfg := by
  rw [LoopSlot.begun]
  split <;> rfl

theorem LoopSlot.begun_within {k : LoopSlot} (y : Int) (hv : k.cfg.valid = true)
    (hk : k.fresh = true ∨ k.IntegralWithin k.iPrev) : k.IntegralWithin (k.begun y).iPrev := by
  have hmax := LoopCfg.iMax_nonneg hv
  rw [LoopSlot.begun]
  split
  case isTrue => exact clampInt_mem _ (by omega)
  case isFalse hold => exact hk.resolve_left hold

/-! ### The control law (R376, R379) -/

section Law

variable (k : LoopSlot) (e : Int)

theorem LoopSlot.law_u : (k.law e).u = clampInt (q k.cfg.uMin) (q k.cfg.uMax) (k.law e).uRaw := by
  simp only [LoopSlot.law]

/-- Either the integral is held against windup, or it takes its increment, which then does not point in the direction in
which the unclamped output is beyond its limit. -/
theorem LoopSlot.law_integral : (k.law e).i = k.iPrev ∨
    (k.law e).i = clampInt (-k.cfg.iMax) k.cfg.iMax (accAdd k.iPrev (k.law e).dI) ∧
      (q k.cfg.uMax < (k.law e).uRaw → (k.law e).dI ≤ 0) ∧ ((k.law e).uRaw < q k.cfg.uMin → 0 ≤ (k.law e).dI) := by
  simp only [LoopSlot.law]
  generalize (if k.cfg.derivOn = true then _ else _) = d
  split
  case isTrue => exact .inl rfl
  case isFalse free =>
    simp only [Bool.or_eq_true, Bool.and_eq_true, decide_eq_true_eq, not_or, not_and, not_lt] at free
    exact .inr ⟨rfl, free⟩

variable {k}

theorem LoopSlot.law_within (hv : k.cfg.valid = true) (hk : k.IntegralWithin k.iPrev) :
    k.IntegralWithin (k.law e).i := by
  have hmax := LoopCfg.iMax_nonneg hv
  obtain hheld | ⟨htaken, -⟩ := k.law_integral e
  · rwa [hheld]
  · rw [htaken]
    exact clampInt_mem _ (by omega)

/-- No windup above: with the unclamped output over U_MAX the integral does not rise. -/
theorem LoopSlot.law_integral_le (hk : k.IntegralWithin k.iPrev) (hover : q k.cfg.uMax < (k.law e).uRaw) :
    (k.law e).i ≤ k.iPrev := by
  obtain ⟨hlo, hhi⟩ := hk
  have hmax := k.cfg.iMax_lt
  obtain hheld | ⟨htaken, hfall, -⟩ := k.law_integral e
  · exact hheld.le
  · have hd := hfall hover
    rw [htaken]
    exact clampInt_le_iff.2 ⟨hlo, .inr (clampInt_le_iff.2 ⟨by omega, .inr (by omega)⟩)⟩

/-- No windup below: with the unclamped output under U_MIN the integral does not fall. -/
theorem LoopSlot.le_law_integral (hk : k.IntegralWithin k.iPrev) (hunder : (k.law e).uRaw < q k.cfg.uMin) :
    k.iPrev ≤ (k.law e).i := by
  obtain ⟨hlo, hhi⟩ := hk
  have hmax := k.cfg.iMax_lt
  obtain hheld | ⟨htaken, -, hrise⟩ := k.law_integral e
  · exact hheld.ge
  · have hd := hrise hunder
    rw [htaken]
    exact le_clampInt_iff.2 (.inr ⟨hhi, le_clampInt_iff.2 (.inr ⟨by omega, by omega⟩)⟩)

end Law

/-! ### A valid sample (R374, R379, R384) -/

/-- The error of a sample: the input itself with REF_EXT, else the distance to the reference (R379, R382). -/
def LoopSlot.error (k : LoopSlot) (y trim : Int) : Int :=
  if k.cfg.refExt then y else sat16 (k.reference + trim - y)

theorem LoopSlot.tripIf_cases (c : Prop) [Decidable c] (k : LoopSlot) (cause : Nat) :
    (if c then (k.trip cause, some cause) else (k, none)) = (k, none) ∨
      (if c then (k.trip cause, some cause) else (k, none)) = (k.trip cause, some cause) := by
  split
  · exact .inr rfl
  · exact .inl rfl

/-- A valid sample puts the law's integral and its clamped result into the slot, which runs on or trips. -/
theorem LoopSlot.sample_cases (k : LoopSlot) (y trim limit : Int) :
    let w := (k.begun y).law ((k.begun y).error y trim)
    ∃ k1 : LoopSlot, (k.sample y trim limit = (k1, none) ∨ ∃ cause, k.sample y trim limit = (k1.trip cause, some cause)) ∧
      k1.iPrev = w.i ∧ k1.out = toQ (clampInt (-limit) limit w.u) :=
  ⟨_, (LoopSlot.tripIf_cases _ _ _).imp_right fun h => ⟨_, h⟩, rfl, rfl⟩

/-- The output that a limit meeting U_MIN to U_MAX leaves lies within all four bounds (R374, R379). -/
theorem LoopSlot.law_output_within {k : LoopSlot} {limit : Int} (e : Int) (hv : k.cfg.valid = true) (hlimit : 0 ≤ limit)
    (hhi : -limit ≤ q k.cfg.uMax) (hlo : q k.cfg.uMin ≤ limit) :
    let u := q (toQ (clampInt (-limit) limit (k.law e).u))
    q k.cfg.uMin ≤ u ∧ u ≤ q k.cfg.uMax ∧ -limit ≤ u ∧ u ≤ limit := by
  obtain ⟨hmin, hmax⟩ := clampInt_mem (k.law e).uRaw (LoopCfg.valid_limits hv).1
  rw [← LoopSlot.law_u] at hmin hmax
  obtain ⟨hneg, hpos⟩ := clampInt_mem (k.law e).u (show -limit ≤ limit by omega)
  have hover : q k.cfg.uMin ≤ clampInt (-limit) limit (k.law e).u := le_clampInt_iff.2 (.inr ⟨hlo, hmin⟩)
  have hunder : clampInt (-limit) limit (k.law e).u ≤ q k.cfg.uMax := clampInt_le_iff.2 ⟨hhi, .inr hmax⟩
  rw [q_toQ ((q_range _).1.trans hover) (hunder.trans (q_range _).2)]
  exact ⟨hover, hunder, hneg, hpos⟩

/-- Settles O44: the clamps of the law bound the output and the integral, and the held integral does not wind up. -/
theorem loopOutputStaysInItsLimits : Obligations.LoopOutputStaysInItsLimits := by
  intro k y trim limit hv hlimit _ hhi hlo hk r
  have hcfg := k.begun_cfg y
  obtain ⟨k1, hr, hi, hout⟩ := k.sample_cases y trim limit
  have houtput := LoopSlot.law_output_within (k := k.begun y) ((k.begun y).error y trim) (by rwa [hcfg]) hlimit
    (by rwa [hcfg]) (by rwa [hcfg])
  rw [← hout, hcfg] at houtput
  have hbegun : (k.begun y).IntegralWithin (k.begun y).iPrev := by
    rw [LoopSlot.IntegralWithin, hcfg]
    exact LoopSlot.begun_within y hv hk
  have hintegral := LoopSlot.law_within ((k.begun y).error y trim) (by rwa [hcfg]) hbegun
  rw [LoopSlot.IntegralWithin, ← hi, hcfg] at hintegral
  have hwindup := fun (e : Int) (hmin : -k.cfg.iMax ≤ k.iPrev) (hmax : k.iPrev ≤ k.cfg.iMax) =>
    And.intro (LoopSlot.law_integral_le e ⟨hmin, hmax⟩) (LoopSlot.le_law_integral e ⟨hmin, hmax⟩)
  obtain hruns | ⟨cause, htrips⟩ := hr
  · rw [show r = (k1, none) from hruns]
    exact ⟨fun _ => houtput, nofun, hintegral, hwindup⟩
  · rw [show r = (k1.trip cause, some cause) from htrips]
    exact ⟨nofun, fun _ => ⟨rfl, rfl⟩, hintegral, hwindup⟩

/-! ### A missed sample (R384, R385) -/

/-- One of the first eight missed samples in a row is counted and changes nothing else but the mode. -/
theorem LoopSlot.miss_held {k : LoopSlot} (h : k.missedRun < 8) :
    ∃ m, k.miss = ({ k with missed := satInc k.missed, missedRun := k.missedRun + 1, mode := m }, none) :=
  ⟨_, if_neg (by simp only; omega)⟩

theorem LoopSlot.miss_trips {k : LoopSlot} (h : 8 ≤ k.missedRun) : ∃ k', k.miss = (LoopSlot.trip 3 k', some 3) :=
  ⟨_, if_pos (by simp only; omega)⟩

/-! ### The bridge of a sample (R461, Table 12.7) -/

section Crossing

variable (s : State) (i : LoopId) (x : LoopSample)

@[simp] theorem State.crossSample_loop : (s.crossSample i x).1.loop = s.loop := by
  rw [State.crossSample]
  split <;> rfl

@[simp] theorem State.crossSample_now : (s.crossSample i x).1.now = s.now := by
  rw [State.crossSample]
  split <;> rfl

@[simp] theorem State.crossSample_pwr : (s.crossSample i x).1.pwr = s.pwr := by
  rw [State.crossSample]
  split <;> rfl

@[simp] theorem State.crossSample_slot (j : LoopId) : (s.crossSample i x).1.slot j = s.slot j :=
  State.slot_congr (s.crossSample_loop i x) j

@[simp] theorem State.crossSample_loopOn : (s.crossSample i x).1.loopOn = s.loopOn := by
  simp only [State.loopOn, State.crossSample_pwr]

@[simp] theorem State.crossSample_trimOf (j : LoopId) : (s.crossSample i x).1.trimOf j = s.trimOf j := by
  simp only [State.trimOf, State.trimNow, State.crossSample_loop, State.crossSample_now]

variable {s i x}

theorem State.crossSample_arrives (h : ∀ n, loopBridge i = some n → (s.bridge n).armed = true) :
    (s.crossSample i x).2 = x := by
  rw [State.crossSample]
  split
  case h_1 => rfl
  case h_2 n hn => exact if_pos (h n hn)

theorem State.crossSample_discarded (h : ¬∀ n, loopBridge i = some n → (s.bridge n).armed = true) :
    (s.crossSample i x).2 = .invalid := by
  rw [State.crossSample]
  split
  case h_1 hnone => exact absurd (fun n hn => by rw [hnone] at hn; cases hn) h
  case h_2 m hm =>
    refine if_neg fun harmed => h fun n hn => ?_
    rw [hm] at hn
    cases hn
    exact harmed

/-- An invalid sample stays one, whether its bridge takes it or not. -/
theorem State.crossSample_invalid : (s.crossSample i .invalid).2 = .invalid := by
  rw [State.crossSample]
  split
  · rfl
  · exact ite_self _

end Crossing

/-! ### SLOT_SAMPLE (R370, R387) -/

/-- Without an ENABLE that has been cleared at this moment on a slot that computed samples, a late sample does nothing. -/
theorem State.lastSample_eq {s : State} {i : LoopId} (x : LoopSample)
    (h : ∀ z ∈ s.loop.cleared, ¬(z.1 = i ∧ z.2.1 = s.now ∧ z.2.2.active = true)) : s.lastSample i x = s := by
  have hnone : s.loop.cleared.find? (fun z => z.1 == i && z.2.1 == s.now && z.2.2.active) = none :=
    List.find?_eq_none.2 fun z hz => by simpa [and_assoc] using h z hz
  rw [State.lastSample, hnone]

section SlotSample

variable (t : Time) (i : LoopId) (x : LoopSample) {s : State}

theorem exec_slotSample_off (hoff : s.loopOn = false) : exec (.slotSample t i x) s = .next (s.at t) := by
  have hcrossed : (!((s.at t).crossSample i x).1.loopOn) = true := by
    rw [State.crossSample_loopOn, Bool.not_eq_true']
    exact hoff
  exact congrArg _ (if_pos hcrossed)

variable (hon : s.loopOn = true)
include hon

/-- What a sample does while the Loop Engine runs, told from the slot as it stood before it. -/
theorem exec_slotSample_on : exec (.slotSample t i x) s =
    .next (let c := (s.at t).crossSample i x
      if !(s.slot i).active then c.1.lastSample i c.2
      else if (s.slot i).events + 1 < max 1 (s.slot i).cfg.div.toNat then
        c.1.updSlot i fun z => { z with events := (s.slot i).events + 1 }
      else (if c.2 = .overrun then c.1.logOverrun i else c.1).putSample i
        (({ (s.slot i) with events := 0 } : LoopSlot).take c.2 ((s.at t).trimOf i) (outLimit i))) := by
  have hpowered : (s.at t).loopOn = true := hon
  show execSlotSample t i x s = _
  simp only [execSlotSample, State.crossSample_loopOn, State.crossSample_slot, State.crossSample_trimOf, State.at_slot,
    hpowered, Bool.not_true, Bool.false_eq_true, if_false]

theorem exec_slotSample_inactive (hidle : (s.slot i).active = false)
    (hcleared : ∀ z ∈ s.loop.cleared, ¬(z.1 = i ∧ z.2.1 = (s.at t).now ∧ z.2.2.active = true)) :
    exec (.slotSample t i x) s = .next ((s.at t).crossSample i x).1 := by
  rw [exec_slotSample_on t i x hon]
  simp only [hidle, Bool.not_false, if_true]
  rw [State.lastSample_eq]
  rwa [State.crossSample_loop, State.crossSample_now]

variable (hactive : (s.slot i).active = true)
include hactive

theorem exec_slotSample_counted (hearly : (s.slot i).events + 1 < max 1 (s.slot i).cfg.div.toNat) :
    exec (.slotSample t i x) s =
      .next (((s.at t).crossSample i x).1.updSlot i fun z => { z with events := (s.slot i).events + 1 }) := by
  rw [exec_slotSample_on t i x hon]
  simp only [hactive, Bool.not_true, Bool.false_eq_true, if_false, if_pos hearly]

variable (hdue : max 1 (s.slot i).cfg.div.toNat ≤ (s.slot i).events + 1)
include hdue

/-- On the DIV-th event the slot takes the sample as its bridge has handed it over. -/
theorem exec_slotSample_taken {x' : LoopSample} (hx : ((s.at t).crossSample i x).2 = x') :
    exec (.slotSample t i x) s =
      .next (let u := ((s.at t).crossSample i x).1
        (if x' = .overrun then u.logOverrun i else u).putSample i
          (({ (s.slot i) with events := 0 } : LoopSlot).take x' ((s.at t).trimOf i) (outLimit i))) := by
  rw [exec_slotSample_on t i x hon]
  simp only [hactive, Bool.not_true, Bool.false_eq_true, if_false, if_neg (Nat.not_lt.2 hdue), hx]

theorem exec_slotSample_missed (hx : ((s.at t).crossSample i x).2 = .invalid) :
    exec (.slotSample t i x) s =
      .next (((s.at t).crossSample i x).1.putSample i ({ (s.slot i) with events := 0 } : LoopSlot).miss) :=
  exec_slotSample_taken t i x hon hactive hdue hx

end SlotSample

/-- Settles O43, from what SLOT_SAMPLE answers before, below and on the DIV-th event, and from what a missed sample is. -/
theorem loopSamplesFollowTheLaw : Obligations.LoopSamplesFollowTheLaw := by
  intro t i x s s1 k crossed arrives
  refine ⟨exec_slotSample_off t i x, fun hon => ⟨exec_slotSample_inactive t i x hon,
    exec_slotSample_counted t i x hon, fun hactive hdue => ⟨fun harrives => ⟨fun y => ?_, ?_⟩, ?_, fun hlost => ?_⟩⟩,
    fun hfew => ?_, fun hmany => ?_⟩
  · exact exec_slotSample_taken t i (.valid y) hon hactive hdue (State.crossSample_arrives harrives)
  · exact exec_slotSample_taken t i .overrun hon hactive hdue (State.crossSample_arrives harrives)
  · exact exec_slotSample_missed t i .invalid hon hactive hdue State.crossSample_invalid
  · exact exec_slotSample_missed t i x hon hactive hdue (State.crossSample_discarded hlost)
  · obtain ⟨m, hmiss⟩ := LoopSlot.miss_held hfew
    rw [hmiss]
    exact ⟨rfl, rfl, rfl, rfl, rfl, rfl, rfl, rfl, rfl⟩
  · obtain ⟨k', hmiss⟩ := LoopSlot.miss_trips hmany
    rw [hmiss]
    exact ⟨rfl, rfl, rfl, rfl⟩

end Sys2Proof.Machine

/-! PROOF. The spindle, sleds and moves family (11_spindle_sled_moves): the lock-out rule, starts and stops of the spindle,
and the moves of the heads. -/

namespace Sys2Proof.Machine

/-! ### The lock-out rule (R418) -/

/-- The invariant is about the spindle alone, so it passes to every state with the same spindle. -/
theorem SpinOk.of_eq {p q : Spindle} (h : SpinOk p) (e : q = p) : SpinOk q := e ▸ h

/-- Every command keeps the lock-out rule: most of them leave the spindle alone, and the others turn the gates off wherever
they lock it out (R418). -/
theorem exec_spinOk (c : Instr) {s u : State} (hok : SpinOk s.spin) (hnext : exec c s = .next u) : SpinOk u.spin := by
  cases c with
  | sqTailDoorbell t fn q value => exact hok.of_eq (execSqTailDoorbell_spin t fn q value s u hnext)
  | cqHeadDoorbell t fn q value => exact hok.of_eq (execCqHeadDoorbell_spin t fn q value s u hnext)
  | queueEnable t fn q ctrl => exact hok.of_eq (execQueueEnable_spin t fn q ctrl s u hnext)
  | queueDelete t fn q ctrl => exact hok.of_eq (execQueueDelete_spin t fn q ctrl s u hnext)
  | queueDeletionComplete t fn q => exact hok.of_eq (execQueueDeletionComplete_spin t fn q s u hnext)
  | restart t fn q ctrl => exact hok.of_eq (execRestart_spin t fn q ctrl s u hnext)
  | commandFetch t entries => exact hok.of_eq (execCommandFetch_spin t entries s u hnext)
  | fetchReadError t fn q addr => exact hok.of_eq (execFetchReadError_spin t fn q addr s u hnext)
  | dmaReadError t c => exact execDmaReadError_spinOk t c s hok u hnext
  | coalesceTimerExpiry t fn q => exact hok.of_eq (execCoalesceTimerExpiry_spin t fn q s u hnext)
  | inboundBudgetWindow t => exact hok.of_eq (execInboundBudgetWindow_spin t s u hnext)
  | aspmL1Entry t => exact hok.of_eq (execAspmL1Entry_spin t s u hnext)
  | configRequestNotReady t fn req => exact hok.of_eq (execConfigRequestNotReady_spin t fn req s u hnext)
  | functionLevelReset t fn => exact hok.of_eq (execFunctionLevelReset_spin t fn s u hnext)
  | linkDown t => exact hok.of_eq (execLinkDown_spin t s u hnext)
  | hotReset t => exact hok.of_eq (execHotReset_spin t s u hnext)
  | linkDisabled t => exact hok.of_eq (execLinkDisabled_spin t s u hnext)
  | functionsReady t rate width => exact hok.of_eq (execFunctionsReady_spin t rate width s u hnext)
  | perstNAssertion t lowNs => exact execPerstNAssertion_spinOk t lowNs s hok u hnext
  | quillBoot t katOk octalOk testEn => exact execQuillBoot_spinOk t katOk octalOk testEn s hok u hnext
  | identify t c => exact execIdentify_spinOk t c s hok u hnext
  | getPage t c => exact execGetPage_spinOk t c s hok u hnext
  | getParam t c => exact execGetParam_spinOk t c s hok u hnext
  | setParam t c => exact execSetParam_spinOk t c s hok u hnext
  | keyLoad t c => exact execKeyLoad_spinOk t c s hok u hnext
  | keyPurge t c => exact execKeyPurge_spinOk t c s hok u hnext
  | mount t c => exact execMount_spinOk t c s hok u hnext
  | unmount t c => exact execUnmount_spinOk t c s hok u hnext
  | clipOpen t c => exact execClipOpen_spinOk t c s hok u hnext
  | clipClose t c => exact execClipClose_spinOk t c s hok u hnext
  | frameAppend t c => exact execFrameAppend_spinOk t c s hok u hnext
  | auxAppend t c => exact execAuxAppend_spinOk t c s hok u hnext
  | read t c => exact execRead_spinOk t c s hok u hnext
  | frameRead t c => exact execFrameRead_spinOk t c s hok u hnext
  | metaRead t c => exact execMetaRead_spinOk t c s hok u hnext
  | metaWrite t c => exact execMetaWrite_spinOk t c s hok u hnext
  | lockAcquire t c => exact execLockAcquire_spinOk t c s hok u hnext
  | lockRelease t c => exact execLockRelease_spinOk t c s hok u hnext
  | lockClearAbandoned t c => exact execLockClearAbandoned_spinOk t c s hok u hnext
  | powerState t c => exact execPowerState_spinOk t c s hok u hnext
  | spindle t c => exact execSpindle_spinOk t c s hok u hnext
  | calibrate t c => exact execCalibrate_spinOk t c s hok u hnext
  | verifyCtl t c => exact execVerifyCtl_spinOk t c s hok u hnext
  | fwStage t c => exact execFwStage_spinOk t c s hok u hnext
  | fwActivate t c => exact execFwActivate_spinOk t c s hok u hnext
  | attest t c => exact execAttest_spinOk t c s hok u hnext
  | jtagUnlock t c => exact execJtagUnlock_spinOk t c s hok u hnext
  | undefinedOpcode t c => exact execUndefinedOpcode_spinOk t c s hok u hnext
  | fenceCommandStart t c => exact execFenceCommandStart_spinOk t c s hok u hnext
  | overlapReadResume t fn q cid => exact execOverlapReadResume_spinOk t fn q cid s hok u hnext
  | mountWaitRelease t => exact execMountWaitRelease_spinOk t s hok u hnext
  | bringupDeferredStart t fn q cid => exact execBringupDeferredStart_spinOk t fn q cid s hok u hnext
  | mediaCommandRunStart t fn q cid => exact execMediaCommandRunStart_spinOk t fn q cid s hok u hnext
  | clipOpenDeferredStart t fn q cid => exact execClipOpenDeferredStart_spinOk t fn q cid s hok u hnext
  | lockWaitTimeout t lock => exact hok.of_eq (execLockWaitTimeout_spin t lock s u hnext)
  | heldFetchResume t fn q => exact hok.of_eq (execHeldFetchResume_spin t fn q s u hnext)
  | fullWaitExpiry t fn q => exact hok.of_eq (execFullWaitExpiry_spin t fn q s u hnext)
  | rateDeficitRepeat t => exact hok.of_eq (execRateDeficitRepeat_spin t s u hnext)
  | frameDmaComplete t clip number data => exact hok.of_eq (execFrameDmaComplete_spin t clip number data s u hnext)
  | clipCloseRecordQueued t => exact hok.of_eq (execClipCloseRecordQueued_spin t s u hnext)
  | frameEncode t discards => exact hok.of_eq (execFrameEncode_spin t discards s u hnext)
  | systemSectorWrite t => exact hok.of_eq (execSystemSectorWrite_spin t s u hnext)
  | slotBegin t h => exact hok.of_eq (execSlotBegin_spin t h s u hnext)
  | verifyVerdict t h b m => exact execVerifyVerdict_spinOk t h b m s hok u hnext
  | streamDry t => exact hok.of_eq (execStreamDry_spin t s u hnext)
  | recordingResume t => exact hok.of_eq (execRecordingResume_spin t s u hnext)
  | layerTurnaround t okA okB gains => exact hok.of_eq (execLayerTurnaround_spin t okA okB gains s u hnext)
  | turnaroundTimeout t => exact hok.of_eq (execTurnaroundTimeout_spin t s u hnext)
  | afeOffsetTrim t h b dev => exact hok.of_eq (execAfeOffsetTrim_spin t h b dev s u hnext)
  | readPowerTrim t h b mean => exact hok.of_eq (execReadPowerTrim_spin t h b mean s u hnext)
  | laserReferenceTrim t h b slope => exact hok.of_eq (execLaserReferenceTrim_spin t h b slope s u hnext)
  | sramParityError t site byte parity => exact hok.of_eq (execSramParityError_spin t site byte parity s u hnext)
  | parityAccumulatorError t h member byte parity =>
    exact hok.of_eq (execParityAccumulatorError_spin t h member byte parity s u hnext)
  | codewordDetected t h b psa index speculative =>
    exact hok.of_eq (execCodewordDetected_spin t h b psa index speculative s u hnext)
  | ldpcDecodeDone t h b index iterations result header =>
    exact hok.of_eq (execLdpcDecodeDone_spin t h b index iterations result header s u hnext)
  | sectorTagCheck t psa => exact hok.of_eq (execSectorTagCheck_spin t psa s u hnext)
  | erasureDecode t seq => exact hok.of_eq (execErasureDecode_spin t seq s u hnext)
  | retryLadderStep t h recovered => exact hok.of_eq (execRetryLadderStep_spin t h recovered s u hnext)
  | defectSpanOpen t h b psa field bit => exact hok.of_eq (execDefectSpanOpen_spin t h b psa field bit s u hnext)
  | scurryRead t h sectors => exact hok.of_eq (execScurryRead_spin t h sectors s u hnext)
  | speculativePrefocus t h => exact hok.of_eq (execSpeculativePrefocus_spin t h s u hnext)
  | slotSample t slot sample => exact execSlotSample_spinOk t slot sample s hok u hnext
  | loopSlotEnable t slot on => exact hok.of_eq (execLoopSlotEnable_spin t slot on s u hnext)
  | loopApply t slot => exact hok.of_eq (execLoopApply_spin t slot s u hnext)
  | loopParityError t slot => exact execLoopParityError_spinOk t slot s hok u hnext
  | slot9FsyncTimeout t => exact hok.of_eq (execSlot9FsyncTimeout_spin t s u hnext)
  | stoppedSourceReport t h => exact hok.of_eq (execStoppedSourceReport_spin t h s u hnext)
  | spindleStart t sense => exact execSpindleStart_spinOk t sense s hok u hnext
  | spindleStartRetry t sense => exact execSpindleStartRetry_spinOk t sense s hok u hnext
  | speedTargetReached t => exact execSpeedTargetReached_spinOk t s hok u hnext
  | comparatorTrip t blanked => exact execComparatorTrip_spinOk t blanked s hok u hnext
  | spindleStall t rpm => exact execSpindleStall_spinOk t rpm s hok u hnext
  | spindleRestart t sense => exact execSpindleRestart_spinOk t sense s hok u hnext
  | spindleStop t => exact execSpindleStop_spinOk t s hok u hnext
  | brakeBelowThreshold t => exact execBrakeBelowThreshold_spinOk t s hok u hnext
  | brakeHoldEnd t => exact execBrakeHoldEnd_spinOk t s hok u hnext
  | spindleBrakeTimeout t rpm => exact execSpindleBrakeTimeout_spinOk t rpm s hok u hnext
  | coastStopped t => exact execCoastStopped_spinOk t s hok u hnext
  | wedgeLockGained t offset => exact execWedgeLockGained_spinOk t offset s hok u hnext
  | wedgeLockLost t => exact execWedgeLockLost_spinOk t s hok u hnext
  | sledSeek t h radiusNm => exact hok.of_eq (execSledSeek_spin t h radiusNm s u hnext)
  | seekSettled t h band => exact hok.of_eq (execSeekSettled_spin t h band s u hnext)
  | sledSourceSwitch t h decoding => exact hok.of_eq (execSledSourceSwitch_spin t h decoding s u hnext)
  | focusCapture t h attempts => exact hok.of_eq (execFocusCapture_spin t h attempts s u hnext)
  | layerJump t h target => exact hok.of_eq (execLayerJump_spin t h target s u hnext)
  | trackJump t h outward => exact hok.of_eq (execTrackJump_spin t h outward s u hnext)
  | park t h => exact hok.of_eq (execPark_spin t h s u hnext)
  | emergencyPark t => exact execEmergencyPark_spinOk t s hok u hnext
  | doorSenseRise t => exact execDoorSenseRise_spinOk t s hok u hnext
  | laserArmDeassert t => exact execLaserArmDeassert_spinOk t s hok u hnext
  | quillReleaseWithdraw t => exact execQuillReleaseWithdraw_spinOk t s hok u hnext
  | doorDeclaredOpen t => exact execDoorDeclaredOpen_spinOk t s hok u hnext
  | laserReenable t h => exact hok.of_eq (execLaserReenable_spin t h s u hnext)
  | headRecapture t h attempts => exact hok.of_eq (execHeadRecapture_spin t h attempts s u hnext)
  | ldcfgFrame t h b level code echo1 echo2 =>
    exact hok.of_eq (execLdcfgFrame_spin t h b level code echo1 echo2 s u hnext)
  | magPresentChange t present => exact execMagPresentChange_spinOk t present s hok u hnext
  | ddr5ReadCorrected t burst beats newer =>
    exact hok.of_eq (execDdr5ReadCorrected_spin t burst beats newer s u hnext)
  | ddr5Uncorrectable t burst region => exact hok.of_eq (execDdr5Uncorrectable_spin t burst region s u hnext)
  | scrubRead t beats newer => exact hok.of_eq (execScrubRead_spin t beats newer s u hnext)
  | memorySelfTest t test => exact hok.of_eq (execMemorySelfTest_spin t test s u hnext)
  | cacheFillComplete t => exact hok.of_eq (execCacheFillComplete_spin t s u hnext)
  | evictionWriteback t => exact hok.of_eq (execEvictionWriteback_spin t s u hnext)
  | cacheParityError t site byte parity => exact hok.of_eq (execCacheParityError_spin t site byte parity s u hnext)
  | burrowReadback t key mask valid => exact hok.of_eq (execBurrowReadback_spin t key mask valid s u hnext)
  | burrowProbe t rows => exact hok.of_eq (execBurrowProbe_spin t rows s u hnext)
  | burrowDelete t row => exact hok.of_eq (execBurrowDelete_spin t row s u hnext)
  | burrowConsolidate t => exact hok.of_eq (execBurrowConsolidate_spin t s u hnext)
  | burrowResultParity t row => exact hok.of_eq (execBurrowResultParity_spin t row s u hnext)
  | paceWindow t counts => exact hok.of_eq (execPaceWindow_spin t counts s u hnext)
  | paceTick t => exact hok.of_eq (execPaceTick_spin t s u hnext)
  | peerResetAssert t bridge side items planned =>
    exact execPeerResetAssert_spinOk t bridge side items planned s hok u hnext
  | peerResetDeassert t bridge side => exact hok.of_eq (execPeerResetDeassert_spin t bridge side s u hnext)
  | bridgeOverflow t bridge => exact execBridgeOverflow_spinOk t bridge s hok u hnext
  | pllLockLoss t island => exact execPllLockLoss_spinOk t island s hok u hnext
  | pllRelock t island => exact hok.of_eq (execPllRelock_spin t island s u hnext)
  | powerTransitionStart t => exact execPowerTransitionStart_spinOk t s hok u hnext
  | powerTransitionStepEnd t => exact execPowerTransitionStepEnd_spinOk t s hok u hnext
  | torporHibernateExit t retentionOk katOk octalOk test rate width =>
    exact execTorporHibernateExit_spinOk t retentionOk katOk octalOk test rate width s hok u hnext
  | wakePinEdge t second lowNs => exact execWakePinEdge_spinOk t second lowNs s hok u hnext
  | psreqEdge t lowNs pssel => exact hok.of_eq (execPsreqEdge_spin t lowNs pssel s u hnext)
  | wakeReplay t => exact execWakeReplay_spinOk t s hok u hnext
  | wakeRearm t fn value => exact hok.of_eq (execWakeRearm_spin t fn value s u hnext)
  | pgoodTimeout t => exact hok.of_eq (execPgoodTimeout_spin t s u hnext)
  | railEnableRetry t => exact hok.of_eq (execRailEnableRetry_spin t s u hnext)
  | pgoodFall t => exact execPgoodFall_spinOk t s hok u hnext
  | vcoreLowDetect t => exact execVcoreLowDetect_spinOk t s hok u hnext
  | powerFail t lowNs => exact execPowerFail_spinOk t lowNs s hok u hnext
  | pwrfailDeassert t => exact execPwrfailDeassert_spinOk t s hok u hnext
  | deferredPerst t => exact execDeferredPerst_spinOk t s hok u hnext
  | activationReset t => exact execActivationReset_spinOk t s hok u hnext
  | quillFault t cls => exact execQuillFault_spinOk t cls s hok u hnext
  | rbgFail t => exact hok.of_eq (execRbgFail_spin t s u hnext)
  | voleHeartbeatTimeout t => exact hok.of_eq (execVoleHeartbeatTimeout_spin t s u hnext)
  | groupMStart t => exact execGroupMStart_spinOk t s hok u hnext
  | calStepStart t step h b => exact hok.of_eq (execCalStepStart_spin t step h b s u hnext)
  | calStepEnd t step h b m => exact execCalStepEnd_spinOk t step h b m s hok u hnext
  | calPreconditionLost t step h b mask => exact hok.of_eq (execCalPreconditionLost_spin t step h b mask s u hnext)
  | excursionStart t => exact hok.of_eq (execExcursionStart_spin t s u hnext)
  | excursionEnd t => exact hok.of_eq (execExcursionEnd_spin t s u hnext)
  | mediaScrubRead t stripes => exact hok.of_eq (execMediaScrubRead_spin t stripes s u hnext)
  | fsyncEdge t highNs angle => exact execFsyncEdge_spinOk t highNs angle s hok u hnext
  | ltcFrameDecoded t address bitRate => exact hok.of_eq (execLtcFrameDecoded_spin t address bitRate s u hnext)
  | timecodeLoss t => exact hok.of_eq (execTimecodeLoss_spin t s u hnext)
  | eventPendingClear t fn value => exact hok.of_eq (execEventPendingClear_spin t fn value s u hnext)
  | commitPointRead32 t fn => exact hok.of_eq (execCommitPointRead32_spin t fn s u hnext)
  | deficitRead32 t fn => exact hok.of_eq (execDeficitRead32_spin t fn s u hnext)
  | capturedFieldRead t fn offset => exact hok.of_eq (execCapturedFieldRead_spin t fn offset s u hnext)
  | registerWrite t space offset value => exact hok.of_eq (execRegisterWrite_spin t space offset value s u hnext)
  | sensorSample t reading => exact execSensorSample_spinOk t reading s hok u hnext
  | logProgram t ok => exact hok.of_eq (execLogProgram_spin t ok s u hnext)
  | logWindowEnd t => exact hok.of_eq (execLogWindowEnd_spin t s u hnext)
  | i2cPointerWrite t data => exact hok.of_eq (execI2cPointerWrite_spin t data s u hnext)
  | logPtrWrite t value => exact hok.of_eq (execLogPtrWrite_spin t value s u hnext)
  | logRecordReadEnd t => exact hok.of_eq (execLogRecordReadEnd_spin t s u hnext)
  | i2cTransactionTimeout t address => exact hok.of_eq (execI2cTransactionTimeout_spin t address s u hnext)
  | i2cAddressRetry t address ok => exact hok.of_eq (execI2cAddressRetry_spin t address ok s u hnext)
  | uartCommand t payload scan mapAddr => exact execUartCommand_spinOk t payload scan mapAddr s hok u hnext
  | uartBaud t payload => exact hok.of_eq (execUartBaud_spin t payload s u hnext)
  | lkProgram t payload readBackOk => exact hok.of_eq (execLkProgram_spin t payload readBackOk s u hnext)
  | archiveWrite t payload => exact hok.of_eq (execArchiveWrite_spin t payload s u hnext)
  | archiveCommit t flashOk => exact hok.of_eq (execArchiveCommit_spin t flashOk s u hnext)
  | logRead t payload => exact hok.of_eq (execLogRead_spin t payload s u hnext)
  | uartBadFrame t crcFailed => exact hok.of_eq (execUartBadFrame_spin t crcFailed s u hnext)
  | uartFrameGap t => exact hok.of_eq (execUartFrameGap_spin t s u hnext)
  | vaonPowerUp t => exact execVaonPowerUp_spinOk t s hok u hnext
  | dataFieldRead t h b f => exact hok.of_eq (execDataFieldRead_spin t h b f s u hnext)
  | defectSpanClose t h b field bit => exact hok.of_eq (execDefectSpanClose_spin t h b field bit s u hnext)
  | jtagTapAccess t tap => exact hok.of_eq (execJtagTapAccess_spin t tap s u hnext)

/-- Settles O3: a step runs the command at the front of the queue, if there is one, on the spindle as it is. -/
theorem lockoutInvariantKept : Obligations.LockoutInvariantKept := by
  intro s u h hstep
  cases hq : s.pending with
  | nil =>
    simp only [step, hq, Host.Outcome.next.injEq] at hstep
    exact hstep ▸ h
  | cons c rest =>
    simp only [step, hq] at hstep
    exact exec_spinOk c (s := { s with pending := rest }) h hstep

/-- Settles O4: at reset there is no lock-out, and the SPINDLE field reads 0. -/
theorem lockoutInvariantAtReset : Obligations.LockoutInvariantAtReset :=
  ⟨fun hlock => absurd hlock Bool.false_ne_true, Nat.zero_le 6⟩

/-! ### Starts of the spindle (R404, R406, R410, R436, R437) -/

section Starts

variable (s : State)

/-- A log entry changes Vole's records alone (R607, R608). -/
theorem State.log_eq (code : BitVec 16) (args : List Word) : ∃ v, s.log code args = { s with vole := v } := by
  simp only [State.log, State.coalesce, State.createRecord]
  repeat' split
  all_goals exact ⟨_, rfl⟩

/-- ENABLE changes the Loop Engine alone (Table 10.3). -/
theorem State.enableSlot_eq (i : LoopId) : ∃ e, s.enableSlot i = { s with loop := e } := by
  simp only [State.enableSlot]
  repeat' split
  all_goals exact ⟨_, rfl⟩

theorem State.reEnable_eq (i : LoopId) : ∃ e, s.reEnable i = { s with loop := e } := by
  rw [State.reEnable]
  split
  · exact State.enableSlot_eq (s.updSlot i LoopSlot.disable) i
  · exact s.enableSlot_eq i

/-- A spindle whose rotor runs under slot 8 towards the target (Table 11.2 steps 5 to 7). -/
def Spindle.running (p : Spindle) (rpm : Nat) (now : Time) : Spindle :=
  { p with state := 1, gates := .commutating, gatesAt := now, tripPeriods := [], starts := p.starts + 1, attempts := 0
           startDue := false, retryDue := false, restartDue := false, thenStart := none, rpm := rpm }

theorem State.runUp_eq (rpm : Nat) : ∃ e, s.runUp rpm = { s with spin := s.spin.running rpm s.now, loop := e } := by
  obtain ⟨e, he⟩ := (s.updSpin fun p => p.running rpm s.now).reEnable_eq 8
  show ∃ e, ((s.updSpin fun p => p.running rpm s.now).reEnable 8).setSpeedRef
    ((s.updSpin fun p => p.running rpm s.now).spin.target) = _
  rw [he]
  exact ⟨_, rfl⟩

/-- A back-EMF constant that is no fault is noted, and logged where Table 11.4 says so. -/
theorem State.checkKe_eq {meas : Nat} (hke : keCheck meas s.spin.params.keNom ≠ .fault) :
    ∃ v, s.checkKe meas = { s with spin := { s.spin with keMeas := meas }, vole := v } := by
  simp only [State.checkKe, if_neg hke]
  split
  · exact State.log_eq (s.updSpin fun p => { p with keMeas := meas }) _ _
  · exact ⟨s.vole, rfl⟩

/-- The spindle with the position that a start finds, and the vector of its first forced step (Table 11.2 step 3). -/
def Spindle.located (p : Spindle) (found : Nat) : Spindle :=
  { p with foundVector := found, firstVector := forcedFrom found p.reverse }

/-- The third failed attempt is logged and locks the spindle out (R418, R436). -/
theorem State.startFailed_third (hlast : s.spin.attempts = 2) :
    s.startFailed = ((s.updSpin fun p => { p with state := 0, rpm := 0 }).log 0x0508 [3]).lockOutAll := by
  simp only [State.startFailed, hlast]
  exact if_neg (Nat.lt_irrefl 3)

variable {g : StartSense} (hstill : g.turning = none)
include hstill

/-- A rotor without a zero crossing that synchronises runs up, and its back-EMF constant is noted (R404, R410). -/
theorem State.startSpindle_synced (hsync : g.synced = true) (hke : keCheck g.keMeas s.spin.params.keNom ≠ .fault) :
    ∃ e v, s.startSpindle g = { s with
      spin := { ((s.spin.located (foundVector s.spin.params.tTestMax g.runs)).running 3000 s.now) with keMeas := g.keMeas }
      loop := e, vole := v } := by
  obtain ⟨e, hrun⟩ := (s.updSpin fun p => p.located (foundVector s.spin.params.tTestMax g.runs)).runUp_eq 3000
  obtain ⟨v, hcheck⟩ := State.checkKe_eq { s with
    spin := (s.spin.located (foundVector s.spin.params.tTestMax g.runs)).running 3000 s.now, loop := e } hke
  refine ⟨e, v, ?_⟩
  rw [State.startSpindle, hstill]
  simp only [State.startFromRest, hsync, if_true]
  exact (congrArg (fun u : State => u.checkKe g.keMeas) hrun).trans hcheck

/-- A rotor that does not synchronise has made a failed attempt (R436). -/
theorem State.startSpindle_failed (hsync : g.synced = false) : s.startSpindle g =
    (s.updSpin fun p => p.located (foundVector s.spin.params.tTestMax g.runs)).startFailed := by
  rw [State.startSpindle, hstill]
  simp only [State.startFromRest, hsync, Bool.false_eq_true, if_false]
  rfl

end Starts

section StartCommands

variable {s : State} (t : Time) (g : StartSense) (hmay : s.mayStart = true)
include hmay

theorem exec_spindleStart_due (hdue : s.spin.startDue = true) (hrest : s.spin.state = 0 ∨ s.spin.state = 6) :
    exec (.spindleStart t g) s = .next (((s.at t).updSpin fun p => { p with attempts := 0 }).startSpindle g) := by
  have hcond : ((s.at t).spin.startDue && (s.at t).mayStart &&
      ((s.at t).spin.state == 0 || (s.at t).spin.state == 6)) = true := by
    have hmay' : (s.at t).mayStart = true := hmay
    simp [hmay', hdue, hrest]
  show execSpindleStart t g s = _
  simp only [execSpindleStart, hcond, if_true]

theorem exec_spindleStartRetry_due (hdue : s.spin.retryDue = true) (hwait : s.spin.gatesAt + 1000000000 ≤ (s.at t).now) :
    exec (.spindleStartRetry t g) s = .next ((s.at t).startSpindle g) := by
  have hcond : ((s.at t).spin.retryDue && (s.at t).mayStart &&
      decide ((s.at t).spin.gatesAt + Config.ms 1000 ≤ (s.at t).now)) = true := by
    have hmay' : (s.at t).mayStart = true := hmay
    have hwait' : (s.at t).spin.gatesAt + Config.ms 1000 ≤ (s.at t).now := hwait
    rw [decide_eq_true hwait', hmay', State.at_spin, hdue]
    rfl
  show execSpindleStartRetry t g s = _
  simp only [execSpindleStartRetry, hcond, if_true]

theorem exec_spindleRestart_due (hdue : s.spin.restartDue = true) :
    exec (.spindleRestart t g) s = .next (((s.at t).updSpin fun p => { p with attempts := 0 }).startSpindle g) := by
  have hmay' : (s.at t).mayStart = true := hmay
  show execSpindleRestart t g s = _
  simp only [execSpindleRestart, State.at_spin, hdue, hmay', Bool.and_self, if_true]

end StartCommands

/-- At the target speed the state code shows it, the loops are tuned for it, and the SPINDLE commands to it complete (R414,
R396, log entry 12). -/
theorem exec_speedTargetReached {s : State} (t : Time) (hgates : s.spin.gates = .commutating)
    (hstate : s.spin.state = 1 ∨ s.spin.state = 2) : exec (.speedTargetReached t) s =
      .next ((((((s.at t).updSpin fun p => { p with
        state := if s.spin.target = 10800 ∧ s.spin.reverse = false then 3 else 4, rpm := s.spin.target }).retune
          s.spin.target).spindleDone s.spin.target).followBringup).drain) := by
  show execSpeedTargetReached t s = _
  simp only [execSpeedTargetReached, State.at_spin, hgates, hstate, and_self, if_true, Bool.not_eq_true']
  rfl

/-- Settles O46, from what a start makes of the spindle and from the conditions of the three commands that start it. -/
theorem spindleStarts : Obligations.SpindleStarts := by
  intro t g s s1 s0 cold good
  have hcold (a : State) (ha : ∃ n, a = s1.updSpin fun p => { p with attempts := n }) (hgood : good) :
      cold (.next (a.startSpindle g)) := by
    obtain ⟨n, rfl⟩ := ha
    obtain ⟨hstill, hsync, hke⟩ := hgood
    obtain ⟨e, v, hu⟩ := State.startSpindle_synced (s1.updSpin fun p => { p with attempts := n }) hstill hsync hke
    exact ⟨_, congrArg _ hu, rfl, rfl, rfl, rfl, rfl, rfl, rfl, rfl, rfl, rfl, rfl, rfl, rfl⟩
  refine ⟨fun hdue hmay hrest => ?_, fun hdue hmay hwait => ?_, fun hdue hmay => ?_, exec_speedTargetReached t⟩
  · have hexec := exec_spindleStart_due t g hmay hdue hrest
    refine ⟨hexec, fun hgood => hexec ▸ hcold s0 ⟨0, rfl⟩ hgood, fun hstill hsync => ?_⟩
    rw [hexec, State.startSpindle_failed _ hstill hsync]
    exact ⟨_, rfl, rfl, rfl, rfl, rfl⟩
  · have hexec := exec_spindleStartRetry_due t g hmay hdue hwait
    refine ⟨hexec, fun hgood => hexec ▸ hcold s1 ⟨s.spin.attempts, rfl⟩ hgood, fun hstill hsync hlast => ?_⟩
    rw [hexec, State.startSpindle_failed _ hstill hsync, State.startFailed_third]
    · exact ⟨_, rfl, rfl⟩
    · exact hlast
  · have hexec := exec_spindleRestart_due t g hmay hdue
    exact ⟨hexec, fun hgood => hexec ▸ hcold s0 ⟨0, rfl⟩ hgood⟩

/-! ### Comparator trips, stalls, stops and wedge lock (R409, R412, R413, R415, R438, R706) -/

section Stops

variable {s : State} (t : Time)

theorem exec_comparatorTrip_noted (hdriven : s.spin.gates = .commutating ∨ s.spin.gates = .braking)
    (hfirst : (s.at t).highSideOff = false) : exec (.comparatorTrip t false) s =
      .next ((s.at t).updSpin fun p => { p with
        tripPeriods := (s.at t).pwmPeriod ::
          p.tripPeriods.filter fun k => decide ((s.at t).pwmPeriod < k + 100 * p.params.fPwm) }) := by
  have hcond : (false || (s.at t).spin.gates == .off || (s.at t).spin.gates == .lowSide ||
      (s.at t).highSideOff) = false := by
    rw [hfirst, State.at_spin]
    rcases hdriven with h | h <;> rw [h] <;> rfl
  show execComparatorTrip t false s = _
  simp only [execComparatorTrip, hcond, Bool.false_eq_true, if_false]
  rfl

theorem exec_comparatorTrip_blanked : exec (.comparatorTrip t true) s = .next (s.at t) := rfl

theorem exec_spindleStall_stalled (rpm : Nat) (hstalled : (s.at t).stalled = true)
    (hgates : s.spin.gates = .commutating) : exec (.spindleStall t rpm) s =
      .next ((((((s.at t).updSpin fun p => { p with stalls := p.stalls + 1, rpm := rpm }).log 0x0507 [arg rpm]).updSlot 8
        LoopSlot.disable).spindleDrop).drain) := by
  have hcond : ((s.at t).stalled && (s.at t).spin.gates == .commutating) = true := by
    rw [hstalled, State.at_spin, hgates]
    rfl
  show execSpindleStall t rpm s = _
  simp only [execSpindleStall, hcond, if_true]

theorem exec_spindleStop_turning (hturns : s.spin.state ≠ 0) (hfree : s.spin.state ≠ 5)
    (hidle : s.runs [.spindle] = false) : exec (.spindleStop t) s = .next ((s.at t).brakeSpindle.checkGuarantee) := by
  have hidle' : (s.at t).runs [.spindle] = false := hidle
  show execSpindleStop t s = _
  simp only [execSpindleStop, State.at_spin, hidle', beq_false_of_ne hturns, beq_false_of_ne hfree, Bool.or_self,
    Bool.false_eq_true, if_false]

/-- Outside lock-out and with the motor-control release, a stop clears slot 8's ENABLE and brakes (R415). -/
theorem State.brakeSpindle_brakes (hturns : s.spin.state ≠ 0) (hlock : s.spin.lockout = false)
    (hrelease : s.quill.motorRelease = true) : s.brakeSpindle.spin.state = 5 ∧ s.brakeSpindle.spin.gates = .braking ∧
      (s.brakeSpindle.slot 8).enable = false := by
  simp only [State.brakeSpindle, if_neg hturns, hlock, hrelease, Bool.false_eq_true, if_false, if_true]
  exact ⟨rfl, rfl, congrArg LoopSlot.enable (s.slot_updSlot_same 8 LoopSlot.disable)⟩

theorem exec_brakeBelowThreshold_braking (hgates : s.spin.gates = .braking) : exec (.brakeBelowThreshold t) s =
    .next ((s.at t).updSpin fun p => { p with
      gates := .lowSide, gatesAt := (s.at t).now, rpm := min p.rpm 299, tripPeriods := [] }) := by
  show execBrakeBelowThreshold t s = _
  simp only [execBrakeBelowThreshold, State.at_spin, hgates, if_true]

theorem exec_brakeHoldEnd_over (hgates : s.spin.gates = .lowSide) (hwait : s.spin.gatesAt + 1000000000 ≤ (s.at t).now) :
    exec (.brakeHoldEnd t) s = .next (s.at t).rest :=
  congrArg Host.Outcome.next (if_pos ⟨hgates, hwait⟩)

theorem exec_spindleBrakeTimeout_turning {rpm : Nat} (hgates : s.spin.gates = .braking)
    (hwait : s.spin.gatesAt + 10000000000 ≤ (s.at t).now) (hfast : 300 ≤ rpm) : exec (.spindleBrakeTimeout t rpm) s =
      .next (((s.at t).gatesOff.updSpin fun p => { p with rpm := rpm }).log 0x0509 [arg rpm]) :=
  congrArg Host.Outcome.next (if_pos ⟨hgates, hwait, hfast⟩)

theorem exec_coastStopped_coasting (hcoasts : s.spin.state = 6) (hwait : s.spin.gatesAt + 100000000 ≤ (s.at t).now) :
    exec (.coastStopped t) s = .next (s.at t).rest :=
  congrArg Host.Outcome.next (if_pos ⟨hcoasts, hwait⟩)

/-- COMM_OFFSET keeps the value that it has, if it has one (R409). -/
theorem exec_wedgeLockGained_decoding (offset : Int) (hgates : s.spin.gates = .commutating)
    (hdecodes : s.hdA.decoding = true ∨ s.hdB.decoding = true) (hnot : s.spin.wedgeLock = false) :
    exec (.wedgeLockGained t offset) s = .next ((s.at t).updSpin fun p => { p with
      wedgeLock := true, commOffset := some (p.commOffset.getD offset) }) :=
  congrArg Host.Outcome.next (if_pos ⟨hgates, Bool.or_eq_true_iff.2 hdecodes, hnot⟩)

theorem exec_wedgeLockLost_neither (hA : s.hdA.decoding = false) (hB : s.hdB.decoding = false) :
    exec (.wedgeLockLost t) s = .next ((s.at t).updSpin fun p => { p with wedgeLock := false }) := by
  show execWedgeLockLost t s = _
  simp only [execWedgeLockLost, State.at_hdA, State.at_hdB, hA, hB, Bool.not_false, Bool.and_self, if_true]

end Stops

/-- Settles O47, from what each of the spindle's events answers where its conditions hold. -/
theorem spindleStopsAndTrips : Obligations.SpindleStopsAndTrips := by
  intro t rpm s s1 p
  exact ⟨exec_comparatorTrip_noted t, exec_comparatorTrip_blanked t, exec_spindleStall_stalled t rpm,
    exec_spindleStop_turning t, State.brakeSpindle_brakes (s := s1), exec_brakeBelowThreshold_braking t,
    exec_brakeHoldEnd_over t, exec_spindleBrakeTimeout_turning t, exec_coastStopped_coasting t,
    exec_wedgeLockGained_decoding t, exec_wedgeLockLost_neither t⟩

/-! ### Seeks and the source of the sled slot (R423, R424, R425) -/

section Seeks

variable {s : State} (t : Time) (h : Head)

/-- SLED_SEEK within the travel enables the sled slot and starts the profile from where the sled stands (R424). -/
theorem exec_sledSeek_within {nm : Nat} (hservo : s.servoOn = true) (hforward : s.spin.reverse = false)
    (hpassed : (s.calUnit 6 h 0).status = .passed) (hlo : 30500000 ≤ nm) (hhi : nm ≤ 70500000) :
    exec (.sledSeek t h nm) s =
      .next (((s.at t).runSled h).startSeek h nm (if s.mounted then bandAt nm else none)) := by
  have hcond : ((s.at t).servoOn && !(s.at t).spin.reverse && ((s.at t).calUnit 6 h 0).status == .passed &&
      within 30500000 70500000 nm) = true := by
    have hservo' : (s.at t).servoOn = true := hservo
    have hpassed' : ((s.at t).calUnit 6 h 0).status = .passed := hpassed
    rw [hservo', State.at_spin, hforward, hpassed', within, decide_eq_true hlo, decide_eq_true hhi]
    rfl
  show execSledSeek t h nm s = _
  simp only [execSledSeek, hcond, if_true]
  rfl

/-- The sled slot's ENABLE changes the Loop Engine alone, and the seek what its head's sled follows. -/
theorem State.startSeek_runSled (s : State) (nm : Nat) (band : Option Nat) : ∃ e, (s.runSled h).startSeek h nm band =
    { s with loop := e }.updHd h fun d => { d with
      sledMode := .seek, seekNm := nm, seekBand := band, seekAt := s.now
      seekTime := profileTime s.spin.sled (distance d.sledNm nm), parked := false, quiet := 0 } := by
  obtain ⟨e, he⟩ := s.enableSlot_eq (headSlot h 3)
  exact ⟨e, by rw [State.runSled, he]; rfl⟩

section Settled

variable (hseek : (s.hd h).sledMode = .seek) (hover : (s.hd h).seekAt + (s.hd h).seekTime ≤ (s.at t).now)
  (hquiet : 32 ≤ (s.hd h).quiet)
include hseek hover hquiet

/-- A settled seek onto data follows the spiral from a band 0 to 2 before its target and seeks again from another (R425). -/
theorem exec_seekSettled_band {want : Nat} (got : Nat) (hband : (s.hd h).seekBand = some want) :
    exec (.seekSettled t h (some got)) s =
      .next (if beforeBand (outward h (s.hd h).layer) want got then (s.at t).startFollow h (bandRadius got)
        else ((s.at t).updHd h fun x => { x with sledNm := bandRadius got }).startSeek h (bandRadius want) (some want)) := by
  have hband' : ((s.at t).hd h).seekBand = some want := hband
  refine congrArg Host.Outcome.next ((if_pos ⟨hseek, hover, hquiet⟩).trans ?_)
  rw [hband']
  rfl

theorem exec_seekSettled_noBand : exec (.seekSettled t h none) s =
    .next ((s.at t).updHd h fun x => { x with sledMode := .hold, sledNm := x.seekNm }) := by
  refine congrArg Host.Outcome.next ((if_pos ⟨hseek, hover, hquiet⟩).trans ?_)
  cases ((s.at t).hd h).seekBand <;> rfl

end Settled

theorem exec_sledSourceSwitch_on (on : Bool) (hservo : s.servoOn = true) (hforward : on = true → s.spin.reverse = false) :
    exec (.sledSourceSwitch t h on) s = .next ((s.at t).sledSource h on) := by
  have hcond : ((s.at t).servoOn && !(on && (s.at t).spin.reverse)) = true := by
    have hservo' : (s.at t).servoOn = true := hservo
    rw [hservo', State.at_spin]
    cases on with
    | false => rfl
    | true => rw [hforward rfl]; rfl
  show execSledSourceSwitch t h on s = _
  simp only [execSledSourceSwitch, hcond, if_true]

end Seeks

/-! ### Captures and jumps (R428, R429, R430, R431, R701) -/

section Captures

variable {s : State} (t : Time) (h : Head) {l : List CaptureSense}

/-- A capture that locks closes focus where it locked, and jumps where that is not the head's layer (R428, R429). -/
theorem State.capture_locks {c : CaptureSense} (hlock : (l.take 3).find? (·.locked) = some c) :
    s.capture h l = if c.layer = (s.hd h).layer then s.closeFocus h (s.hd h).layer
      else (s.closeFocus h c.layer).jumpTo h (s.hd h).layer := by
  simp only [State.capture, hlock]

/-- Three attempts of which none locks fail the capture (R429). -/
theorem State.capture_fails (hnone : (l.take 3).any (·.locked) = false) (hthree : 3 ≤ l.length) :
    s.capture h l = s.captureFails h := by
  have hlock : (l.take 3).find? (·.locked) = none := by
    simpa only [List.find?_eq_none, List.any_eq_false] using hnone
  simp only [State.capture, hlock, List.length_take, Nat.min_eq_left hthree, if_true]

variable (hsweep : s.canSweep h = true)
include hsweep

theorem exec_focusCapture_free (hfree : (s.hd h).captured = false) :
    exec (.focusCapture t h l) s = .next ((s.at t).capture h l) := by
  have hcond : ((s.at t).canSweep h && !((s.at t).hd h).captured) = true := by
    have hsweep' : (s.at t).canSweep h = true := hsweep
    have hfree' : ((s.at t).hd h).captured = false := hfree
    rw [hsweep', hfree']
    rfl
  show execFocusCapture t h l s = _
  simp only [execFocusCapture, hcond, if_true]

theorem exec_headRecapture_needed (hneed : (s.hd h).needRecapture = true) :
    exec (.headRecapture t h l) s = .next ((s.at t).capture h l) :=
  congrArg Host.Outcome.next (if_pos (Bool.and_eq_true_iff.2 ⟨hsweep, hneed⟩))

theorem exec_layerJump_captured {target : Nat} (hcaptured : (s.hd h).captured = true) (hlayer : target ≤ 11)
    (hother : target ≠ (s.hd h).layer) : exec (.layerJump t h target) s = .next ((s.at t).jumpTo h target) := by
  refine congrArg Host.Outcome.next (if_pos ?_)
  simp only [Bool.and_eq_true, decide_eq_true_eq, bne_iff_ne]
  exact ⟨⟨⟨hsweep, hcaptured⟩, hlayer⟩, hother⟩

end Captures

/-- The head's tracking generator moved by one track (R431). -/
def HeadState.jumpTrack (out : Bool) (d : HeadState) : HeadState :=
  let n : Int := if out then 1 else -1
  { d with trackOffset := d.trackOffset + n, genTrack := sat16 (d.genTrack + n * Config.trackPitchDrive) }

theorem exec_trackJump_ladder {s : State} (t : Time) (h : Head) (out : Bool) (hcaptured : (s.hd h).captured = true)
    (hladder : s.ladder h = 5) : exec (.trackJump t h out) s =
      .next ((((s.at t).disableSlot (headSlot h 1)).updHd h (HeadState.jumpTrack out)).enableSlot (headSlot h 1)) := by
  refine congrArg Host.Outcome.next (if_pos ?_)
  exact Bool.and_eq_true_iff.2 ⟨hcaptured, beq_iff_eq.2 hladder⟩

/-! ### Parks (R427, R439) -/

theorem exec_park_on {s : State} (t : Time) (h : Head) (hservo : s.servoOn = true) :
    exec (.park t h) s = .next ((s.at t).parkHead h) :=
  congrArg Host.Outcome.next (if_pos hservo)

section Parks

variable (s : State) (h : Head)

/-- What PARK makes of its head: the sled at 30.5 mm, and nothing captured or decoded there (R427). -/
def HeadState.park (d : HeadState) : HeadState :=
  { d with sledNm := 30500000, sledMode := .hold, parked := true, captured := false, decoding := false, seekBand := none
           prefocus := none, trackOffset := 0, closing := false }

/-- What an emergency park makes of each head: its generators at 0 and its sled held where it is (R439). -/
def HeadState.halt (d : HeadState) : HeadState :=
  { d with genFocus := 0, genTrack := 0, genTilt := 0, sledMode := .hold, captured := false, decoding := false
           closing := false }

@[simp] theorem State.idleSlots_hd (l : List LoopId) : (s.idleSlots l).hd = s.hd :=
  foldl_keeps State.hd (fun u i => u.updSlot i LoopSlot.disable) (fun _ _ => rfl) l s

/-- The loops of a head but its sled's are IDLE, SERVO_READY is clear and its lanes are OFF. -/
def State.darkHead : State :=
  ((s.idleSlots ((headSlots h).take 3)).clearReady h).updBeams h fun b => { b with level := .off }

@[simp] theorem State.darkHead_hd : (s.darkHead h).hd = s.hd :=
  calc (s.darkHead h).hd = ((s.idleSlots ((headSlots h).take 3)).clearReady h).hd := rfl
    _ = (s.idleSlots ((headSlots h).take 3)).hd := (State.KeepsChain.clearReady _ h).hd
    _ = s.hd := s.idleSlots_hd _

theorem State.parkHead_eq : s.parkHead h = (s.darkHead h).updHd h HeadState.park := rfl

theorem State.emergencyPark_eq : s.emergencyPark =
    ((((s.darkHead .a).updHd .a HeadState.halt).darkHead .b).updHd .b HeadState.halt).gatesOff := rfl

theorem State.parkHead_hd : (s.parkHead h).hd h = (s.hd h).park := by
  rw [State.parkHead_eq, State.hd_updHd_same, State.darkHead_hd]

/-- An emergency park halts both heads. -/
theorem State.emergencyPark_hd : s.emergencyPark.hd h = (s.hd h).halt := by
  rw [State.emergencyPark_eq, (State.KeepsChain.gatesOff _).hd]
  cases h with
  | a =>
    rw [State.hd_updHd_ne _ _ (by decide), State.darkHead_hd, State.hd_updHd_same, State.darkHead_hd]
  | b =>
    rw [State.hd_updHd_same, State.darkHead_hd, State.hd_updHd_ne _ _ (by decide), State.darkHead_hd]

end Parks

/-- Settles O48, from what each of the moves answers where its conditions hold. -/
theorem headsMove : Obligations.HeadsMove := by
  intro t h s s1 d
  refine ⟨fun nm hservo hforward hpassed hlo hhi => ?_, fun hseek hover hquiet =>
    ⟨fun want got hband hnear => ?_, fun want got hband hfar => ?_, exec_seekSettled_noBand t h hseek hover hquiet⟩,
    exec_sledSourceSwitch_on t h, fun l c hsweep hlock => ⟨fun hfree => ?_, fun hneed => ?_⟩,
    fun l hsweep hnone hthree hfree => ?_, fun target hsweep => exec_layerJump_captured t h hsweep,
    fun out hcaptured hladder => ⟨HeadState.jumpTrack out, exec_trackJump_ladder t h out hcaptured hladder,
      fun x => ⟨rfl, rfl, rfl⟩⟩, fun hservo => ⟨exec_park_on t h hservo, ?_⟩, rfl, rfl, ?_⟩
  · obtain ⟨e, he⟩ := s1.startSeek_runSled h nm (if s.mounted then bandAt nm else none)
    refine ⟨_, exec_sledSeek_within t h hservo hforward hpassed hlo hhi, ?_⟩
    rw [he]
    cases h <;> exact ⟨rfl, rfl, rfl, rfl, rfl, rfl, rfl, rfl, rfl⟩
  · rw [exec_seekSettled_band t h hseek hover hquiet got hband, if_pos hnear]
    rfl
  · rw [exec_seekSettled_band t h hseek hover hquiet got hband, if_neg (Bool.eq_false_iff.1 hfar)]
  · rw [exec_focusCapture_free t h hsweep hfree, State.capture_locks h hlock]
    rfl
  · rw [exec_headRecapture_needed t h hsweep hneed, State.capture_locks h hlock]
    rfl
  · rw [exec_focusCapture_free t h hsweep hfree, State.capture_fails h hnone hthree]
  · rw [State.parkHead_hd]
    exact ⟨rfl, rfl, rfl⟩
  · rw [State.emergencyPark_hd]
    exact ⟨rfl, rfl, rfl⟩

end Sys2Proof.Machine

/-! PROOF. The handshake fabric family (12_handshake_fabric): the readings of the pace chains, the tick of the pace monitor,
the words of the crossing bridges, their resets and overflows, and the islands that lose their clock. -/

namespace Sys2Proof.Machine

/-! ### Readings and the tick (R442, R443, R447, R467) -/

section Readings

variable (s : State) (i : Fin 6) (p : Nat)

theorem execPaceWindow_eq (t : Time) (counts : List Nat) : exec (.paceWindow t counts) s =
    .next ([0, 1, 2, 3, 4, 5].foldl (fun u i => u.paceRead i (counts.getD i.val 0)) (s.at t)) := by
  have hchains : List.finRange 6 = [0, 1, 2, 3, 4, 5] := by decide
  show execPaceWindow t counts s = _
  rw [execPaceWindow, hchains]

theorem State.paceRead_unpowered (hoff : s.chainOn i = false) : s.paceRead i p = s :=
  if_neg (by rw [hoff]; exact Bool.false_ne_true)

/-- A reading within 1 to 4,000 makes no chain faulty (R467). -/
theorem State.paceFault_inRange (hlo : 0 < p) (hhi : p ≤ 4000) : s.paceFault i p = s :=
  if_neg (by omega)

/-- PACE_LOW is a log entry: no chain follows from it (R466). -/
@[simp] theorem State.paceLow_chains : (s.paceLow i p).pace.chains = s.pace.chains := by
  rw [State.paceLow]
  split
  · obtain ⟨v, hlog⟩ := s.log_eq 0x0603 [arg (i.val + 2), arg p, arg s.pace.vcore]
    rw [hlog]
    rfl
  · rfl

/-- A chain that is powered throughout the window and not faulty holds the window's count. -/
theorem State.paceRead_latest (hon : s.chainOn i = true) (hsince : (s.pace.chains[i]).since + 10000 ≤ s.now)
    (hgood : (s.pace.chains[i]).faulty = false) (hlo : 0 < p) (hhi : p ≤ 4000) :
    ((s.paceRead i p).pace.chains[i]).latest = p := by
  have hread : (s.chainOn i && decide ((s.pace.chains[i]).since + 10000 ≤ s.now)) = true := by
    rw [hon, decide_eq_true hsince]
    rfl
  rw [State.paceRead, if_pos hread]
  simp only [s.paceFault_inRange i p hlo hhi, hgood, State.paceLow_chains, State.updChain, State.updPace,
    Vec.getElem_upd_same, Bool.false_eq_true, if_false]

/-- A tick moves VCORE by one step of 10 mV, up or down, or not at all (R447). -/
theorem State.vcoreStep_cases : s.vcoreStep = 10 ∨ s.vcoreStep = 0 ∨ s.vcoreStep = -10 := by
  simp only [State.vcoreStep]
  split
  · exact .inl rfl
  · split
    · exact .inr (.inr rfl)
    · exact .inr (.inl rfl)

end Readings

/-! ### The bridges of the part -/

section Bridges

variable (s : State) (n : Nat)

theorem State.bridge_number : (s.bridge n).number = n := by
  rw [State.bridge]
  cases hfind : s.bridges.find? fun b => b.number == n with
  | none => rfl
  | some b =>
    have hself := List.find?_some hfind
    exact eq_of_beq hself

/-- The bridge that is put into a list is the one found there, whatever the order of the list. -/
theorem find?_putBridge (b : Bridge) (l : List Bridge) :
    (putBridge b l).find? (fun x => x.number == b.number) = some b := by
  have hself : ∀ xs : List Bridge, (b :: xs).find? (fun x => x.number == b.number) = some b := fun xs =>
    List.find?_cons_of_pos (beq_self_eq_true _)
  induction l with
  | nil => exact hself []
  | cons x xs ih =>
    rw [putBridge]
    split
    case isTrue hlt => rw [List.find?_cons_of_neg (by simp only [beq_iff_eq]; omega), ih]
    case isFalse =>
      split
      · exact hself xs
      · exact hself (x :: xs)

variable {f g : Bridge → Bridge}

/-- A change of a bridge is what it makes of the bridge that stands there. -/
theorem State.updBridge_congr (h : f (s.bridge n) = g (s.bridge n)) : s.updBridge n f = s.updBridge n g := by
  rw [State.updBridge, State.updBridge, h]

theorem State.bridge_updBridge_same (hnumber : (f (s.bridge n)).number = n) :
    (s.updBridge n f).bridge n = f (s.bridge n) := by
  have hfind := find?_putBridge (f (s.bridge n)) s.bridges
  rw [hnumber] at hfind
  rw [State.bridge, State.updBridge, hfind]
  rfl

end Bridges

/-! ### Words through a bridge (R455, R461, Table 12.4) -/

section Words

variable {b : Bridge}

theorem Bridge.write_disarmed (w : Nat) (harmed : b.armed = false) :
    b.write w = { b with flushed := satAdd b.flushed 1 } := by
  rw [Bridge.write, harmed]
  rfl

theorem Bridge.write_full (w : Nat) (harmed : b.armed = true) (hfull : b.full = true) : b.write w = b := by
  rw [Bridge.write, harmed, hfull]
  rfl

theorem Bridge.write_room (w : Nat) (harmed : b.armed = true) (hroom : b.words.length < bridgeDepth b.number) :
    b.write w = { b with words := b.words ++ [w], wr := (b.wr + 1) % (2 * bridgeDepth b.number) } := by
  have hfull : b.full = false := decide_eq_false (Nat.not_le.2 hroom)
  rw [Bridge.write, harmed, hfull]
  rfl

/-- Words for which there is room wait behind those there, in the order in which they are written, and none is
discarded. -/
theorem Bridge.foldl_write (ws : List Nat) (harmed : b.armed = true)
    (hroom : b.words.length + ws.length ≤ bridgeDepth b.number) :
    (ws.foldl Bridge.write b).words = b.words ++ ws ∧ (ws.foldl Bridge.write b).flushed = b.flushed := by
  induction ws generalizing b with
  | nil => exact ⟨(List.append_nil _).symm, rfl⟩
  | cons w ws ih =>
    rw [List.length_cons] at hroom
    rw [List.foldl_cons, Bridge.write_room w harmed (by omega)]
    obtain ⟨hwords, hflushed⟩ := ih (b := { b with words := b.words ++ [w]
                                                   wr := (b.wr + 1) % (2 * bridgeDepth b.number) }) harmed (by
      simp only [List.length_append, List.length_singleton]
      omega)
    exact ⟨hwords.trans (List.append_assoc _ _ _), hflushed⟩

theorem Bridge.read_cons {w : Nat} {rest : List Nat} (hwords : b.words = w :: rest) :
    b.read.1 = some w ∧ b.read.2.words = rest := by
  simp only [Bridge.read, hwords, and_self]

end Words

/-! ### Peer resets (R459, R461 to R463) -/

theorem Bridge.arm_armed (b : Bridge) : b.arm.armed = true ↔ b.fabricReset = false ∧ b.islandReset = false := by
  simp only [Bridge.arm, Bool.and_eq_true, Bool.not_eq_true']

/-- A side enters reset, and the other stays as it was. -/
theorem Bridge.setReset_on (side : Side) (b : Bridge) : b.setReset side true =
    { b with fabricReset := b.fabricReset || side == .fabric, islandReset := b.islandReset || side == .island } := by
  cases side <;> simp [Bridge.setReset]

/-- What a peer reset of one side makes of a bridge, `k` items of which are discarded (Table 12.6). -/
def Bridge.peerReset (side : Side) (k : Nat) (b : Bridge) : Bridge :=
  { b with words := [], wr := 0, rd := 0, armed := false, flushed := satAdd b.flushed k
           fabricReset := b.fabricReset || side == .fabric, islandReset := b.islandReset || side == .island }

/-- A flushed bridge whose side enters reset has lost its words and those in its write path. -/
theorem Bridge.flush_setReset (b : Bridge) (side : Side) (items : Nat) :
    (b.flush items).setReset side true = b.peerReset side (b.words.length + items) :=
  Bridge.setReset_on side (b.flush items)

/-- A drained bridge has nothing to lose. -/
theorem Bridge.drained_setReset (b : Bridge) (side : Side) :
    (({ b with words := [] } : Bridge).flush 0).setReset side true = b.peerReset side 0 :=
  Bridge.flush_setReset { b with words := [] } side 0

section PeerResets

variable {s : State} (t : Time) {n : Nat} (side : Side) (items : Nat)

/-- An island whose PLL is out of lock stays in reset. -/
theorem exec_peerResetDeassert_held (hheld : s.islandHeld n = true) :
    exec (.peerResetDeassert t n .island) s = .next (s.at t) := by
  have hheld' : (s.at t).islandHeld n = true := hheld
  show execPeerResetDeassert t n .island s = _
  simp only [execPeerResetDeassert, hheld', beq_self_eq_true, Bool.and_self, Bool.or_true, if_true]

variable (hexists : bridgeExists n = true)
include hexists

/-- An unplanned peer reset discards what is in the bridge and in its write path, tells the owner and logs
BRIDGE_FLUSH. -/
theorem exec_peerResetAssert_unplanned :
    let k := (s.bridge n).words.length + items
    let v := ((s.at t).updBridge n (Bridge.peerReset side k)).lostItems n k
    exec (.peerResetAssert t n side items false) s = .next (v.log 0x0601 [arg n, (match side with
      | .fabric => 0
      | .island => 1), arg k, (v.bridge n).flushed]) := by
  intro k v
  have hflush : ((s.at t).updBridge n fun b => (b.flush items).setReset side true) =
      (s.at t).updBridge n (Bridge.peerReset side k) :=
    State.updBridge_congr _ _ (Bridge.flush_setReset _ side items)
  show execPeerResetAssert t n side items false s = _
  simp only [execPeerResetAssert, hexists, hflush, Bool.not_true, Bool.false_eq_true, if_false]
  rfl

/-- A planned peer reset finds the bridge drained and tells nobody. -/
theorem exec_peerResetAssert_planned : exec (.peerResetAssert t n side items true) s =
    .next ((s.at t).updBridge n (Bridge.peerReset side 0)) := by
  show execPeerResetAssert t n side items true s = _
  simp only [execPeerResetAssert, hexists, Bridge.drained_setReset, Bool.not_true, Bool.false_eq_true, if_false,
    if_true]

theorem exec_peerResetDeassert_free (hfree : side = .fabric ∨ s.islandHeld n = false) :
    exec (.peerResetDeassert t n side) s = .next ((s.at t).updBridge n fun b => (b.setReset side false).arm) := by
  have hcond : (side == .island && (s.at t).islandHeld n) = false := by
    obtain rfl | hheld := hfree
    · rfl
    · exact Bool.and_eq_false_imp.2 fun _ => hheld
  show execPeerResetDeassert t n side s = _
  simp only [execPeerResetDeassert, hexists, hcond, Bool.not_true, Bool.or_self, Bool.false_eq_true, if_false]

end PeerResets

/-! ### Overflows (R457, R461) -/

section Overflows

variable {s : State} (t : Time) {n : Nat} (hcan : canOverflow n = true) (harmed : (s.bridge n).armed = true)
include hcan harmed

/-- With its receiver below P = 1,000 a full bridge loses the word, which is counted and logged. -/
theorem exec_bridgeOverflow_slow (hslow : s.receiverPace n < 1000) : exec (.bridgeOverflow t n) s =
    .next ((((s.at t).updBridge n fun b => { b with overflows := satAdd b.overflows 1 }).lostItems n 1).log 0x0602
      [arg n, (((s.at t).updBridge n fun b => { b with overflows := satAdd b.overflows 1 }).bridge n).overflows]) := by
  have harmed' : ((s.at t).bridge n).armed = true := harmed
  have hslow' : ¬1000 ≤ (s.at t).receiverPace n := Nat.not_le.2 hslow
  show execBridgeOverflow t n s = _
  simp only [execBridgeOverflow, hcan, harmed', hslow', Bool.not_true, Bool.false_eq_true, if_false]

theorem exec_bridgeOverflow_paced (hpaced : 1000 ≤ s.receiverPace n) :
    exec (.bridgeOverflow t n) s = .next (s.at t) := by
  have harmed' : ((s.at t).bridge n).armed = true := harmed
  have hpaced' : 1000 ≤ (s.at t).receiverPace n := hpaced
  show execBridgeOverflow t n s = _
  simp only [execBridgeOverflow, hcan, harmed', hpaced', Bool.not_true, Bool.false_eq_true, if_false, if_true]

end Overflows

/-! ### Islands without their clock (R463, R686) -/

section Islands

variable {s : State} (t : Time) {i : Island}

theorem exec_pllLockLoss_locked (hlocked : s.pwr.pllLost.contains i = false) : exec (.pllLockLoss t i) s =
    .next (((islandBridges i).foldl (fun u n => u.updBridge n fun b => { b with armed := false, islandReset := true })
      ((s.at t).updPwr fun w => { w with pllLost := putIsland i w.pllLost })).islandLost i) :=
  congrArg Host.Outcome.next (if_neg (Bool.eq_false_iff.1 hlocked))

/-- An island out of reset leaves its bridges to the fabric's side alone. -/
theorem Bridge.setReset_island_arm (b : Bridge) :
    (b.setReset .island false).arm = { b with armed := !b.fabricReset, islandReset := false } := by
  simp only [Bridge.setReset, Bridge.arm, Bool.not_false, Bool.and_true]

theorem exec_pllRelock_lost (hlost : s.pwr.pllLost.contains i = true) : exec (.pllRelock t i) s =
    .next ((islandBridges i).foldl
      (fun u n => u.updBridge n fun b => { b with armed := !b.fabricReset, islandReset := false })
      ((s.at t).updPwr fun w => { w with pllLost := w.pllLost.erase i })) := by
  show execPllRelock t i s = _
  simp only [execPllRelock, State.at_pwr, hlost, if_true, Bridge.setReset_island_arm]

end Islands

/-- Settles O55, from the reading of one chain, the tick, the words of one bridge, and what each of the bridges' and the
islands' commands answers. -/
theorem paceAndBridges : Obligations.PaceAndBridges := by
  intro t s s1
  refine ⟨execPaceWindow_eq s t, fun u i p hon hsince hgood => u.paceRead_latest i p hon hsince hgood,
    fun u i p => u.paceRead_unpowered i p, rfl, State.vcoreStep_cases, fun b ws harmed hroom => ?_,
    fun b w => ⟨Bridge.write_full w, fun hoff => ?_⟩, fun n items side hexists => ⟨?_, ?_⟩,
    fun n side hexists => exec_peerResetDeassert_free t side hexists, fun n _ => exec_peerResetDeassert_held t,
    Bridge.arm_armed, fun n => exec_bridgeOverflow_slow t, fun n => exec_bridgeOverflow_paced t,
    fun i => exec_pllLockLoss_locked t, fun i => exec_pllRelock_lost t⟩
  · obtain ⟨hwords, hflushed⟩ := Bridge.foldl_write ws harmed hroom
    refine ⟨hwords, hflushed, fun hempty w rest hws => Bridge.read_cons ?_⟩
    rw [hwords, hempty, hws]
    rfl
  · rw [Bridge.write_disarmed w hoff]
    exact ⟨rfl, rfl⟩
  · exact exec_peerResetAssert_unplanned t side items hexists
  · refine ⟨_, exec_peerResetAssert_planned t side items hexists, ?_⟩
    rw [s1.bridge_updBridge_same n (s.bridge_number n)]
    exact ⟨rfl, rfl, rfl⟩

end Sys2Proof.Machine

/-! PROOF. The queue of commands: a step takes the command at its front, and no command touches the rest. -/

namespace Sys2Proof.Machine

/-! ### Every command leaves the queue alone -/

/-- No command reads or writes the queue, which only the step takes from. -/
theorem exec_pending (c : Instr) {s u : State} (hnext : exec c s = .next u) : u.pending = s.pending := by
  cases c with
  | sqTailDoorbell t fn q value => exact execSqTailDoorbell_pending t fn q value s u hnext
  | cqHeadDoorbell t fn q value => exact execCqHeadDoorbell_pending t fn q value s u hnext
  | queueEnable t fn q ctrl => exact execQueueEnable_pending t fn q ctrl s u hnext
  | queueDelete t fn q ctrl => exact execQueueDelete_pending t fn q ctrl s u hnext
  | queueDeletionComplete t fn q => exact execQueueDeletionComplete_pending t fn q s u hnext
  | restart t fn q ctrl => exact execRestart_pending t fn q ctrl s u hnext
  | commandFetch t entries => exact execCommandFetch_pending t entries s u hnext
  | fetchReadError t fn q addr => exact execFetchReadError_pending t fn q addr s u hnext
  | dmaReadError t c => exact execDmaReadError_pending t c s u hnext
  | coalesceTimerExpiry t fn q => exact execCoalesceTimerExpiry_pending t fn q s u hnext
  | inboundBudgetWindow t => exact execInboundBudgetWindow_pending t s u hnext
  | aspmL1Entry t => exact execAspmL1Entry_pending t s u hnext
  | configRequestNotReady t fn req => exact execConfigRequestNotReady_pending t fn req s u hnext
  | functionLevelReset t fn => exact execFunctionLevelReset_pending t fn s u hnext
  | linkDown t => exact execLinkDown_pending t s u hnext
  | hotReset t => exact execHotReset_pending t s u hnext
  | linkDisabled t => exact execLinkDisabled_pending t s u hnext
  | functionsReady t rate width => exact execFunctionsReady_pending t rate width s u hnext
  | perstNAssertion t lowNs => exact execPerstNAssertion_pending t lowNs s u hnext
  | quillBoot t katOk octalOk testEn => exact execQuillBoot_pending t katOk octalOk testEn s u hnext
  | identify t c => exact execIdentify_pending t c s u hnext
  | getPage t c => exact execGetPage_pending t c s u hnext
  | getParam t c => exact execGetParam_pending t c s u hnext
  | setParam t c => exact execSetParam_pending t c s u hnext
  | keyLoad t c => exact execKeyLoad_pending t c s u hnext
  | keyPurge t c => exact execKeyPurge_pending t c s u hnext
  | mount t c => exact execMount_pending t c s u hnext
  | unmount t c => exact execUnmount_pending t c s u hnext
  | clipOpen t c => exact execClipOpen_pending t c s u hnext
  | clipClose t c => exact execClipClose_pending t c s u hnext
  | frameAppend t c => exact execFrameAppend_pending t c s u hnext
  | auxAppend t c => exact execAuxAppend_pending t c s u hnext
  | read t c => exact execRead_pending t c s u hnext
  | frameRead t c => exact execFrameRead_pending t c s u hnext
  | metaRead t c => exact execMetaRead_pending t c s u hnext
  | metaWrite t c => exact execMetaWrite_pending t c s u hnext
  | lockAcquire t c => exact execLockAcquire_pending t c s u hnext
  | lockRelease t c => exact execLockRelease_pending t c s u hnext
  | lockClearAbandoned t c => exact execLockClearAbandoned_pending t c s u hnext
  | powerState t c => exact execPowerState_pending t c s u hnext
  | spindle t c => exact execSpindle_pending t c s u hnext
  | calibrate t c => exact execCalibrate_pending t c s u hnext
  | verifyCtl t c => exact execVerifyCtl_pending t c s u hnext
  | fwStage t c => exact execFwStage_pending t c s u hnext
  | fwActivate t c => exact execFwActivate_pending t c s u hnext
  | attest t c => exact execAttest_pending t c s u hnext
  | jtagUnlock t c => exact execJtagUnlock_pending t c s u hnext
  | undefinedOpcode t c => exact execUndefinedOpcode_pending t c s u hnext
  | fenceCommandStart t c => exact execFenceCommandStart_pending t c s u hnext
  | overlapReadResume t fn q cid => exact execOverlapReadResume_pending t fn q cid s u hnext
  | mountWaitRelease t => exact execMountWaitRelease_pending t s u hnext
  | bringupDeferredStart t fn q cid => exact execBringupDeferredStart_pending t fn q cid s u hnext
  | mediaCommandRunStart t fn q cid => exact execMediaCommandRunStart_pending t fn q cid s u hnext
  | clipOpenDeferredStart t fn q cid => exact execClipOpenDeferredStart_pending t fn q cid s u hnext
  | lockWaitTimeout t lock => exact execLockWaitTimeout_pending t lock s u hnext
  | heldFetchResume t fn q => exact execHeldFetchResume_pending t fn q s u hnext
  | fullWaitExpiry t fn q => exact execFullWaitExpiry_pending t fn q s u hnext
  | rateDeficitRepeat t => exact execRateDeficitRepeat_pending t s u hnext
  | frameDmaComplete t clip number data => exact execFrameDmaComplete_pending t clip number data s u hnext
  | clipCloseRecordQueued t => exact execClipCloseRecordQueued_pending t s u hnext
  | frameEncode t discards => exact execFrameEncode_pending t discards s u hnext
  | systemSectorWrite t => exact execSystemSectorWrite_pending t s u hnext
  | slotBegin t h => exact execSlotBegin_pending t h s u hnext
  | verifyVerdict t h b m => exact execVerifyVerdict_pending t h b m s u hnext
  | streamDry t => exact execStreamDry_pending t s u hnext
  | recordingResume t => exact execRecordingResume_pending t s u hnext
  | layerTurnaround t okA okB gains => exact execLayerTurnaround_pending t okA okB gains s u hnext
  | turnaroundTimeout t => exact execTurnaroundTimeout_pending t s u hnext
  | afeOffsetTrim t h b dev => exact execAfeOffsetTrim_pending t h b dev s u hnext
  | readPowerTrim t h b mean => exact execReadPowerTrim_pending t h b mean s u hnext
  | laserReferenceTrim t h b slope => exact execLaserReferenceTrim_pending t h b slope s u hnext
  | sramParityError t site byte parity => exact execSramParityError_pending t site byte parity s u hnext
  | parityAccumulatorError t h member byte parity =>
    exact execParityAccumulatorError_pending t h member byte parity s u hnext
  | codewordDetected t h b psa index speculative =>
    exact execCodewordDetected_pending t h b psa index speculative s u hnext
  | ldpcDecodeDone t h b index iterations result header =>
    exact execLdpcDecodeDone_pending t h b index iterations result header s u hnext
  | sectorTagCheck t psa => exact execSectorTagCheck_pending t psa s u hnext
  | erasureDecode t seq => exact execErasureDecode_pending t seq s u hnext
  | retryLadderStep t h recovered => exact execRetryLadderStep_pending t h recovered s u hnext
  | defectSpanOpen t h b psa field bit => exact execDefectSpanOpen_pending t h b psa field bit s u hnext
  | scurryRead t h sectors => exact execScurryRead_pending t h sectors s u hnext
  | speculativePrefocus t h => exact execSpeculativePrefocus_pending t h s u hnext
  | slotSample t slot sample => exact execSlotSample_pending t slot sample s u hnext
  | loopSlotEnable t slot on => exact execLoopSlotEnable_pending t slot on s u hnext
  | loopApply t slot => exact execLoopApply_pending t slot s u hnext
  | loopParityError t slot => exact execLoopParityError_pending t slot s u hnext
  | slot9FsyncTimeout t => exact execSlot9FsyncTimeout_pending t s u hnext
  | stoppedSourceReport t h => exact execStoppedSourceReport_pending t h s u hnext
  | spindleStart t sense => exact execSpindleStart_pending t sense s u hnext
  | spindleStartRetry t sense => exact execSpindleStartRetry_pending t sense s u hnext
  | speedTargetReached t => exact execSpeedTargetReached_pending t s u hnext
  | comparatorTrip t blanked => exact execComparatorTrip_pending t blanked s u hnext
  | spindleStall t rpm => exact execSpindleStall_pending t rpm s u hnext
  | spindleRestart t sense => exact execSpindleRestart_pending t sense s u hnext
  | spindleStop t => exact execSpindleStop_pending t s u hnext
  | brakeBelowThreshold t => exact execBrakeBelowThreshold_pending t s u hnext
  | brakeHoldEnd t => exact execBrakeHoldEnd_pending t s u hnext
  | spindleBrakeTimeout t rpm => exact execSpindleBrakeTimeout_pending t rpm s u hnext
  | coastStopped t => exact execCoastStopped_pending t s u hnext
  | wedgeLockGained t offset => exact execWedgeLockGained_pending t offset s u hnext
  | wedgeLockLost t => exact execWedgeLockLost_pending t s u hnext
  | sledSeek t h radiusNm => exact execSledSeek_pending t h radiusNm s u hnext
  | seekSettled t h band => exact execSeekSettled_pending t h band s u hnext
  | sledSourceSwitch t h decoding => exact execSledSourceSwitch_pending t h decoding s u hnext
  | focusCapture t h attempts => exact execFocusCapture_pending t h attempts s u hnext
  | layerJump t h target => exact execLayerJump_pending t h target s u hnext
  | trackJump t h outward => exact execTrackJump_pending t h outward s u hnext
  | park t h => exact execPark_pending t h s u hnext
  | emergencyPark t => exact execEmergencyPark_pending t s u hnext
  | doorSenseRise t => exact execDoorSenseRise_pending t s u hnext
  | laserArmDeassert t => exact execLaserArmDeassert_pending t s u hnext
  | quillReleaseWithdraw t => exact execQuillReleaseWithdraw_pending t s u hnext
  | doorDeclaredOpen t => exact execDoorDeclaredOpen_pending t s u hnext
  | laserReenable t h => exact execLaserReenable_pending t h s u hnext
  | headRecapture t h attempts => exact execHeadRecapture_pending t h attempts s u hnext
  | ldcfgFrame t h b level code echo1 echo2 => exact execLdcfgFrame_pending t h b level code echo1 echo2 s u hnext
  | magPresentChange t present => exact execMagPresentChange_pending t present s u hnext
  | ddr5ReadCorrected t burst beats newer => exact execDdr5ReadCorrected_pending t burst beats newer s u hnext
  | ddr5Uncorrectable t burst region => exact execDdr5Uncorrectable_pending t burst region s u hnext
  | scrubRead t beats newer => exact execScrubRead_pending t beats newer s u hnext
  | memorySelfTest t test => exact execMemorySelfTest_pending t test s u hnext
  | cacheFillComplete t => exact execCacheFillComplete_pending t s u hnext
  | evictionWriteback t => exact execEvictionWriteback_pending t s u hnext
  | cacheParityError t site byte parity => exact execCacheParityError_pending t site byte parity s u hnext
  | burrowReadback t key mask valid => exact execBurrowReadback_pending t key mask valid s u hnext
  | burrowProbe t rows => exact execBurrowProbe_pending t rows s u hnext
  | burrowDelete t row => exact execBurrowDelete_pending t row s u hnext
  | burrowConsolidate t => exact execBurrowConsolidate_pending t s u hnext
  | burrowResultParity t row => exact execBurrowResultParity_pending t row s u hnext
  | paceWindow t counts => exact execPaceWindow_pending t counts s u hnext
  | paceTick t => exact execPaceTick_pending t s u hnext
  | peerResetAssert t bridge side items planned =>
    exact execPeerResetAssert_pending t bridge side items planned s u hnext
  | peerResetDeassert t bridge side => exact execPeerResetDeassert_pending t bridge side s u hnext
  | bridgeOverflow t bridge => exact execBridgeOverflow_pending t bridge s u hnext
  | pllLockLoss t island => exact execPllLockLoss_pending t island s u hnext
  | pllRelock t island => exact execPllRelock_pending t island s u hnext
  | powerTransitionStart t => exact execPowerTransitionStart_pending t s u hnext
  | powerTransitionStepEnd t => exact execPowerTransitionStepEnd_pending t s u hnext
  | torporHibernateExit t retentionOk katOk octalOk test rate width =>
    exact execTorporHibernateExit_pending t retentionOk katOk octalOk test rate width s u hnext
  | wakePinEdge t second lowNs => exact execWakePinEdge_pending t second lowNs s u hnext
  | psreqEdge t lowNs pssel => exact execPsreqEdge_pending t lowNs pssel s u hnext
  | wakeReplay t => exact execWakeReplay_pending t s u hnext
  | wakeRearm t fn value => exact execWakeRearm_pending t fn value s u hnext
  | pgoodTimeout t => exact execPgoodTimeout_pending t s u hnext
  | railEnableRetry t => exact execRailEnableRetry_pending t s u hnext
  | pgoodFall t => exact execPgoodFall_pending t s u hnext
  | vcoreLowDetect t => exact execVcoreLowDetect_pending t s u hnext
  | powerFail t lowNs => exact execPowerFail_pending t lowNs s u hnext
  | pwrfailDeassert t => exact execPwrfailDeassert_pending t s u hnext
  | deferredPerst t => exact execDeferredPerst_pending t s u hnext
  | activationReset t => exact execActivationReset_pending t s u hnext
  | quillFault t cls => exact execQuillFault_pending t cls s u hnext
  | rbgFail t => exact execRbgFail_pending t s u hnext
  | voleHeartbeatTimeout t => exact execVoleHeartbeatTimeout_pending t s u hnext
  | groupMStart t => exact execGroupMStart_pending t s u hnext
  | calStepStart t step h b => exact execCalStepStart_pending t step h b s u hnext
  | calStepEnd t step h b m => exact execCalStepEnd_pending t step h b m s u hnext
  | calPreconditionLost t step h b mask => exact execCalPreconditionLost_pending t step h b mask s u hnext
  | excursionStart t => exact execExcursionStart_pending t s u hnext
  | excursionEnd t => exact execExcursionEnd_pending t s u hnext
  | mediaScrubRead t stripes => exact execMediaScrubRead_pending t stripes s u hnext
  | fsyncEdge t highNs angle => exact execFsyncEdge_pending t highNs angle s u hnext
  | ltcFrameDecoded t address bitRate => exact execLtcFrameDecoded_pending t address bitRate s u hnext
  | timecodeLoss t => exact execTimecodeLoss_pending t s u hnext
  | eventPendingClear t fn value => exact execEventPendingClear_pending t fn value s u hnext
  | commitPointRead32 t fn => exact execCommitPointRead32_pending t fn s u hnext
  | deficitRead32 t fn => exact execDeficitRead32_pending t fn s u hnext
  | capturedFieldRead t fn offset => exact execCapturedFieldRead_pending t fn offset s u hnext
  | registerWrite t space offset value => exact execRegisterWrite_pending t space offset value s u hnext
  | sensorSample t reading => exact execSensorSample_pending t reading s u hnext
  | logProgram t ok => exact execLogProgram_pending t ok s u hnext
  | logWindowEnd t => exact execLogWindowEnd_pending t s u hnext
  | i2cPointerWrite t data => exact execI2cPointerWrite_pending t data s u hnext
  | logPtrWrite t value => exact execLogPtrWrite_pending t value s u hnext
  | logRecordReadEnd t => exact execLogRecordReadEnd_pending t s u hnext
  | i2cTransactionTimeout t address => exact execI2cTransactionTimeout_pending t address s u hnext
  | i2cAddressRetry t address ok => exact execI2cAddressRetry_pending t address ok s u hnext
  | uartCommand t payload scan mapAddr => exact execUartCommand_pending t payload scan mapAddr s u hnext
  | uartBaud t payload => exact execUartBaud_pending t payload s u hnext
  | lkProgram t payload readBackOk => exact execLkProgram_pending t payload readBackOk s u hnext
  | archiveWrite t payload => exact execArchiveWrite_pending t payload s u hnext
  | archiveCommit t flashOk => exact execArchiveCommit_pending t flashOk s u hnext
  | logRead t payload => exact execLogRead_pending t payload s u hnext
  | uartBadFrame t crcFailed => exact execUartBadFrame_pending t crcFailed s u hnext
  | uartFrameGap t => exact execUartFrameGap_pending t s u hnext
  | vaonPowerUp t => exact execVaonPowerUp_pending t s u hnext
  | dataFieldRead t h b f => exact execDataFieldRead_pending t h b f s u hnext
  | defectSpanClose t h b field bit => exact execDefectSpanClose_pending t h b field bit s u hnext
  | jtagTapAccess t tap => exact execJtagTapAccess_pending t tap s u hnext

/-! ### The commands that can stop the machine -/

section MayStop

variable (t : Time) {s : State}

/-- The size of a register window (R76, R394). -/
def windowBytes : RegSpace → Nat
  | .bar0 _ => 0x10000
  | .bar2 _ => 0x4000
  | .loopEngine => 0x40C

theorem exec_registerWrite_next {space : RegSpace} {off : Nat} (v : Word) (h : off < windowBytes space) :
    ∃ u, exec (.registerWrite t space off v) s = .next u := by
  cases space <;> exact ⟨_, if_neg (Nat.not_le.2 h)⟩

theorem exec_ddr5ReadCorrected_next {n : Nat} (beats : List (List (BitVec 4))) (newer : Bool)
    (h : n < Config.scrubBursts) : ∃ u, exec (.ddr5ReadCorrected t n beats newer) s = .next u :=
  ⟨_, if_neg (Nat.not_le.2 h)⟩

/-- A burst that is not served, or that lies in another area than named, changes the time alone; both answers are a next
state. -/
theorem exec_ddr5Uncorrectable_next {n : Nat} (region : DreyRegion) (h : n < Config.scrubBursts) :
    ∃ u, exec (.ddr5Uncorrectable t n region) s = .next u := by
  show ∃ u, execDdr5Uncorrectable t n region s = .next u
  simp only [execDdr5Uncorrectable, if_neg (Nat.not_le.2 h)]
  split
  · exact ⟨_, rfl⟩
  · exact ⟨_, rfl⟩

theorem exec_jtagTapAccess_next {tap : TapInstr} (h : ∀ n, tap = .other n → s.quill.unlock = 0) :
    ∃ u, exec (.jtagTapAccess t tap) s = .next u := by
  cases tap with
  | bypass => exact ⟨_, rfl⟩
  | idcode => exact ⟨_, rfl⟩
  | other n => exact ⟨_, if_pos (h n rfl)⟩

end MayStop

/-- Settles O1: the step's equation, in each of its two cases. -/
theorem stepRunsFrontCommand : Obligations.StepRunsFrontCommand := by
  refine ⟨fun c rest s hq => ?_, fun s hq => ?_⟩
  · rw [step, hq]
  · rw [step, hq]

/-- Settles O2: a step hands the queue's rest to its command, and no command touches it. -/
theorem stepTakesOneCommand : Obligations.StepTakesOneCommand := by
  refine ⟨fun c rest s u hq hstep => ?_, fun c s hbar0 hbar2 hloop hread hlost htap => ?_⟩
  · rw [stepRunsFrontCommand.1 c rest s hq] at hstep
    exact exec_pending c hstep
  · have hnext : ∃ u, exec c s = .next u := by
      cases c with
      | registerWrite t space off v =>
        refine exec_registerWrite_next t v ?_
        cases space with
        | bar0 fn => exact hbar0 t fn off v rfl
        | bar2 fn => exact hbar2 t fn off v rfl
        | loopEngine => exact hloop t off v rfl
      | ddr5ReadCorrected t n beats newer => exact exec_ddr5ReadCorrected_next t beats newer (hread t n beats newer rfl)
      | ddr5Uncorrectable t n region => exact exec_ddr5Uncorrectable_next t region (hlost t n region rfl)
      | jtagTapAccess t tap => exact exec_jtagTapAccess_next t fun n htest => htap t n (htest ▸ rfl)
      | _ => exact ⟨_, rfl⟩
    obtain ⟨u, hu⟩ := hnext
    exact ⟨u, hu, exec_pending c hu⟩

end Sys2Proof.Machine

/-! PROOF. The Quill family (14_quill_secure_start): the boot from mask ROM, and Quill's commands. -/

namespace Sys2Proof.Machine

/-! ### The boot from mask ROM (R504, R509 to R513, R526, R533) -/

section BootRom

variable (s : State)

/-- A log entry changes Vole's records alone, and leaves Vole as alive as it was (R607, R608, R610). -/
theorem State.log_eq_alive (code : BitVec 16) (args : List Word) :
    ∃ v, s.log code args = { s with vole := v } ∧ v.alive = s.vole.alive := by
  simp only [State.log, State.coalesce, State.createRecord]
  repeat' split
  all_goals exact ⟨_, rfl, rfl⟩

theorem State.logAll_eq (l : List (BitVec 16 × List Word)) :
    ∃ v, s.logAll l = { s with vole := v } ∧ v.alive = s.vole.alive := by
  induction l generalizing s with
  | nil => exact ⟨s.vole, rfl, rfl⟩
  | cons x l ih =>
    obtain ⟨w, hw, hone⟩ := s.log_eq_alive x.1 x.2
    obtain ⟨v, hv, hrest⟩ := ih (s.log x.1 x.2)
    refine ⟨v, ?_, ?_⟩
    · show (s.log x.1 x.2).logAll l = _
      rw [hv, hw]
    · rw [hrest, hw, hone]

theorem VoleState.loadPorts_alive (v : VoleState) : v.loadPorts.alive = v.alive := by
  rw [VoleState.loadPorts]
  split <;> rfl

/-- The release of Vole empties Quill's boot record into the log, and leaves Vole alive (R528, R606). -/
theorem State.releaseVole_eq (cause : Nat) : ∃ v, v.alive = true ∧
    s.releaseVole cause = { s with vole := v, quill := { s.quill with bootRecord := [] } } := by
  simp only [State.releaseVole]
  generalize hv1 : VoleState.loadPorts _ = v1
  have halive : v1.alive = true := by rw [← hv1, VoleState.loadPorts_alive]
  obtain ⟨v, hlog, hv⟩ := (({ s with vole := v1 } : State).createRecord 0x0909
    [arg cause, arg s.quill.sequence]).logAll_eq (s.quill.bootRecord ++ s.vole.deferred)
  rw [hlog]
  split
  · exact ⟨v, hv.trans halive, rfl⟩
  · obtain ⟨w, hlast, hw⟩ := State.log_eq_alive _ 0x0802 [0]
    exact ⟨w, hw.trans (hv.trans halive), hlast⟩

/-- The state in which a boot from mask ROM begins: the registers M0 to M7 at zero, and the generator seeded (R504, R511,
R513). -/
def State.romStart : State :=
  { s with perstAt := s.now, quill := ({ s.quill with measures := Vector.replicate 8 (Word.zeros 48) } : QuillState).seedRbg }

/-- The same with the mask ROM and the fuses measured into M0 (Table 14.3). -/
def State.romMeasured : State := s.romStart.updQuill QuillState.measureRom

variable {s} {kat octal : Bool}

/-- TEST_EN or a failed known-answer test stops Quill at step 1 (R533). -/
theorem State.bootRom_stops (h : s.pins.testEn = true ∨ kat = false) :
    s.bootRom kat octal = s.romStart.updQuill fun q => { q with stopped := true, bootStep := 1 } := by
  have hstops : (s.pins.testEn || !kat) = true := by simpa using h
  exact if_pos hstops

section Tested

variable (htest : s.pins.testEn = false)
include htest

theorem State.bootRom_tested : s.bootRom true octal =
    if !octal then s.romMeasured.enterRecovery 2 []
    else
      match s.romMeasured.quill.choose s.romMeasured.quill.candidates with
      | (some n, rej) => s.romMeasured.bootSlot n 0 rej
      | (none, rej) => s.romMeasured.enterRecovery 1 rej := by
  have hgoes : ¬(s.pins.testEn || !true) = true := by simp [htest]
  exact if_neg hgoes

theorem State.bootRom_noSlot (hnone : (s.romMeasured.quill.choose s.romMeasured.quill.candidates).1 = none) :
    ∃ rej, s.bootRom true true = s.romMeasured.enterRecovery 1 rej := by
  rw [State.bootRom_tested htest]
  generalize s.romMeasured.quill.choose s.romMeasured.quill.candidates = choice at hnone
  obtain ⟨slot, rej⟩ := choice
  obtain rfl : slot = none := hnone
  exact ⟨rej, rfl⟩

theorem State.bootRom_slot {n : Nat} (hslot : (s.romMeasured.quill.choose s.romMeasured.quill.candidates).1 = some n) :
    ∃ rej, s.bootRom true true = s.romMeasured.bootSlot n 0 rej := by
  rw [State.bootRom_tested htest]
  generalize s.romMeasured.quill.choose s.romMeasured.quill.candidates = choice at hslot
  obtain ⟨slot, rej⟩ := choice
  obtain rfl : slot = some n := hslot
  exact ⟨rej, rfl⟩

end Tested

/-- Measuring and seeding touch no firmware slot. -/
theorem State.romMeasured_slotOf (n : Nat) : s.romMeasured.quill.slotOf n = s.quill.slotOf n := by
  have hslots : s.romMeasured.quill.slotA = s.quill.slotA ∧ s.romMeasured.quill.slotB = s.quill.slotB := by
    simp only [State.romMeasured, State.romStart, State.updQuill, QuillState.seedRbg]
    split <;> exact ⟨rfl, rfl⟩
  simp only [QuillState.slotOf, hslots]

/-- The start of a slot runs it with its SEQUENCE, with every switchable domain powered and Vole released. -/
theorem State.bootSlot_runs (s : State) (n cause : Nat) (rej : List (BitVec 16 × List Word)) :
    (s.bootSlot n cause rej).quill.running = some n ∧ (s.bootSlot n cause rej).quill.sequence = (s.quill.slotOf n).seq ∧
      (s.bootSlot n cause rej).quill.bootStep = 9 ∧ (s.bootSlot n cause rej).pwr.domains = allDomains ∧
      (s.bootSlot n cause rej).vole.alive = true := by
  simp only [State.bootSlot]
  generalize hs2 : State.setDomains _ _ _ = s2
  obtain ⟨v, halive, hv⟩ := s2.releaseVole_eq cause
  rw [hv, ← hs2]
  exact ⟨rfl, rfl, rfl, rfl, halive⟩

/-- The pins as a boot finds them (R513, Table 14.4). -/
def State.perstRisen (s : State) (testEn : Bool) : State :=
  s.updPins fun p => { p with perst := false, pgood := true, vcoreLow := false, testEn := testEn }

theorem exec_quillBoot_boots (t : Time) (testEn : Bool) (h0 : s.quill.bootStep = 0) (hpark : s.pwr.state = .park)
    (hidle : s.pwr.running = none) : exec (.quillBoot t kat octal testEn) s =
      .next (((s.at t).perstRisen testEn).bootRom kat octal) :=
  congrArg Host.Outcome.next (if_pos ⟨h0, hpark, hidle⟩)

end BootRom

/-- Settles O20, from the four outcomes of a boot from mask ROM. -/
theorem quillBootsFromMaskRom : Obligations.QuillBootsFromMaskRom := by
  intro t kat octal testEn s h0 hpark hidle best
  rw [exec_quillBoot_boots t testEn h0 hpark hidle]
  set risen := (s.at t).perstRisen testEn
  refine ⟨fun hstops => ?_, ?_, ?_, fun n => ?_⟩
  · exact ⟨_, congrArg _ (State.bootRom_stops (s := risen) hstops), rfl, rfl, rfl, rfl⟩
  · rintro htest rfl rfl
    exact ⟨_, congrArg _ (State.bootRom_tested (s := risen) htest), rfl, rfl, rfl⟩
  · rintro htest rfl rfl hnone
    obtain ⟨rej, hboot⟩ := State.bootRom_noSlot (s := risen) htest hnone
    exact ⟨_, congrArg _ hboot, rfl, rfl, rfl⟩
  · rintro htest rfl rfl hslot
    obtain ⟨rej, hboot⟩ := State.bootRom_slot (s := risen) htest hslot
    obtain ⟨hrun, hseq, hstep, hdomains, halive⟩ := State.bootSlot_runs _ n 0 rej
    exact ⟨_, congrArg _ hboot, hrun, hseq.trans (congrArg FwSlot.seq (State.romMeasured_slotOf n)), hstep, hdomains, halive⟩

/-! ### FW_STAGE, FW_ACTIVATE, ATTEST and JTAG_UNLOCK (R517 to R523, R530 to R532) -/

section QuillRules

variable {s : State} {f : Fetched} {c : Call}

theorem State.ruleFwStage_staged (hd : c.dataErr = none) (hoff : s.quill.stageInvalid (parm f.entry 0).toNat = false) :
    let r := s.quill.stageChunk (parm f.entry 0).toNat ((parm f.entry 1).getLsbD 0) c.payload
    s.ruleFwStage f c =
      .apply ((s.updQuill fun _ => r.1).finish f.org f.entry f.alloc r.2.1 (BitVec.ofNat 64 r.2.2) []) := by
  simp only [State.ruleFwStage, hoff, Bool.false_eq_true, if_false, withData, hd]

/-- An activation waits while another started command is left. -/
theorem State.settleActivate_waits (h : s.host.running.length ≠ 1) : s.settleActivate = s := by
  rw [State.settleActivate]
  split
  · rfl
  · exact if_neg h

theorem State.ruleFwActivate_waits {n : Nat} (hstaged : s.quill.staged = some n) (hother : s.host.running ≠ []) :
    s.ruleFwActivate f = .apply ((s.updHost fun h => { h with fetchStopped := true }).startRunning (f.run .fwActivate)) := by
  have hrun : (s.host.running ++ [f.run .fwActivate]).length ≠ 1 := by simpa using hother
  have hgoes : s.quill.staged.isNone = false := by rw [hstaged]; rfl
  rw [State.ruleFwActivate, hgoes, State.settleActivate_waits hrun]
  rfl

theorem State.ruleAttest_counts {q : QuillState} (hq : s.quill.nextCounter = some q) :
    s.ruleAttest f = (s.updQuill fun _ => { q with lastReport := some q.counter }).doneWith f 756
      ((s.updQuill fun _ => { q with lastReport := some q.counter }).report f) := by
  simp only [State.ruleAttest, hq]

theorem State.ruleAttest_exhausted (hq : s.quill.nextCounter = none) :
    s.ruleAttest f = .apply ((s.log 0x0705 []).finish f.org f.entry f.alloc .stateConflict s.stateValue []) := by
  simp only [State.ruleAttest, hq]

theorem State.ruleJtagUnlock_valid (hd : c.dataErr = none) (hfew : s.quill.refusals < 3)
    (htoken : s.quill.tokenOk f.entry c.payload = true) :
    s.ruleJtagUnlock f c = (s.unlockAt (Word.fieldLE c.payload 2 1)).done f 0 := by
  simp only [State.ruleJtagUnlock, withData, hd, if_pos (And.intro hfew htoken)]

theorem State.ruleJtagUnlock_refused (hd : c.dataErr = none)
    (hno : 3 ≤ s.quill.refusals ∨ s.quill.tokenOk f.entry c.payload = false) : s.ruleJtagUnlock f c =
      .apply ((s.updQuill fun q => { q with refusals := q.refusals + 1 }).finish f.org f.entry f.alloc .unlockRefused 0 []) := by
  have hnot : ¬(s.quill.refusals < 3 ∧ s.quill.tokenOk f.entry c.payload = true) := by
    rintro ⟨hfew, htoken⟩
    obtain hmany | hbad := hno
    · omega
    · exact absurd (hbad.symm.trans htoken) Bool.false_ne_true
  simp only [State.ruleJtagUnlock, withData, hd, if_neg hnot]

end QuillRules

/-- Settles O32, from the rulings of the four commands. -/
theorem quillCommandsTakeEffect : Obligations.QuillCommandsTakeEffect := by
  intro t c f rest s hd u e
  refine ⟨fun ha hoff => ?_, fun n ha hstaged hother => ?_, fun q ha hq => ?_, fun ha hq => ?_, fun ha hfew htoken => ?_,
    fun ha hno => ?_⟩
  · exact congrArg _ (State.serve_apply ha (State.ruleFwStage_staged (s := u) hd hoff))
  · exact congrArg _ (State.serve_apply ha (State.ruleFwActivate_waits (s := u) hstaged hother))
  · exact congrArg _ (State.serve_apply ha (State.ruleAttest_counts (s := u) hq))
  · exact congrArg _ (State.serve_apply ha (State.ruleAttest_exhausted (s := u) hq))
  · exact congrArg _ (State.serve_apply ha (State.ruleJtagUnlock_valid (s := u) hd hfew htoken))
  · exact congrArg _ (State.serve_apply ha (State.ruleJtagUnlock_refused (s := u) hd hno))

end Sys2Proof.Machine

/-! PROOF. The Vole family (17_vole_management): the records of Quill and Vole, and the management ports. -/

namespace Sys2Proof.Machine

/-! ### The service port and Quill's records (R505, R507, R529, R620) -/

section ServicePort

variable {s : State} (hserved : s.portsServed = true)
include hserved

/-- A request while another is outstanding gets a NAK (R621). -/
theorem State.uartServe_busy (t : Time) (hbusy : s.vole.uartBusy = true) (k : State → State) :
    (s.at t).uartServe k = (s.at t).uartAnswer 0xFF [] := by
  have hports : (s.at t).portsServed = true := hserved
  simp only [State.uartServe, hports, State.at_vole, hbusy, Bool.not_true, Bool.false_eq_true, if_false, if_true]

theorem State.uartServe_free (t : Time) (hfree : s.vole.uartBusy = false) (k : State → State) :
    (s.at t).uartServe k = k (s.at t) := by
  have hports : (s.at t).portsServed = true := hserved
  simp only [State.uartServe, hports, State.at_vole, hfree, Bool.not_true, Bool.false_eq_true, if_false]

end ServicePort

section LinkKey

variable {s : State} {p : List Byte}

theorem State.programLk_locked (hlocked : s.quill.lkLocked = true) (ok : Bool) : s.programLk p ok = s.lkRefuse 3 := by
  simp only [State.programLk, hlocked, if_true]

theorem State.programLk_good (hopen : s.quill.lkLocked = false) (hgood : s.quill.lkBad = false) (hlen : p.length = 36)
    (hcrc : (crc32 (p.take 32)).toNat = Word.fieldLE p 32 4) : s.programLk p true =
      (s.updQuill fun x => { x with lk := some (p.take 32), lkLocked := true }).uartAnswer 0x90 [0] := by
  simp only [State.programLk, hopen, hgood, hlen, hcrc, ne_eq, not_true, or_self, Bool.not_true, Bool.false_eq_true, if_false]

end LinkKey

theorem exec_rbgFail_running {s : State} (t : Time) (hok : s.quill.rbgOk = true) :
    exec (.rbgFail t) s = .next (((s.at t).updQuill fun x => { x with rbgOk := false }).log 0x0701 []) :=
  congrArg Host.Outcome.next (if_pos hok)

/-! ### Vole's restart (R607, R625) -/

/-- An event that equals no waiting record gets one of its own while the window has room (R607, R608). -/
theorem State.log_creates {s : State} {code : BitVec 16} {args : List Word} (halive : s.vole.alive = true)
    (hnew : s.vole.queue.any (LogRecord.same code args) = false) (hroom : s.vole.windowCount < 1024) :
    s.log code args = s.createRecord code args := by
  simp only [State.log, halive, hnew, Nat.not_le.2 hroom, Bool.not_true, Bool.false_eq_true, if_false]

/-- Vole after a restart, before it logs it: nothing waits, and a window begins. -/
def VoleState.restarted (v : VoleState) (now : Time) : VoleState :=
  { v with
    queue := [], newest := v.newest.filter fun r => v.programmed.any fun x => x.seq == r.seq
    windowCount := 0, windowDropped := 0, windowAt := now, restarts := v.restarts + 1, uartBusy := false, uartPartial := false
    archiveData := [] }

theorem exec_voleHeartbeatTimeout_alive {s : State} (t : Time) (halive : s.vole.alive = true) :
    exec (.voleHeartbeatTimeout t) s = .next
      (((s.at t).updVole fun v => v.restarted (s.at t).now).createRecord 0x0908 [arg (s.vole.restarts + 1)]) := by
  have hdead : ¬(!(s.at t).vole.alive) = true := by simp [halive]
  refine congrArg Host.Outcome.next ((if_neg hdead).trans ?_)
  exact State.log_creates halive rfl (by decide : 0 < 1024)

/-! ### Readings and the log in flash (R602, R607, R608, R609, R626) -/

theorem exec_sensorSample_junction {s : State} (t : Time) (i : Fin 8) {x : Int} (halive : s.vole.alive = true)
    (hlow : -320 ≤ x) (hhigh : x < 960) : exec (.sensorSample t (.junction i x)) s = .next ((s.at t).updVole fun v =>
      { v with readings := Vec.upd v.readings (Fin.ofNat 25 i.val) fun _ => some x }) := by
  have hmeets : ¬(!(s.at t).vole.alive || !(s.at t).sensorAnswers (.junction i x)) = true := by
    simp [halive, State.sensorAnswers]
  have hquiet : (s.at t).readingEvents (.junction i x) = [] := by
    have hfault : ¬(x < -320 ∨ 1000 < x) := by omega
    simp only [State.readingEvents, if_neg (Int.not_le.2 hhigh), if_neg hfault, List.append_nil]
  refine congrArg Host.Outcome.next ((if_neg hmeets).trans ?_)
  simp only [State.takeReading, hquiet, readingValue]

theorem find?_putRow {α : Type} (i : Nat) (v : α) (l : List (Nat × α)) :
    (putRow i v l).find? (fun x => x.1 == i) = some (i, v) := by
  induction l with
  | nil => simp [putRow]
  | cons x l ih =>
    rw [putRow]
    split
    · next hlt => rw [List.find?_cons_of_neg (by simp; omega), ih]
    · split <;> simp

theorem VoleState.sector_setSector (v : VoleState) (i : Nat) (x : LogSector) : (v.setSector i x).sector i = x := by
  rw [VoleState.sector, VoleState.setSector, find?_putRow]
  rfl

/-- Vole with the sector of a failed program marked bad and made the present one (R626). -/
def VoleState.markedBad (v : VoleState) (i : Nat) : VoleState :=
  { (v.setSector i { (v.sector i) with bad := true }) with cur := i }

section LogProgram

variable {s : State} (t : Time) {r : LogRecord} {rs : List LogRecord} (hqueue : s.vole.queue = r :: rs)
  (halive : s.vole.alive = true) (hthawed : s.vole.frozen = false) (hgood : s.vole.badCount ≤ 16)
include hqueue halive hthawed hgood

theorem exec_logProgram_queued (ok : Bool) : exec (.logProgram t ok) s = .next
    (if ok then (s.at t).updVole fun v => v.program s.vole.nextSector r
      else ((s.at t).updVole fun v => v.markedBad s.vole.nextSector).log 0x0907 [arg s.vole.nextSector]) := by
  show execLogProgram t ok s = _
  simp only [execLogProgram, State.at_vole, hqueue, halive, hthawed, Nat.not_lt.2 hgood, Bool.not_true, Bool.or_self,
    decide_false, Bool.false_eq_true, if_false]
  rfl

end LogProgram

theorem exec_logWindowEnd_over {s : State} (t : Time) (halive : s.vole.alive = true)
    (hover : s.vole.windowAt + 1000000000 ≤ (s.at t).now) :
    let u := (s.at t).updVole fun v => { v with windowCount := 0, windowDropped := 0, windowAt := v.windowAt + 1000000000 }
    exec (.logWindowEnd t) s = .next
      (if s.vole.windowDropped = 0 then u else u.createRecord 0x0906 [arg s.vole.windowDropped]) := by
  have hends : ¬(!(s.at t).vole.alive || decide ((s.at t).now < (s.at t).vole.windowAt + Config.ms 1000)) = true := by
    have hlate : ¬(s.at t).now < s.vole.windowAt + Config.ms 1000 := Nat.not_lt.2 hover
    simp only [State.at_vole, halive, decide_eq_false hlate, Bool.not_true, Bool.or_self, Bool.false_eq_true,
      not_false_eq_true]
  exact congrArg Host.Outcome.next (if_neg hends)

/-- Settles O58, from Quill's failures, the exchanges of the service port, the test port, and the records of Vole. -/
theorem quillAndVoleKeepTheirRecords : Obligations.QuillAndVoleKeepTheirRecords := by
  intro t s s1 served
  refine ⟨exec_rbgFail_running t, fun p ok hserved hlocked => ?_, fun p hserved hopen hgood hlen hcrc => ?_, rfl, rfl,
    fun n hlocked => if_pos hlocked, fun n hunlocked => if_neg hunlocked, fun halive => ?_,
    fun i x halive hlow hhigh => exec_sensorSample_junction t i halive hlow hhigh,
    fun r rs hqueue halive hthawed hgood => ?_, fun halive hover => ?_⟩
  · refine congrArg _ ((State.uartServe_free hserved.1 t hserved.2 _).trans ?_)
    exact State.programLk_locked (s := s1) hlocked ok
  · refine congrArg _ ((State.uartServe_free hserved.1 t hserved.2 _).trans ?_)
    exact State.programLk_good (s := s1) hopen hgood hlen hcrc
  · exact ⟨_, _, exec_voleHeartbeatTimeout_alive t halive, rfl, rfl, rfl, rfl, rfl, rfl, rfl, rfl⟩
  · have hprogram := exec_logProgram_queued t hqueue halive hthawed hgood
    refine ⟨hprogram true, congrArg (List.drop 1) hqueue, _, hprogram false, ?_, rfl⟩
    exact congrArg LogSector.bad (s.vole.sector_setSector _ _)
  · have hends := exec_logWindowEnd_over t halive hover
    exact ⟨fun hnone => hends.trans (congrArg _ (if_pos hnone)), fun hsome => hends.trans (congrArg _ (if_neg hsome))⟩

/-! ### The I2C target and controller (R616 to R619) -/

section I2c

variable {s : State} (t : Time)

section Target

variable (hserved : s.portsServed = true)
include hserved

theorem exec_i2cPointerWrite_served (p : Byte) :
    exec (.i2cPointerWrite t [p]) s = .next ((s.at t).updVole fun v => { v with pointer := p }) :=
  congrArg Host.Outcome.next (if_pos hserved)

theorem exec_logPtrWrite_served (d : DWord) :
    exec (.logPtrWrite t d) s = .next ((s.at t).updVole fun v => { v with logPtr := d }) :=
  congrArg Host.Outcome.next (if_pos hserved)

theorem exec_logRecordReadEnd_served (hwithin : s.vole.pointer.toNat < 128) : exec (.logRecordReadEnd t) s =
    .next (((s.at t).emit (.i2cRead s.vole.pointer.toNat ((s.at t).i2cTarget.drop s.vole.pointer.toNat))).updVole fun v =>
      { v with pointer := 0x80, logPtr := v.logPtr + 1 }) := by
  have hsends : ((s.at t).portsServed && decide ((s.at t).vole.pointer.toNat < 128)) = true :=
    Bool.and_eq_true_iff.2 ⟨hserved, decide_eq_true hwithin⟩
  exact congrArg Host.Outcome.next (if_pos hsends)

end Target

variable (a : BitVec 7) (halive : s.vole.alive = true)

/-- An address counts as reachable again (R619). -/
theorem State.clearFails_reachable (s : State) : (s.clearFails a).vole.unreachable.contains a = false := by
  simp [State.clearFails, State.updVole]

theorem State.sendVcore_vole (s : State) : s.sendVcore.vole = s.vole := by
  rw [State.sendVcore]
  split <;> rfl

/-- A power management IC that can be reached is sent the VCORE request that stands (R565, R619). -/
theorem State.sendVcore_reachable {s : State} {p : BitVec 7 × Byte × Nat × Nat × Int} (hpmic : s.vole.pmic = some p)
    (hreach : s.vole.unreachable.contains p.1 = false) : ∃ bs, s.vole.vcoreBytes s.pace.vcore = some bs ∧
      s.sendVcore = s.emit (.vcoreRequest s.pace.vcore bs) := by
  have hany : (s.vole.pmic.any fun p => s.vole.unreachable.contains p.1) = false := by
    rw [hpmic]
    exact hreach
  have hbytes : ∃ bs, s.vole.vcoreBytes s.pace.vcore = some bs := by
    rw [VoleState.vcoreBytes, hpmic]
    exact ⟨_, rfl⟩
  obtain ⟨bs, hbs⟩ := hbytes
  exact ⟨bs, hbs, by simp only [State.sendVcore, hbs, hany]⟩

theorem exec_i2cAddressRetry_silent : exec (.i2cAddressRetry t a false) s = .next (s.at t) :=
  congrArg Host.Outcome.next (if_neg (by simp))

include halive

theorem exec_i2cTransactionTimeout_alive :
    exec (.i2cTransactionTimeout t a) s = .next (((s.at t).emit .i2cRecover).countI2cFail a) :=
  congrArg Host.Outcome.next (if_pos halive)

theorem exec_i2cAddressRetry_answers (hlost : s.vole.unreachable.contains a = true) :
    exec (.i2cAddressRetry t a true) s = .next
      (if s.vole.isPmic a then ((s.at t).clearFails a).sendVcore else (s.at t).clearFails a) := by
  have hback : ((s.at t).vole.alive && (s.at t).vole.unreachable.contains a && true) = true := by
    simp only [State.at_vole, halive, hlost, Bool.and_self]
  exact congrArg Host.Outcome.next (if_pos hback)

end I2c

/-! ### The exchanges of the service port (R620 to R623) -/

section Exchanges

variable {s : State} {p : List Byte}

theorem State.setBaud_rate (hlen : p.length = 4)
    (hrate : Word.fieldLE p 0 4 = 115200 ∨ Word.fieldLE p 0 4 = 921600 ∨ Word.fieldLE p 0 4 = 3000000) :
    s.setBaud p = (s.uartAnswer 0x82 [0]).updVole fun v => { v with baud := Word.fieldLE p 0 4 } := if_pos ⟨hlen, hrate⟩

theorem State.collectArchive_mounted (hm : s.mounted = true) : s.collectArchive p = s.uartAnswer 0x91 [2] := if_pos hm

theorem State.collectArchive_within (hm : s.mounted = false) (hsome : 5 ≤ p.length) (hmost : p.length ≤ 4100)
    (hend : Word.fieldLE p 0 4 + (p.length - 4) ≤ 262144) : s.collectArchive p =
      (s.updVole fun v => { v with archiveData := v.archiveData ++ [(Word.fieldLE p 0 4, p.drop 4)] }).uartAnswer 0x91 [0] := by
  have hfits : (within 1 4096 (p.drop 4).length &&
      decide (Word.fieldLE p 0 4 + (p.drop 4).length ≤ sectionBytes)) = true := by
    simp [within, sectionBytes]
    omega
  simp only [State.collectArchive, hm, hfits, Bool.false_eq_true, if_false, if_true]

theorem State.commitArchive_valid (t : Time) (hm : s.mounted = false) (hvalid : regionValid s.vole.archiveImage = true) :
    (s.at t).commitArchive true =
      ((s.at t).updVole fun v => { v with integrator := s.vole.archiveImage }).uartAnswer 0x92 [0] := by
  have hm' : (s.at t).mounted = false := hm
  simp only [State.commitArchive, State.at_vole, hm', hvalid, Bool.not_true, Bool.false_eq_true, if_false]

theorem State.commitArchive_invalid (t : Time) (ok : Bool) (hm : s.mounted = false)
    (hbad : regionValid s.vole.archiveImage = false) : (s.at t).commitArchive ok = (s.at t).uartAnswer 0x92 [1] := by
  have hm' : (s.at t).mounted = false := hm
  simp only [State.commitArchive, State.at_vole, hm', hbad, Bool.not_false, Bool.false_eq_true, if_false, if_true]

end Exchanges

/-! ### Frames of the service port (R621, R622) -/

section Frames

variable {s : State} (t : Time) (hserved : s.uartServed = true)
include hserved

theorem exec_uartCommand_fetches (hfetch : s.host.fetchStopped = false) (p : List Byte) (scan : MountScan) (a : BitVec 31) :
    exec (.uartCommand t p scan a) s = .next
      (if s.vole.uartBusy then (s.at t).uartAnswer 0xFF [] else (s.at t).uartCommand p scan a) := by
  have hruns : ¬(!(s.at t).uartServed || (s.at t).host.fetchStopped) = true := by
    have hat : (s.at t).uartServed = true := hserved
    simp [hat, hfetch]
  exact congrArg Host.Outcome.next (if_neg hruns)

theorem exec_uartBadFrame_bad {crc : Bool} (hbad : crc = true ∨ s.vole.uartBusy = true) : exec (.uartBadFrame t crc) s =
    .next (((s.at t).updVole fun v => { v with uartPartial := false }).uartAnswer 0xFF []) := by
  have hnak : ((s.at t).uartServed && (crc || (s.at t).vole.uartBusy)) = true :=
    Bool.and_eq_true_iff.2 ⟨hserved, Bool.or_eq_true_iff.2 hbad⟩
  exact congrArg Host.Outcome.next (if_pos hnak)

theorem exec_uartFrameGap_served :
    exec (.uartFrameGap t) s = .next ((s.at t).updVole fun v => { v with uartPartial := false }) :=
  congrArg Host.Outcome.next (if_pos hserved)

end Frames

/-- Settles O59, from the I2C target and controller, the exchanges of the service port, and its frames. -/
theorem managementPortsAnswer : Obligations.ManagementPortsAnswer := by
  intro t s s1 served
  have hexchange (hserved : served) (k : State → State) : s1.uartServe k = k s1 :=
    State.uartServe_free hserved.1 t hserved.2 k
  refine ⟨fun p hserved => exec_i2cPointerWrite_served t hserved p, fun d hserved => exec_logPtrWrite_served t hserved d,
    exec_logRecordReadEnd_served t, exec_i2cTransactionTimeout_alive t, fun a halive hlost => ?_,
    fun p hserved hbusy => congrArg _ (State.uartServe_busy hserved t hbusy _), fun p hserved hlen hrate => ?_,
    fun p hserved hm hsome hmost hend => ?_, fun p hserved hm => ?_, fun hserved hm hvalid => ?_,
    fun ok hserved hm hbad => ?_, fun p hserved => congrArg _ (hexchange hserved _), fun p scan a hserved hfetch => ?_,
    fun crc hserved hbad => exec_uartBadFrame_bad t hserved hbad, exec_uartFrameGap_served t⟩
  · have hback := exec_i2cAddressRetry_answers t a halive hlost
    refine ⟨_, hback, ?_, exec_i2cAddressRetry_silent t a, fun p hpmic ha => ?_⟩
    · split
      · rw [State.sendVcore_vole]
        exact s1.clearFails_reachable a
      · exact s1.clearFails_reachable a
    · subst ha
      obtain ⟨bs, hbytes, hsent⟩ := State.sendVcore_reachable (s := s1.clearFails p.1) hpmic (s1.clearFails_reachable p.1)
      have hmine : s.vole.isPmic p.1 = true := by simp [VoleState.isPmic, hpmic]
      exact ⟨_, bs, hbytes, hback.trans (congrArg _ ((if_pos hmine).trans hsent))⟩
  · exact congrArg _ ((hexchange hserved (·.setBaud p)).trans (State.setBaud_rate (s := s1) hlen hrate))
  · exact congrArg _ ((hexchange hserved (·.collectArchive p)).trans (State.collectArchive_within (s := s1) hm hsome hmost hend))
  · exact congrArg _ ((hexchange hserved (·.collectArchive p)).trans (State.collectArchive_mounted (s := s1) hm))
  · exact congrArg _ ((hexchange hserved (·.commitArchive true)).trans (State.commitArchive_valid t hm hvalid))
  · exact congrArg _ ((hexchange hserved (·.commitArchive ok)).trans (State.commitArchive_invalid t ok hm hbad))
  · have hcommand := exec_uartCommand_fetches t hserved hfetch p scan a
    exact ⟨fun hbusy => hcommand.trans (congrArg _ (if_pos hbusy)),
      fun hfree => hcommand.trans (congrArg _ (if_neg (Bool.eq_false_iff.1 hfree)))⟩

end Sys2Proof.Machine

/-! PROOF. The power-failure family (13_power_states, 16_modes_coincidences): the sequence of Table 16.3, and PGOOD and VCORE lost. -/

namespace Sys2Proof.Machine

/-! ### The last steps of Table 16.3 -/

theorem hd_readsNoPosting : ReadsNoPosting State.hd where
  host _ _ := rfl
  drey _ _ := rfl
  vole _ _ := rfl
  cal _ _ := rfl

theorem mounted_readsNoPosting : ReadsNoPosting State.mounted where
  host _ _ := rfl
  drey _ _ := rfl
  vole _ _ := rfl
  cal _ _ := rfl

theorem ReadsNoPosting.watchOccupancy {β : Type} {g : State → β} (hg : ReadsNoPosting g) (s : State) :
    g s.watchOccupancy = g s := by
  simp [State.watchOccupancy, State.rateDeficit, apply_ite g, hg.updDrey, hg.raise]

section PowerFailEnd

variable (s : State)

/-- A frame that commits moves no head. -/
theorem State.advanceCommit_hd (k : Nat) : (s.advanceCommit k).hd = s.hd := by
  induction k generalizing s with
  | zero => rfl
  | succ k ih =>
    have hcommit (m : Mount → Mount) (f : Frame) : (((s.updMnt m).raise evCommit).dropFrame f).hd = s.hd :=
      (hd_readsNoPosting.freeSlot _ f.slot).trans (hd_readsNoPosting.raise (s.updMnt m) evCommit)
    rw [State.advanceCommit]
    split
    · rfl
    split
    · rfl
    split
    · rw [ih, hcommit]
    · rfl

theorem State.publish_hd : s.publish.hd = s.hd := by
  rw [State.publish, hd_readsNoPosting.watchOccupancy, State.advanceCommit_hd]

theorem State.setMagazine_hd (n : Nat) : (s.setMagazine n).hd = s.hd := by
  obtain ⟨m, x, h⟩ := s.setMagazine_eq n
  rw [h]
  rfl

theorem State.setMagazine_mounted (n : Nat) : (s.setMagazine n).mounted = s.mounted := by
  rw [State.setMagazine]
  split
  · rfl
  · exact mounted_readsNoPosting.raise _ _

theorem State.updPwr_hd (f : Power → Power) : (s.updPwr f).hd = s.hd := rfl
theorem State.updPwr_mounted (f : Power → Power) : (s.updPwr f).mounted = s.mounted := rfl
theorem State.clearWrite_hd : s.clearWrite.hd = s.hd := rfl
theorem State.leaveMount_hd : s.leaveMount.hd = s.hd := rfl
theorem State.leaveMount_mounted : s.leaveMount.mounted = false := rfl
theorem State.leaveMount_gates : s.leaveMount.spin.gates = s.spin.gates := rfl

/-- Step 5 of Table 16.3: the heads park, firmware clears both enables, and the last commit point is published. -/
def State.powerFailPark : State :=
  let off := fun d : HeadState => { d with laserEnable := false }
  (((s.emergencyPark).updHd .a off).updHd .b off).publish

/-- What the write path held is lost. -/
def State.powerFailClear : State := (s.powerFailPark.loseFrames fun _ => true).clearWrite

theorem State.powerFailEnd_eq : s.powerFailEnd =
    (if s.powerFailClear.mounted then s.powerFailClear.leaveMount.setMagazine 2 else s.powerFailClear).updPwr fun w =>
      { w with pfStep := 6 } := rfl

theorem State.powerFailEnd_mounted : s.powerFailEnd.mounted = false := by
  rw [State.powerFailEnd_eq, State.updPwr_mounted]
  split
  · rw [State.setMagazine_mounted, State.leaveMount_mounted]
  · next hm => exact Bool.eq_false_iff.2 hm

theorem State.powerFailClear_gates : s.powerFailClear.spin.gates = .off := by
  have hpark : s.powerFailClear.spin = s.emergencyPark.spin := by
    simp [State.powerFailClear, State.powerFailPark]
  rw [hpark, State.emergencyPark_eq]
  rfl

theorem State.powerFailEnd_gates : s.powerFailEnd.spin.gates = .off := by
  rw [State.powerFailEnd_eq, State.updPwr_spin]
  split
  · rw [State.setMagazine_spin, State.leaveMount_gates, State.powerFailClear_gates]
  · exact s.powerFailClear_gates

theorem State.powerFailClear_laserEnable (h : Head) : (s.powerFailClear.hd h).laserEnable = false := by
  have hlost : (s.powerFailPark.loseFrames fun _ => true).hd = s.powerFailPark.hd :=
    congrArg LaserView.hd (s.powerFailPark.loseFrames_laserView _)
  rw [State.powerFailClear, State.clearWrite_hd, hlost, State.powerFailPark, State.publish_hd]
  cases h <;> rfl

theorem State.powerFailEnd_laserEnable (h : Head) : (s.powerFailEnd.hd h).laserEnable = false := by
  rw [State.powerFailEnd_eq, State.updPwr_hd]
  split
  · rw [State.setMagazine_hd, State.leaveMount_hd, State.powerFailClear_laserEnable]
  · exact s.powerFailClear_laserEnable h

end PowerFailEnd

/-! ### When lanes are dark (R313, R314, R636) -/

section Lanes

variable {s : State} {h : Head}

theorem State.ldEn_disabled (henable : (s.hd h).laserEnable = false) : s.ldEn h = false := by
  simp [State.ldEn, henable]

theorem State.ldEn_vcoreLow (hlow : s.pins.vcoreLow = true) : s.ldEn h = false := by
  simp [State.ldEn, hlow]

theorem State.levelOf_ldEn (hoff : s.ldEn h = false) (b : Beam) : s.levelOf h b = .off := by
  simp [State.levelOf, hoff]

theorem State.actEn_vcoreLow (hlow : s.pins.vcoreLow = true) : s.actEn h = false := by
  simp [State.actEn, hlow]

end Lanes

/-! ### POWER_FAIL, PWRFAIL_DEASSERT, PGOOD_FALL and VCORE_LOW_DETECT -/

section PowerFailCommands

variable {s : State} (t : Time)

theorem exec_powerFail_glitch {low : Nat} (hshort : low < 500) : exec (.powerFail t low) s = .next (s.at t) := by
  have hwithin : within 500 999 low = false := by simp [within]; omega
  have hacts (n : Nat) : pwrfailActs n low = false := by simp [pwrfailActs]; omega
  show execPowerFail t low s = _
  simp only [execPowerFail, hwithin, hacts, Bool.not_false, Bool.false_eq_true, if_false, if_true]

/-- PWRFAIL_N is taken as low: the level is noted, and the log freezes (R599, R611). -/
def State.pwrfailNoted (s : State) : State :=
  (s.updPins fun p => { p with pwrfail := true }).updVole fun x => { x with frozen := true }

theorem exec_powerFail_long {low : Nat} (hlong : 1000 ≤ low) : exec (.powerFail t low) s = .next
    (if s.pwr.pfStep = 0 ∧ (s.pwr.state = .run ∨ s.pwr.state = .doze) then (s.at t).pwrfailNoted.powerFailBegin
      else if s.pwr.pfStep = 4 ∧ s.pwr.pfAt + 5500000 ≤ (s.at t).now then (s.at t).pwrfailNoted.powerFailEnd
      else (s.at t).pwrfailNoted) := by
  have hwithin : within 500 999 low = false := by simp [within]; omega
  have hacts (n : Nat) : pwrfailActs n low = true := by simp [pwrfailActs, hlong]
  show execPowerFail t low s = _
  simp only [execPowerFail, hwithin, hacts, Bool.not_true, Bool.false_eq_true, if_false]
  rfl

/-- PWRFAIL_N is high again: the log goes on, and so does fetch (R586, R611). -/
def State.pwrfailOver (s : State) : State :=
  (((s.updPins fun p => { p with pwrfail := false }).updVole fun v => { v with frozen := false }).updHost fun h =>
    { h with fetchStopped := false }).updPwr fun w => { w with pfStep := 0 }

theorem State.pwrfailOver_mounted (s : State) : s.pwrfailOver.mounted = s.mounted := rfl
theorem State.pwrfailOver_spin (s : State) : s.pwrfailOver.spin = s.spin := rfl

theorem exec_pwrfailDeassert_asserted (hlow : s.pins.pwrfail = true) : exec (.pwrfailDeassert t) s =
    .next (if s.pwr.pfStep = 4 then (s.at t).powerFailEnd else s.at t).pwrfailOver := by
  have hgoes : ¬(!(s.at t).pins.pwrfail) = true := by simp [hlow]
  exact congrArg Host.Outcome.next (if_neg hgoes)

theorem exec_pgoodFall_rails (hgood : s.pins.pgood = true) (hrails : s.pwr.railsUp ≠ []) (htorpor : s.pwr.state ≠ .torpor)
    (hhibernate : s.pwr.state ≠ .hibernate) (hfree : (s.at t).inPowerFail = false) : exec (.pgoodFall t) s = .next
      ((((s.at t).updPins fun p => { p with pgood := false }).updPwr fun w =>
        { w with railLog := w.railLog ++ w.railsUp }).assertPerst) := by
  have hfalls : ¬(!(s.at t).pins.pgood || (s.at t).pwr.railsUp.isEmpty) = true := by simp [hgood, hrails]
  refine congrArg Host.Outcome.next ((if_neg hfalls).trans ((if_neg ?_).trans (if_neg ?_)))
  · exact not_or.2 ⟨htorpor, hhibernate⟩
  · exact Bool.eq_false_iff.1 hfree

end PowerFailCommands

/-- Settles O57: the part is safe after the last steps of Table 16.3, and the commands that the pins bring come to them. -/
theorem powerFailures : Obligations.PowerFailures := by
  intro t s s1 v safe
  have hsafe (u : State) : safe u.powerFailEnd :=
    ⟨rfl, u.powerFailEnd_gates, u.powerFailEnd_mounted, fun h =>
      have hdark := State.ldEn_disabled (u.powerFailEnd_laserEnable h)
      ⟨u.powerFailEnd_laserEnable h, hdark, State.levelOf_ldEn hdark⟩⟩
  refine ⟨fun low => exec_powerFail_glitch t, fun low hlong h0 hstate => ?_, fun low hlong h0 hrun hdoze => ?_,
    fun low hlong h4 hlate => ?_, hsafe, fun hlow => ?_, exec_pgoodFall_rails t, ?_⟩
  · exact (exec_powerFail_long t hlong).trans (congrArg _ (if_pos ⟨h0, hstate⟩))
  · refine (exec_powerFail_long t hlong).trans (congrArg _ ((if_neg ?_).trans (if_neg ?_)))
    · rintro ⟨-, hstate⟩
      exact hstate.elim hrun hdoze
    · rintro ⟨h4, -⟩
      omega
  · refine ⟨_, (exec_powerFail_long t hlong).trans (congrArg _ ((if_neg ?_).trans (if_pos ⟨h4, hlate⟩))), hsafe _⟩
    rintro ⟨h0, -⟩
    omega
  · refine ⟨_, exec_pwrfailDeassert_asserted t hlow, rfl, rfl, rfl, rfl, fun h4 => ?_⟩
    rw [if_pos h4, State.pwrfailOver_mounted, State.pwrfailOver_spin]
    exact ⟨s1.powerFailEnd_mounted, s1.powerFailEnd_gates⟩
  · refine ⟨_, rfl, rfl, fun h b => ?_⟩
    exact ⟨State.levelOf_ldEn (State.ldEn_vcoreLow rfl) b, State.ldEn_vcoreLow rfl, State.actEn_vcoreLow rfl⟩

end Sys2Proof.Machine

/-! PROOF. The power family (13_power_states): the start, the steps and the exits of a transition, wake events, and rails. -/

namespace Sys2Proof.Machine

/-! ### The start and the steps of a transition (R478, R493, R496) -/

section Transitions

variable {s : State} (t : Time)

section Start

variable (hidle : s.pwr.running = none) (hwake : s.pwr.wake = none) (hpf : s.pwr.pfStep = 0) {p : PowerState}
include hidle hwake hpf

theorem exec_powerTransitionStart_pend (hpend : s.pwr.pend = some p) : exec (.powerTransitionStart t) s =
    .next (((s.at t).updPwr fun w => { w with pend := none }).beginTransition p [] true 3) := by
  show execPowerTransitionStart t s = _
  simp [execPowerTransitionStart, hidle, hwake, hpf, hpend]

theorem exec_powerTransitionStart_pending (hpend : s.pwr.pend = none) (hpending : s.pwr.pending = some p) :
    exec (.powerTransitionStart t) s = .next (((s.at t).updPwr fun w => { w with pending := none, pendBy := [] }).beginTransition
      p s.pwr.pendBy false (wakeCode s.pwr.pendBy)) := by
  show execPowerTransitionStart t s = _
  simp [execPowerTransitionStart, hidle, hwake, hpf, hpend, hpending]

end Start

theorem exec_powerTransitionStepEnd_step {k : PowerStep} (hstep : s.pwr.step = some k) :
    exec (.powerTransitionStepEnd t) s = .next (if (s.at t).stepDone k then ((s.at t).endStep k).goOn else s.at t) := by
  show execPowerTransitionStepEnd t s = _
  simp only [execPowerTransitionStepEnd, State.at_pwr, hstep]

end Transitions

/-! ### Wake events (R473, R476, R485 to R490) -/

/-- What decides on a wake event: the running target, the present state, the power failure, and the open clip. -/
def State.wakeView (s : State) : Option PowerState × PowerState × Nat × Option OpenClip :=
  (s.pwr.running, s.pwr.state, s.pwr.pfStep, s.rcd.clip)

theorem wakeView_readsNoPosting : ReadsNoPosting State.wakeView where
  host _ _ := rfl
  drey _ _ := rfl
  vole _ _ := rfl
  cal _ _ := rfl

section PinEdges

variable {s : State} {i : Fin 3} {low : Nat}

theorem State.pinEdge_ignored (h : low < 2000 ∨ s.pwr.storm[i] = true) : s.pinEdge i low = (s, false) := if_pos h

/-- An edge is noted in Dormouse, and a storm in the log, and nothing is decided by it yet. -/
theorem State.pinEdge_wakeView : (s.pinEdge i low).1.wakeView = s.wakeView := by
  by_cases h : low < 2000 ∨ s.pwr.storm[i] = true
  · rw [State.pinEdge_ignored h]
  · rw [State.pinEdge, if_neg h]
    extract_lets l fresh s1 s2 s3
    have hnoted : s2.wakeView = s.wakeView := by
      change (if fresh then _ else s1).wakeView = _
      split <;> rfl
    split
    · have hstorm : s3.wakeView = s.wakeView := hnoted
      change State.wakeView (if s3.vole.alive then _ else _) = _
      split
      · exact (wakeView_readsNoPosting.log s3 _ _).trans hstorm
      · exact hstorm
    · exact hnoted

theorem State.wakeEvent_starts (hidle : s.pwr.running = none) (hstate : s.pwr.state ≠ .run) (hpf : s.pwr.pfStep = 0)
    (second : Bool) : s.wakeEvent (if second then .wake1 else .wake0) =
      s.beginTransition .run [] false (if second then 2 else 1) := by
  have hacts : ¬(s.pwr.state = .run ∨ s.pwr.pfStep ≠ 0) := by simp [hstate, hpf]
  cases second <;> simp only [State.wakeEvent, hidle, if_neg hacts] <;> rfl

end PinEdges

section WakeCommands

variable {s : State} (t : Time)

theorem exec_wakePinEdge_ignored {second : Bool} {low : Nat}
    (h : low < 2000 ∨ s.pwr.storm[(if second then 1 else 0 : Fin 3)] = true) :
    exec (.wakePinEdge t second low) s = .next (s.at t) := by
  show execWakePinEdge t second low s = _
  simp only [execWakePinEdge, State.pinEdge_ignored (s := s.at t) h, Bool.false_eq_true, if_false]

theorem exec_wakePinEdge_event {second : Bool} {low : Nat}
    (hevent : ((s.at t).pinEdge (if second then 1 else 0) low).2 = true) (hidle : s.pwr.running = none)
    (hstate : s.pwr.state ≠ .run) (hpf : s.pwr.pfStep = 0) : exec (.wakePinEdge t second low) s =
      .next (((s.at t).pinEdge (if second then 1 else 0) low).1.beginTransition .run [] false (if second then 2 else 1)) := by
  have hview := State.pinEdge_wakeView (s := s.at t) (i := if second then 1 else 0) (low := low)
  simp only [State.wakeView, Prod.mk.injEq] at hview
  obtain ⟨hrunning, hpresent, hstep, -⟩ := hview
  refine congrArg Host.Outcome.next ((if_pos hevent).trans (State.wakeEvent_starts ?_ ?_ ?_ second))
  · rw [hrunning]
    exact hidle
  · rw [hpresent]
    exact hstate
  · rw [hstep]
    exact hpf

theorem exec_psreqEdge_event {low : Nat} {sel : Bool}
    (hevent : (((s.at t).updPins fun p => { p with pssel := sel }).pinEdge 2 low).2 = true) (hpf : s.pwr.pfStep = 0) :
    exec (.psreqEdge t low sel) s = .next
      (if s.holdsAwake then (((s.at t).updPins fun p => { p with pssel := sel }).pinEdge 2 low).1.log 0x0605 [2]
        else (((s.at t).updPins fun p => { p with pssel := sel }).pinEdge 2 low).1.requestPower
          (if sel then .hibernate else .torpor) .pin) := by
  have hview := State.pinEdge_wakeView (s := (s.at t).updPins fun p => { p with pssel := sel }) (i := 2) (low := low)
  simp only [State.wakeView, Prod.mk.injEq] at hview
  obtain ⟨-, -, hstep, hclip⟩ := hview
  have hawake : (((s.at t).updPins fun p => { p with pssel := sel }).pinEdge 2 low).1.holdsAwake = s.holdsAwake := by
    rw [State.holdsAwake, hclip]
    rfl
  have hfails : (((s.at t).updPins fun p => { p with pssel := sel }).pinEdge 2 low).1.pwr.pfStep = 0 := hstep.trans hpf
  show execPsreqEdge t low sel s = _
  simp only [execPsreqEdge, hevent, hfails, hawake, Bool.not_true, ne_eq, not_true, decide_false, Bool.or_self,
    Bool.false_eq_true, if_false]

theorem exec_wakeReplay_latched {p : WakePin} (hwake : s.pwr.wake = some p) (hidle : s.pwr.running = none)
    (hstate : s.pwr.state ≠ .run) (hpending : s.pwr.pending ≠ some .run) : exec (.wakeReplay t) s =
      .next (((s.at t).updPwr fun w => { w with
        wake := none, pend := if w.pend = some .run then none else w.pend }).beginTransition .run [] true
          (if p = .wake1 then 2 else 1)) := by
  have hpresent : ((s.at t).updPwr fun w => { w with
      wake := none, pend := if w.pend = some .run then none else w.pend }).pwr.state ≠ .run := hstate
  have hnone : ((s.at t).updPwr fun w => { w with
      wake := none, pend := if w.pend = some .run then none else w.pend }).pwr.pending ≠ some .run := hpending
  show execWakeReplay t s = _
  simp only [execWakeReplay, State.at_pwr, hwake, hidle, Option.isSome_none, Bool.false_eq_true, if_false, if_neg hpending,
    if_neg hnone, if_neg hpresent]

end WakeCommands

/-! ### Re-arming, and the rails that do not come (R487, R491, R500) -/

section Rails

variable {s : State} (t : Time)

theorem exec_wakeRearm_ready {fn : FnId} (hready : (s.func fn).ready = true) (v : Word) :
    exec (.wakeRearm t fn v) s = .next ((s.at t).rearmPins fn v) :=
  congrArg Host.Outcome.next (if_pos hready)

theorem State.rearmPins_storm (v : Word) (i : Fin 3) :
    (s.rearmPins 3 v).pwr.storm[i] = (s.pwr.storm[i] && !v.getLsbD i.val) :=
  Vector.getElem_ofFn _

/-- The rails go low again after a first or a second failure (R500). -/
def State.railsFailed (s : State) : State :=
  s.enterHibernate.updPwr fun w => { w with
    state := .hibernate, railMain := false, railFails := w.railFails + 1, step := some (.exiting true), exitAt := s.now }

theorem exec_pgoodTimeout_late {deep : Bool} (hstep : s.pwr.step = some (.exiting deep)) (hmain : s.pwr.railMain = true)
    (hbad : s.pins.pgood = false) (hlate : s.pwr.exitAt + 10000000 ≤ (s.at t).now) : exec (.pgoodTimeout t) s =
      .next (if s.pwr.railFails + 1 < 2 then (s.at t).railsFailed.updPwr fun w => { w with railRetry := true }
        else (s.at t).railsFailed.updPwr fun w => { w with
          running := none, step := none, runBy := [], pending := none, pendBy := [], pend := none, railRetry := false
          railLog := w.railLog ++ [0, 1] }) := by
  have hover : s.pwr.exitAt + Config.ms 10 ≤ (s.at t).now := hlate
  show execPgoodTimeout t s = _
  simp only [execPgoodTimeout, State.at_pwr, State.at_pins, hstep, hmain, hbad, hover, decide_true, Bool.not_false,
    Bool.and_self, if_true]
  rfl

theorem exec_railEnableRetry_due (hretry : s.pwr.railRetry = true)
    (hlate : s.pwr.exitAt + 100000000 ≤ (s.at t).now) : exec (.railEnableRetry t) s = .next (s.at t).raiseRails := by
  have hdue : ((s.at t).pwr.railRetry && decide ((s.at t).pwr.exitAt + Config.ms 100 ≤ (s.at t).now)) = true :=
    Bool.and_eq_true_iff.2 ⟨hretry, decide_eq_true hlate⟩
  exact congrArg Host.Outcome.next (if_pos hdue)

end Rails

/-! ### Exits (R482, R512, R513, R519) -/

/-- What an exit shows of the rails: PGOOD, and whether VCORE is low. -/
def State.railView (s : State) : Bool × Bool := (s.pins.pgood, s.pins.vcoreLow)

/-- The present state with the rails. -/
def State.exitView (s : State) : PowerState × Bool × Bool := (s.pwr.state, s.railView)

theorem railView_readsNoPosting : ReadsNoPosting State.railView where
  host _ _ := rfl
  drey _ _ := rfl
  vole _ _ := rfl
  cal _ _ := rfl

theorem exitView_readsNoPosting : ReadsNoPosting State.exitView where
  host _ _ := rfl
  drey _ _ := rfl
  vole _ _ := rfl
  cal _ _ := rfl

section ReadsNoPosting

variable {β : Type} {g : State → β} (hg : ReadsNoPosting g) (s : State)
include hg

theorem ReadsNoPosting.endRequesters (l : List Requester) (st : Status) (v : DWord) :
    g (s.endRequesters l st v) = g s := by
  refine foldl_keeps g _ (fun u x => ?_) l s
  split
  · rfl
  · exact hg.endRunning u _ st v []

theorem ReadsNoPosting.logAll (l : List (BitVec 16 × List Word)) : g (s.logAll l) = g s := by
  rw [State.logAll]
  exact foldl_keeps g _ (fun u x => hg.log u x.1 x.2) l s

theorem ReadsNoPosting.setSteps (steps : List Nat) (st : StepStatus) : g (s.setSteps steps st) = g s := by
  rw [State.setSteps]
  refine foldl_keeps g _ (fun u n => ?_) steps s
  refine foldl_keeps g _ (fun v x => ?_) _ u
  exact hg.setUnit v n x.1 x.2 st

end ReadsNoPosting

section KeepRails

variable (s : State)

theorem State.releaseVole_railView (cause : Nat) : (s.releaseVole cause).railView = s.railView := by
  obtain ⟨v, -, h⟩ := s.releaseVole_eq cause
  rw [h]
  rfl

theorem State.setDomains_railView (on kept : BitVec 17) : (s.setDomains on kept).railView = s.railView := rfl
theorem State.loadArchive_railView : s.loadArchive.railView = s.railView := by
  simp only [State.railView, State.loadArchive]
theorem State.updQuill_railView (f : QuillState → QuillState) : (s.updQuill f).railView = s.railView := rfl
theorem State.enterRecovery_railView (cause : Nat) (rej : List (BitVec 16 × List Word)) :
    (s.enterRecovery cause rej).railView = s.railView := rfl

theorem State.setQuill_railView (q : QuillState) : ({ s with quill := q } : State).railView = s.railView := rfl

theorem State.updHost_railView (f : HostLink → HostLink) : (s.updHost f).railView = s.railView := rfl
theorem State.pinsStand_railView (arm door : Nat) :
    (s.updPins fun p => { p with armSince := arm, doorSince := door }).railView = s.railView := rfl

theorem State.bootSlot_railView (n cause : Nat) (rej : List (BitVec 16 × List Word)) :
    (s.bootSlot n cause rej).railView = s.railView := by
  simp only [State.bootSlot]
  rw [State.pinsStand_railView, State.loadArchive_railView, State.releaseVole_railView, State.setDomains_railView, State.setQuill_railView]

theorem State.romStart_railView : s.romStart.railView = s.railView := rfl

theorem State.bootRom_railView (kat octal : Bool) : (s.bootRom kat octal).railView = s.railView := by
  have hmeasured : s.romMeasured.railView = s.railView :=
    (State.updQuill_railView _ _).trans (State.romStart_railView s)
  by_cases hstops : s.pins.testEn = true ∨ kat = false
  · rw [State.bootRom_stops hstops, State.updQuill_railView, State.romStart_railView]
  · obtain ⟨htest, hkat⟩ := not_or.1 hstops
    obtain rfl : kat = true := eq_true_of_ne_false hkat
    rw [State.bootRom_tested (eq_false_of_ne_true htest)]
    split
    · exact (State.enterRecovery_railView _ 2 []).trans hmeasured
    split
    · exact (State.bootSlot_railView _ _ 0 _).trans hmeasured
    · exact (State.enterRecovery_railView _ 1 _).trans hmeasured

theorem State.exitRom_railView (kat octal : Bool) : (s.exitRom kat octal).railView = s.railView :=
  State.bootRom_railView _ kat octal

theorem State.exitRetained_railView : s.exitRetained.railView = s.railView := by
  simp only [State.exitRetained]
  rw [State.loadArchive_railView, State.releaseVole_railView, State.setDomains_railView, State.updQuill_railView]

theorem State.loseDevice_railView (d : Fin 20) : (s.loseDevice d).railView = s.railView := by
  rw [State.loseDevice]
  split
  · rfl
  · rw [railView_readsNoPosting.log, railView_readsNoPosting.raise]
    rfl

theorem State.selfTest_railView (test : SelfTestSense) : (s.selfTest test).railView = s.railView := by
  have hstep : (if s.quill.bootStep = 9 then s.updQuill fun q => { q with bootStep := 10 } else s).railView =
      s.railView := by
    split <;> rfl
  simp only [State.selfTest]
  split
  · exact hstep
  · exact (State.loseDevice_railView _ _).trans hstep
  · exact hstep

theorem State.settleFloor_railView : s.settleFloor.railView = s.railView := by
  rw [State.settleFloor]
  split
  · split
    · exact railView_readsNoPosting.log _ _ _
    split
    · exact railView_readsNoPosting.log _ _ _
    · rfl
  · rfl

theorem State.grantReleases_railView : s.grantReleases.railView = s.railView := by
  rw [State.grantReleases]
  split <;> rfl

theorem State.logDormouse_railView : s.logDormouse.railView = s.railView :=
  railView_readsNoPosting.logAll s _

theorem State.magazineFromPins_railView : s.magazineFromPins.railView = s.railView := by
  obtain ⟨m, x, h⟩ := s.setMagazine_eq (if !s.pins.magPresent then 0 else if s.pins.doorSense then 1 else 2)
  rw [State.magazineFromPins, h]
  rfl

theorem State.becomeReady_railView (rate width : Nat) : (s.becomeReady rate width).railView = s.railView := by
  simp only [State.becomeReady]
  split
  · rfl
  · rw [railView_readsNoPosting.followBringup, railView_readsNoPosting.setSteps, railView_readsNoPosting.updCal,
      State.magazineFromPins_railView, State.logDormouse_railView, State.settleFloor_railView,
      State.grantReleases_railView]
    rfl

theorem State.endTransition_exitView : s.endTransition.exitView = s.exitView :=
  exitView_readsNoPosting.endRequesters _ _ _ _

/-- From PARK a transition goes on to DOZE or to TORPOR (R478, Table 13.4). -/
theorem State.nextStep_park {p : PowerState} {k : PowerStep} (hpark : s.pwr.state = .park) (hk : s.nextStep p = some k) :
    k = .parkToDoze ∨ k = .parkToTorpor := by
  simp only [State.nextStep, hpark] at hk
  split at hk
  · exact .inl (Option.some.inj hk).symm
  split at hk
  · exact absurd hk (by simp)
  · exact .inr (Option.some.inj hk).symm

theorem State.wantSpeed_exitView (rpm : Nat) : (s.wantSpeed rpm).exitView = s.exitView := by
  rw [State.wantSpeed]
  (repeat' split) <;> rfl

theorem State.goOn_exitView (hpark : s.pwr.state = .park) : s.goOn.exitView = s.exitView := by
  rw [State.goOn]
  split
  · rfl
  split
  · exact s.endTransition_exitView
  · next p _ k hk =>
    obtain rfl | rfl := s.nextStep_park hpark hk
    · simp only [State.startStep]
      split
      · exact State.wantSpeed_exitView _ _
      · rfl
    · rfl

end KeepRails

/-- PGOOD has risen in an exit, and Quill has booted from mask ROM or has resumed from retention (R482, R512, R519). -/
def State.exitBoot (s : State) (rom kat octal : Bool) : State :=
  let risen := s.updPins fun p => { p with pgood := true, vcoreLow := false }
  (if rom then risen.exitRom kat octal else risen.exitRetained).updHost fun h => { h with fetchStopped := false }

theorem State.exitBoot_railView (s : State) (rom kat octal : Bool) :
    (s.exitBoot rom kat octal).railView = (true, false) := by
  simp only [State.exitBoot]
  rw [State.updHost_railView]
  split
  · rw [State.exitRom_railView]
    rfl
  · rw [State.exitRetained_railView]
    rfl

/-- The exit after its boot: the memory is tested and the functions answer, unless Quill has stopped; then the transition
goes on or ends (Table 13.6). -/
def State.exitPark (s : State) (test : SelfTestSense) (rate width : Nat) : State :=
  if s.quill.stopped then (s.updPwr fun w => { w with state := .park }).endTransition
  else
    let s5 := if s.quill.recovery then s else (s.selfTest test).setDomains (domainsOf .park) 0
    let s6 := ((s5.becomeReady rate width).updPwr fun w => { w with state := .park }).raise evPowerChange
    if s6.quill.recovery then s6.endTransition else s6.goOn

theorem State.exitPark_exitView (s : State) (test : SelfTestSense) (rate width : Nat) :
    (s.exitPark test rate width).exitView = (.park, s.railView) := by
  rw [State.exitPark]
  split
  · exact State.endTransition_exitView _
  · extract_lets s5 s6
    have hready : s5.railView = s.railView := by
      change State.railView (if s.quill.recovery then _ else _) = _
      split
      · rfl
      · exact s.selfTest_railView test
    have hpark : s6.exitView = (.park, s.railView) := by
      refine (exitView_readsNoPosting.raise _ _).trans (Prod.ext rfl ?_)
      exact (s5.becomeReady_railView rate width).trans hready
    split
    · exact s6.endTransition_exitView.trans hpark
    · exact (s6.goOn_exitView (congrArg Prod.fst hpark)).trans hpark

theorem exec_torporHibernateExit_trains {s : State} (t : Time) {deep : Bool} (ok kat octal : Bool) (test : SelfTestSense)
    {rate width : Nat} (hstep : s.pwr.step = some (.exiting deep)) (hmain : s.pwr.railMain = true)
    (htrains : linkTrains rate width = true) :
    exec (.torporHibernateExit t ok kat octal test rate width) s = .next
      (((s.at t).exitBoot (deep || !ok) kat octal).exitPark test rate width) := by
  show execTorporHibernateExit t ok kat octal test rate width s = _
  simp only [execTorporHibernateExit, State.at_pwr, hstep, hmain, htrains, Bool.and_self, if_true]
  rfl

/-- Settles O56, from the start and the steps of a transition, the wake events, the exit, and the retry of the rails. -/
theorem powerTransitions : Obligations.PowerTransitions := by
  intro t s s1
  refine ⟨fun hidle hwake hpf => ⟨fun p => exec_powerTransitionStart_pend t hidle hwake hpf,
      fun p => exec_powerTransitionStart_pending t hidle hwake hpf⟩, fun k hstep => ?_,
    fun deep ok kat octal test rate width hstep hmain htrains => ?_, fun second low => exec_wakePinEdge_ignored t,
    fun second low => exec_wakePinEdge_event t, fun low sel => ?_, fun p => exec_wakeReplay_latched t,
    fun v hready => ?_, fun fn v hother hready => ?_, fun deep hstep hmain hbad hlate => ?_, fun hretry hlate => ?_⟩
  · have hends := exec_powerTransitionStepEnd_step t hstep
    exact ⟨fun hdone => hends.trans (congrArg _ (if_pos hdone)),
      fun hgoes => hends.trans (congrArg _ (if_neg (Bool.eq_false_iff.1 hgoes)))⟩
  · refine ⟨_, exec_torporHibernateExit_trains t ok kat octal test hstep hmain htrains, ?_⟩
    have hview := State.exitPark_exitView ((s.at t).exitBoot (deep || !ok) kat octal) test rate width
    rw [State.exitBoot_railView] at hview
    simpa only [State.exitView, State.railView, Prod.mk.injEq] using hview
  · intro r hevent hpf
    have hedge := exec_psreqEdge_event t hevent hpf
    exact ⟨fun hfree => hedge.trans (congrArg _ (if_neg (Bool.eq_false_iff.1 hfree))),
      fun hawake => hedge.trans (congrArg _ (if_pos hawake))⟩
  · exact ⟨_, exec_wakeRearm_ready t hready v, rfl, s1.rearmPins_storm v⟩
  · exact (exec_wakeRearm_ready t hready v).trans (congrArg _ (if_neg hother))
  · refine ⟨_, exec_pgoodTimeout_late t hstep hmain hbad hlate, ?_⟩
    by_cases h0 : s.pwr.railFails = 0
    · rw [if_pos (by omega)]
      exact ⟨rfl, rfl, rfl, (decide_eq_true h0).symm, fun h => absurd h0 h⟩
    · rw [if_neg (by omega)]
      exact ⟨rfl, rfl, rfl, (decide_eq_false h0).symm, fun _ => ⟨rfl, rfl, rfl⟩⟩
  · exact ⟨_, exec_railEnableRetry_due t hretry hlate, rfl, rfl, rfl, rfl⟩

end Sys2Proof.Machine
